-- ==== Sys2Proof/Word.lean ====
section
/-! DEFINITION. Words of the port and of frames, and the small containers for "one per side" and "one per product". -/

namespace Sys2Proof

/-- One byte of exchange memory, of an order body or of a frame. -/
abbrev Byte := BitVec 8

/-- A 16-bit register or word of the host port. -/
abbrev Word16 := BitVec 16

/-- A value of the 32-bit real-time counter (R162). -/
abbrev Word32 := BitVec 32

/-- The two sides of the dispenser. -/
inductive Side where
  | a | b
  deriving DecidableEq, Repr, Inhabited

/-- The products P1, P2 and P3. Product Pn is pumped by motor Mn, admitted by the side's valve n and measured by its meter n (R8). -/
inductive Product where
  | p1 | p2 | p3
  deriving DecidableEq, Repr, Inhabited

/-- The grades G1 to G5; G5 is the grade of hose 2. -/
inductive Grade where
  | g1 | g2 | g3 | g4 | g5
  deriving DecidableEq, Repr, Inhabited

/-- The eight display roles, in the order of the head table. -/
inductive Role where
  | saleA | saleB | priceA | priceB | mirror1 | mirror2 | mirror3 | mirror4
  deriving DecidableEq, Repr, Inhabited

/-- One value for each side. -/
structure Sides (α : Type) where
  a : α
  b : α
  deriving DecidableEq, Repr, Inhabited

/-- The value of a side. -/
def Sides.get {α : Type} (x : Sides α) : Side → α
  | .a => x.a
  | .b => x.b

/-- Replaces the value of a side. -/
def Sides.set {α : Type} (x : Sides α) (i : Side) (v : α) : Sides α :=
  match i with
  | .a => { x with a := v }
  | .b => { x with b := v }

/-- One value for each product (and so for each motor, or for each meter or valve of a side). -/
structure Three (α : Type) where
  p1 : α
  p2 : α
  p3 : α
  deriving DecidableEq, Repr, Inhabited

/-- The value of a product. -/
def Three.get {α : Type} (x : Three α) : Product → α
  | .p1 => x.p1
  | .p2 => x.p2
  | .p3 => x.p3

/-- Replaces the value of a product. -/
def Three.set {α : Type} (x : Three α) (i : Product) (v : α) : Three α :=
  match i with
  | .p1 => { x with p1 := v }
  | .p2 => { x with p2 := v }
  | .p3 => { x with p3 := v }

/-- Applies a function to every product's value. -/
def Three.map {α β : Type} (x : Three α) (f : α → β) : Three β := ⟨f x.p1, f x.p2, f x.p3⟩

/-- One value for each grade. -/
structure Five (α : Type) where
  g1 : α
  g2 : α
  g3 : α
  g4 : α
  g5 : α
  deriving DecidableEq, Repr, Inhabited

/-- The value of a grade. -/
def Five.get {α : Type} (x : Five α) : Grade → α
  | .g1 => x.g1
  | .g2 => x.g2
  | .g3 => x.g3
  | .g4 => x.g4
  | .g5 => x.g5

/-- Replaces the value of a grade. -/
def Five.set {α : Type} (x : Five α) (i : Grade) (v : α) : Five α :=
  match i with
  | .g1 => { x with g1 := v }
  | .g2 => { x with g2 := v }
  | .g3 => { x with g3 := v }
  | .g4 => { x with g4 := v }
  | .g5 => { x with g5 := v }

/-- Applies a function of the grade to every grade. -/
def Five.ofFun {α : Type} (f : Grade → α) : Five α := ⟨f .g1, f .g2, f .g3, f .g4, f .g5⟩

/-- The values in grade order. -/
def Five.toList {α : Type} (x : Five α) : List α := [x.g1, x.g2, x.g3, x.g4, x.g5]

/-- One value for each display role. -/
structure Eight (α : Type) where
  saleA : α
  saleB : α
  priceA : α
  priceB : α
  mirror1 : α
  mirror2 : α
  mirror3 : α
  mirror4 : α
  deriving DecidableEq, Repr, Inhabited

/-- The value of a role. -/
def Eight.get {α : Type} (x : Eight α) : Role → α
  | .saleA => x.saleA
  | .saleB => x.saleB
  | .priceA => x.priceA
  | .priceB => x.priceB
  | .mirror1 => x.mirror1
  | .mirror2 => x.mirror2
  | .mirror3 => x.mirror3
  | .mirror4 => x.mirror4

/-- Replaces the value of a role. -/
def Eight.set {α : Type} (x : Eight α) (i : Role) (v : α) : Eight α :=
  match i with
  | .saleA => { x with saleA := v }
  | .saleB => { x with saleB := v }
  | .priceA => { x with priceA := v }
  | .priceB => { x with priceB := v }
  | .mirror1 => { x with mirror1 := v }
  | .mirror2 => { x with mirror2 := v }
  | .mirror3 => { x with mirror3 := v }
  | .mirror4 => { x with mirror4 := v }

/-- Applies a function of the role to every role. -/
def Eight.ofFun {α : Type} (f : Role → α) : Eight α :=
  ⟨f .saleA, f .saleB, f .priceA, f .priceB, f .mirror1, f .mirror2, f .mirror3, f .mirror4⟩

/-- The other side. -/
def Side.other : Side → Side
  | .a => .b
  | .b => .a

end Sys2Proof
end

