-- ==== Sys2Proof/Syntax.lean ====
section
/-! DEFINITION. The commands the block takes: one constructor for each row of spec/opcode_table.json, with the row's operands. -/

namespace Sys2Proof

/-- The two hoses of a side. -/
inductive Hose where
  | h1 | h2
  deriving DecidableEq, Repr, Inhabited

/-- A meter, and the valve of the same name: A1 to A3, B1 to B3. -/
structure Meter where
  side : Side
  product : Product
  deriving DecidableEq, Repr, Inhabited

/-- The two quiet timers of a meter (R34). -/
inductive QuietKind where
  | anyPulse | unassigned
  deriving DecidableEq, Repr, Inhabited

/-- One of the two inputs of a meter (file 02, DECODING). -/
inductive MeterInput where
  | chA | chB
  deriving DecidableEq, Repr, Inhabited

/-- The levels of a meter's inputs, written (A, B) in the spec. -/
structure LevelPair where
  chA : Bool
  chB : Bool
  deriving DecidableEq, Repr, Inhabited

/-- The commands. An order (AUTHORIZE to CLEAR_LOG) and a take carry no operand: they act on the head of the post queue,
whose kind, target and body stand in its order slot (R188, R189; log 6). A timer's expiry is a command (log 1). -/
inductive Instr where
  -- orders taken from the post queue
  | authorize
  | deauthorize
  | stop
  | pause
  | resume
  | settle
  | clearLock
  | clearHalt
  | priceSet
  | showMessage
  | readerSend
  | readerRestart
  | motorClear
  | standby
  | wake
  | setClock
  | calibrate
  | setSettings
  | initTotals
  | clearLog
  | takeUnknownKind
  | takeWithdrawn
  | notActiveTake
  -- the host port
  | orderPost (value : Word16)
  | attnEnable (mask : Word16)
  | attnClear (mask : Word16)
  | deviceReset (value : Bool)
  | portAwakeInStandby (value : Bool)
  | registerWriteIgnored (addr value : Word16)
  | read (addr : Option Word16) (count : Nat)
  | write (addr : Option Word16) (data : List Byte)
  | invalidCommand (command : Byte) (count : Nat)
  -- fueling points
  | hoseLift (side : Side) (hose : Hose)
  | hoseHang (side : Side) (hose : Hose)
  | gradeButtonPress (side : Side) (grade : Grade)
  | authExpiry (side : Side)
  | gradePressValidityExpiry (side : Side)
  | startTimeout (side : Side)
  | noFlowTimeout (side : Side)
  | pauseTimeout (side : Side)
  | settleTimerExpiry (side : Side)
  -- metering
  | forwardPulse (meter : Meter)
  | reversePulse (meter : Meter)
  | illegalTransition (meter : Meter)
  | subwindowExpiry (meter : Meter)
  | quietTimerExpiry (meter : Meter) (kind : QuietKind)
  -- valves, blend loops and motors
  | pwmPeriodBoundary
  | pullInEnd (valve : Meter)
  | blendIntervalExpiry (side : Side)
  | motorStartExpiry (motor : Product)
  | runOnExpiry (motor : Product)
  | motorTripAssert (motor : Product)
  | motorTripRelease (motor : Product)
  -- the display bus
  | displayFrameStart
  | displayFrameComplete (headState check : Byte)
  | displayFrameNack
  | clockStretchTimeout
  | arbitrationLost
  | busStart
  | busStop
  | busStuckTimeout
  | busClearDone (bothHigh : Bool)
  | generalCallComplete
  | refreshTimerExpiry (role : Role)
  | probeTimerExpiry (role : Role)
  | staleDeadlineExpiry (side : Side)
  | messageDurationExpiry (side : Side)
  | saleSpacingExpiry (role : Role)
  | segmentTestEnd
  | displaySettleEnd
  -- card readers
  | readerPollExpiry (side : Side)
  | readerReply (side : Side) (skipped : List Byte) (kind flags : Byte) (rest : List Byte)
  | readerResponseTimeout (side : Side)
  | warmUpExpiry (side : Side)
  | powerOffTimerExpiry (side : Side)
  | tamperAssert (side : Side)
  | tamperRelease (side : Side)
  | overcurrent (side : Side)
  | supplyFaultRelease (side : Side)
  -- the metrology store port
  | metrologySwitchChange (on : Bool)
  | checkTimerExpiry (storedCrc : Word16)
  | reloadStart
  | reloadDone (image : List Host.Cell)
  | storeLoadDone (image : List Host.Cell) (levels : Sides (Three LevelPair))
  | storePageDone (readBack : List Byte)
  | storeCycleTimeout
  -- clock, power and reset
  | crystalDetected
  | crystalWatchTimeout
  | pllLock
  | pllLockTimeout
  | crystalStop
  | standbyEntry
  | wakeTimeReached
  | wakePin
  | rtcSecond
  | powerFailWarning
  | warningRelease
  | powerGoodHoldEnd
  | mainsLoss
  | mainsReturn (warning : Bool)
  | retentionSupplyLow
  | resetPin
  | resetHoldEnd
  -- rows that stand last in the table
  | quarterStep (meter : Meter) (input : MeterInput)
  | readerFrameEnd (side : Side)
  | bothLinesHigh
  | abandonedFrameStop
  deriving DecidableEq, Repr

end Sys2Proof
end

