-- ==== Sys2Proof/WellFormed.lean ====
section
/-! DEFINITION. What makes a command well formed: its operands are ones the spec's party can send. -/

namespace Sys2Proof

/-- The bytes of the calibration image (file 11: 1,156 bytes at store address 0). -/
def storeImageSize : Nat := 1156

/-- Addresses strictly rising, none of them past the image and no listed byte 0: the canonical form of bytes read from the store. -/
def imageWf : List Host.Cell → Bool
  | [] => true
  | [(k, v)] => decide (k < storeImageSize) && decide (v ≠ 0)
  | (k, v) :: (k', v') :: rest => decide (k < k') && decide (v ≠ 0) && imageWf ((k', v') :: rest)

/-- A register address whose writes are ignored: PART_ID, ATTN_SUMMARY and every address past 0x4005 (R182, R183). -/
def writeIgnoredAt (addr : Word16) : Bool :=
  decide (addr.toNat = 0x4000 ∨ addr.toNat = 0x4001 ∨ 0x4006 ≤ addr.toNat)

/-- The roles that receive SALE frames: sale heads, and mirrors, whose source may be a sale head (R100). -/
def mayShowSale : Role → Bool
  | .priceA | .priceB => false
  | _ => true

/-- The check of each command's operands. -/
def Instr.wellFormed : Instr → Bool
  | .gradeButtonPress _ g => decide (g ≠ .g5)                       -- a side has four buttons, G1 to G4
  | .registerWriteIgnored addr _ => writeIgnoredAt addr
  | .invalidCommand c _ => decide (c ≠ 0x02 ∧ c ≠ 0x03)             -- 0x02 WRITE and 0x03 READ are valid (file 11)
  | .saleSpacingExpiry r => mayShowSale r
  | .readerReply _ skipped _ _ _ => !skipped.contains 0x7E          -- the marker that is read is the first one (R121)
  | .reloadDone image => imageWf image
  | .storeLoadDone image _ => imageWf image
  | .storePageDone readBack => decide (readBack.length ≤ 32)        -- a page is up to 32 bytes (file 09)
  | _ => true

end Sys2Proof
end

