-- ==== Sys2Proof/Decode.lean ====
section
/-! DEFINITION. The block fetches no instruction, and no row of spec/opcode_table.json has bits: no word spells a command. -/

namespace Sys2Proof

/-- The command that a word of `nbits` bits spells by the table's bits. The table gives no row any bits, so there is none. -/
def decodeTableWord (_nbits _w : Nat) : Option Instr := none

end Sys2Proof
end

