-- ==== Sys2Proof/Machine/Bytes.lean ====
section
/-! DEFINITION. Byte order, signed fields and the CRC-16 of frames and of the calibration image. -/

namespace Sys2Proof.Machine

/-- The `n` bytes of a value, most significant byte first (R196). -/
def bytesBE : Nat → Nat → List Byte
  | 0, _ => []
  | n + 1, v => BitVec.ofNat 8 (v / 256 ^ n) :: bytesBE n v

/-- The value of bytes held most significant byte first (R196). -/
def natBE (bs : List Byte) : Nat := bs.foldl (fun acc b => acc * 256 + b.toNat) 0

/-- A two's complement value of `bits` bits (R196). -/
def signedOf (bits v : Nat) : Int := if v < 2 ^ (bits - 1) then (v : Int) else (v : Int) - (2 ^ bits : Nat)

/-- The `bits` low bits of a signed value, in two's complement (R196). -/
def unsignedOf (bits : Nat) (v : Int) : Nat := (v % (2 ^ bits : Nat)).toNat

/-- One bit of the CRC register: the generator is x^16 + x^12 + x^5 + 1, most significant bit first (R121, R171). -/
def crcShift (c : Nat) : Nat := if 0x8000 ≤ c then (c * 2 % 0x10000) ^^^ 0x1021 else c * 2

/-- One byte through the CRC register. -/
def crcByte (c : Nat) (b : Byte) : Nat :=
  crcShift (crcShift (crcShift (crcShift (crcShift (crcShift (crcShift (crcShift (c ^^^ (b.toNat * 256)))))))))

/-- Bytes through the CRC register. The register is matched at each byte so that evaluation keeps it a number. -/
def crcBytes : List Byte → Nat → Nat
  | [], c => c
  | b :: bs, 0 => crcBytes bs (crcByte 0 b)
  | b :: bs, c + 1 => crcBytes bs (crcByte (c + 1) b)

/-- The CRC-16 of bytes: initial value all ones, no final inversion (R121, R171). -/
def crc16 (bs : List Byte) : Word16 := BitVec.ofNat 16 (crcBytes bs 0xFFFF)

/-- Clamps a value to a range. -/
def clampNat (lo hi v : Nat) : Nat := if v < lo then lo else if hi < v then hi else v

/-- Clamps a signed value to a range. -/
def clampInt (lo hi v : Int) : Int := if v < lo then lo else if hi < v then hi else v

/-- A flag as a number, for a bit or a byte of a record. -/
def bit (b : Bool) : Nat := if b then 1 else 0

end Sys2Proof.Machine
end

