-- ==== Sys2Proof/Machine/Memory.lean ====
section
/-! DEFINITION. Byte memory in canonical form: for exchange memory from 0x2000 on and for the working copy of the calibration image. -/

namespace Sys2Proof.Machine

/-- A memory: the bytes that are not 0, with their addresses strictly rising. An unlisted address reads 0, which is what
exchange memory holds after it is zeroed at mains power-up and at device reset (R195). -/
abbrev Memory := List Host.Cell

/-- What an unlisted address reads as (R195). -/
def unlistedByte : Byte := 0

/-- The byte at an address. -/
def Memory.read : Memory → Nat → Byte
  | [], _ => unlistedByte
  | (k, v) :: rest, a => if k = a then v else Memory.read rest a

/-- Writes a byte and keeps the canonical form: writing what an unlisted address reads as removes the entry. -/
def Memory.write : Memory → Nat → Byte → Memory
  | [], a, v => if v = unlistedByte then [] else [(a, v)]
  | (k, w) :: rest, a, v =>
    if a < k then (if v = unlistedByte then (k, w) :: rest else (a, v) :: (k, w) :: rest)
    else if a = k then (if v = unlistedByte then rest else (k, v) :: rest)
    else (k, w) :: Memory.write rest a v

/-- The canonical form: addresses strictly rising, no entry equal to what an unlisted address reads as. -/
def Memory.wf : Memory → Bool
  | [] => true
  | [(_, v)] => decide (v ≠ unlistedByte)
  | (k, v) :: (k', v') :: rest => decide (k < k') && decide (v ≠ unlistedByte) && Memory.wf ((k', v') :: rest)

/-- Writes bytes at rising addresses from `a` on. -/
def Memory.writeAll (m : Memory) (a : Nat) : List Byte → Memory
  | [] => m
  | b :: bs => Memory.writeAll (m.write a b) (a + 1) bs

/-- The `n` bytes from `a` on. -/
def Memory.readAll (m : Memory) : Nat → Nat → List Byte
  | _, 0 => []
  | a, n + 1 => m.read a :: m.readAll (a + 1) n

/-- The value of the `n` bytes from `a` on, most significant byte first (R196). -/
def Memory.field (m : Memory) (a n : Nat) : Nat := natBE (m.readAll a n)

/-- The canonical memory that holds the given cells below `size`, the last one listed for an address standing. -/
def Memory.ofCells (size : Nat) : List Host.Cell → Memory
  | [] => []
  | (k, v) :: rest => if k < size then (Memory.ofCells size rest).write k v else Memory.ofCells size rest

end Sys2Proof.Machine
end

