-- ==== Sys2Proof/Machine/Types.lean ====
section
/-! DEFINITION. The named values and records of the spec: states, causes, codes, the sale record, retention memory. -/

namespace Sys2Proof.Machine

/-- A timer: stopped, or running since it was started with this nominal value in milliseconds (log 1). -/
abbrev Timer := Option Nat

/-- The states of a fueling point (file 01, FUELING-POINT STATES). -/
inductive FpState where
  | unavailable | idle | calling | authorized | starting | fueling | paused | settling | finished | locked
  deriving DecidableEq, Repr, Inhabited

/-- Stop causes and authorization causes (R20, file 11 table 2). -/
inductive Cause where
  | nozzleHung | presetReached | amountLimit | noFlow
  | hostStop | pauseTimeout | startTimeout | displayFail | readerTamper | motorTrip | powerLoss | deviceReset | halt
  | overrun | blendFault | pulserFault | unauthFlow
  | deauthorized | authExpired | authWithdrawn
  deriving DecidableEq, Repr, Inhabited

/-- The class of a cause (R20); authorization causes end no sale. -/
inductive CauseClass where
  | endClass | stopClass | lockClass | authorization
  deriving DecidableEq, Repr, Inhabited

/-- The class of a cause (R20). -/
def Cause.cls : Cause → CauseClass
  | .nozzleHung | .presetReached | .amountLimit | .noFlow => .endClass
  | .hostStop | .pauseTimeout | .startTimeout | .displayFail | .readerTamper | .motorTrip | .powerLoss | .deviceReset | .halt => .stopClass
  | .overrun | .blendFault | .pulserFault | .unauthFlow => .lockClass
  | .deauthorized | .authExpired | .authWithdrawn => .authorization

/-- Whether a cause is of class LOCK (R20). -/
def Cause.isLock (c : Cause) : Bool := decide (c.cls = .lockClass)

/-- Origin of an authorization. -/
inductive Origin where
  | console | reader
  deriving DecidableEq, Repr, Inhabited

/-- Price level. -/
inductive Level where
  | level1 | level2
  deriving DecidableEq, Repr, Inhabited

/-- Preset kind. -/
inductive PresetKind where
  | none | volume | amount
  deriving DecidableEq, Repr, Inhabited

/-- Status of the current sale (file 01, THE SALE RECORD). -/
inductive SaleStatus where
  | none | opened | interrupted | completed | discarded
  deriving DecidableEq, Repr, Inhabited

/-- Why a sale closes at its close target (R47). -/
inductive CloseReason where
  | preset | cap
  deriving DecidableEq, Repr, Inhabited

/-- The authorization record (R10). -/
structure AuthRecord where
  origin : Origin
  level : Level
  mask : Five Bool
  presetKind : PresetKind
  preset : Nat
  clamped : Bool
  takeTime : Word32
  deriving DecidableEq, Repr, Inhabited

/-- The sale record (file 01, THE SALE RECORD). `drawn` is the product set of its grade, fixed with the grade (R8). -/
structure Sale where
  status : SaleStatus
  number : Nat
  side : Side
  hose : Hose
  grade : Option Grade
  origin : Origin
  level : Level
  price : Nat
  version : Nat
  presetKind : PresetKind
  preset : Nat
  closeTarget : Nat
  volume : Nat
  amount : Nat
  drawn : Three Bool
  products : Three Nat
  startTime : Word32
  endTime : Option Word32
  endCause : Option Cause
  firstCause : Option Cause
  clamped : Bool
  capped : Bool
  degraded : Bool
  deriving DecidableEq, Repr, Inhabited

/-- The record of a side with no sale since retention was initialized: status NONE, everything else 0 or absent. -/
def Sale.empty (d : Side) : Sale :=
  { status := .none, number := 0, side := d, hose := .h1, grade := none, origin := .console, level := .level1, price := 0,
    version := 0, presetKind := .none, preset := 0, closeTarget := 0, volume := 0, amount := 0, drawn := ⟨false, false, false⟩,
    products := ⟨0, 0, 0⟩, startTime := 0, endTime := none, endCause := none, firstCause := none, clamped := false,
    capped := false, degraded := false }

/-- What the last-end record tells (R12, R24, file 11). -/
inductive LastEndKind where
  | authEnded | saleCompleted | saleDiscarded
  deriving DecidableEq, Repr, Inhabited

/-- The last-end record of a fueling point. -/
structure LastEnd where
  kind : LastEndKind
  cause : Cause
  number : Nat
  time : Word32
  deriving DecidableEq, Repr, Inhabited

/-- The grade button record (R7). -/
structure Press where
  grade : Grade
  time : Word32
  deriving DecidableEq, Repr, Inhabited

/-- A price set: a version and the ten prices by level and grade (R77). -/
structure PriceSet where
  version : Nat
  level1 : Five Nat
  level2 : Five Nat
  deriving DecidableEq, Repr, Inhabited

/-- The price of a level and grade. -/
def PriceSet.price (p : PriceSet) (l : Level) (g : Grade) : Nat :=
  match l with
  | .level1 => p.level1.get g
  | .level2 => p.level2.get g

/-- The place of a price set in retention memory: its present flag, and the version and prices held there, which stand when the set becomes
absent (R77, R86). -/
structure SetArea where
  present : Bool
  set : PriceSet
  deriving DecidableEq, Repr, Inhabited

/-- The price set of a place, where it is present (R77). -/
def SetArea.held (a : SetArea) : Option PriceSet := if a.present then some a.set else none

/-- A place whose set becomes absent: the present flag is cleared, the version and the prices stand (R86). -/
def SetArea.cleared (a : SetArea) : SetArea := { a with present := false }

/-- The pending price set with its application marks (R77). -/
structure PendingSet where
  prices : PriceSet
  marks : Sides Bool
  deriving DecidableEq, Repr, Inhabited

/-- The grade totals of one grade (R29). -/
structure GradeTotal where
  volume : Nat
  amount : Nat
  deriving DecidableEq, Repr, Inhabited

/-- The retained values of one fueling point (file 08, RETENTION MEMORY). -/
structure RetSide where
  sale : Sale
  list : List Sale
  counter : Nat
  locked : Bool
  lockCause : Option Cause
  grades : Five GradeTotal
  deriving DecidableEq, Repr, Inhabited

/-- The retained values of one meter (R41). -/
structure RetMeter where
  total : Nat
  unassigned : Nat
  deriving DecidableEq, Repr, Inhabited

/-- Retention memory (file 08, RETENTION MEMORY). -/
structure Retention where
  intact : Bool
  totalsInvalid : Bool
  wakeTime : Word32
  sides : Sides RetSide
  meters : Sides (Three RetMeter)
  appliedArea : Sides SetArea
  pendingArea : SetArea
  marks : Sides Bool
  deriving DecidableEq, Repr, Inhabited

/-- The applied price set of each side, where it is present (R77). -/
def Retention.applied (r : Retention) : Sides (Option PriceSet) := ⟨r.appliedArea.a.held, r.appliedArea.b.held⟩

/-- The pending price set with its marks, where it is present (R77). -/
def Retention.pendingSet (r : Retention) : Option PendingSet := r.pendingArea.held.map (fun p => ⟨p, r.marks⟩)

/-- Retention memory with no price set present and both marks clear (R169 step 3). -/
def Retention.setsCleared (r : Retention) : Retention :=
  { r with appliedArea := ⟨r.appliedArea.a.cleared, r.appliedArea.b.cleared⟩, pendingArea := r.pendingArea.cleared, marks := ⟨false, false⟩ }

/-- The retained values of a side after retention initialization (R169 step 1). -/
def RetSide.initial (d : Side) : RetSide :=
  { sale := Sale.empty d, list := [], counter := 0, locked := false, lockCause := none, grades := Five.ofFun (fun _ => ⟨0, 0⟩) }

/-- The values of a current sale that its owner's rules write together (file 01, THE SALE RECORD; R170): what the opening gives it, what the
fixing of the grade gives it, the figures that pulses change, and the others each for itself. -/
inductive SalePart where
  | status | number | opening | grade | figures | endTime | endCause | firstCause | degraded
  deriving DecidableEq, Repr, Inhabited

/-- Every part of a current sale: an opening writes them all (R13). -/
def allSaleParts : List SalePart := [.status, .number, .opening, .grade, .figures, .endTime, .endCause, .firstCause, .degraded]

/-- The values of a side that one owner's write changes together (R170). -/
inductive SidePart where
  | sale (p : SalePart) | list | newEntry | counter | lock | grade (g : Grade)
  deriving DecidableEq, Repr, Inhabited

/-- The values of a price set that are written one after another (R86). -/
inductive SetPart where
  | prices | version | present
  deriving DecidableEq, Repr, Inhabited

/-- The parts of retention memory, as they are written and read back (file 08, RETENTION MEMORY; R86, R170; log 7). -/
inductive RetPart where
  | intact | totalsInvalid | wakeTime | side (d : Side) (p : SidePart) | total (m : Meter) | unassigned (m : Meter)
  | applied (d : Side) (p : SetPart) | pending (p : SetPart) | mark (d : Side)
  deriving DecidableEq, Repr, Inhabited

/-- A current sale with one part as its read-back found it (R86). -/
def Sale.found (y x : Sale) : SalePart → Sale
  | .status => { y with status := x.status }
  | .number => { y with number := x.number }
  | .opening => { y with side := x.side, hose := x.hose, origin := x.origin, level := x.level, presetKind := x.presetKind,
                         preset := x.preset, clamped := x.clamped }
  | .grade => { y with grade := x.grade, price := x.price, version := x.version, closeTarget := x.closeTarget, drawn := x.drawn,
                       startTime := x.startTime }
  | .figures => { y with volume := x.volume, amount := x.amount, products := x.products, capped := x.capped }
  | .endTime => { y with endTime := x.endTime }
  | .endCause => { y with endCause := x.endCause }
  | .firstCause => { y with firstCause := x.firstCause }
  | .degraded => { y with degraded := x.degraded }

/-- A side's values with one part as its read-back found it (R86). -/
def RetSide.found (r x : RetSide) : SidePart → RetSide
  | .sale p => { r with sale := r.sale.found x.sale p }
  | .list => { r with list := x.list }
  | .newEntry => { r with list := r.list.dropLast ++ [x.list.getLast?.getD x.sale] }
  | .counter => { r with counter := x.counter }
  | .lock => { r with locked := x.locked, lockCause := x.lockCause }
  | .grade g => { r with grades := r.grades.set g (x.grades.get g) }

/-- The place of a price set with one part as its read-back found it (R86). -/
def SetArea.found (a x : SetArea) : SetPart → SetArea
  | .prices => { a with set := { a.set with level1 := x.set.level1, level2 := x.set.level2 } }
  | .version => { a with set := { a.set with version := x.set.version } }
  | .present => { a with present := x.present }

/-- The retained values of a meter with the total, or the unassigned volume, as its read-back found it (R86). -/
def Retention.foundMeter (r : Retention) (m : Meter) (v : RetMeter) : Retention :=
  { r with meters := r.meters.set m.side ((r.meters.get m.side).set m.product v) }

/-- Retention memory with one part as its read-back found it (R86). -/
def Retention.found (r x : Retention) : RetPart → Retention
  | .intact => { r with intact := x.intact }
  | .totalsInvalid => { r with totalsInvalid := x.totalsInvalid }
  | .wakeTime => { r with wakeTime := x.wakeTime }
  | .side d p => { r with sides := r.sides.set d ((r.sides.get d).found (x.sides.get d) p) }
  | .total m =>
    r.foundMeter m { (r.meters.get m.side).get m.product with total := ((x.meters.get m.side).get m.product).total }
  | .unassigned m =>
    r.foundMeter m { (r.meters.get m.side).get m.product with unassigned := ((x.meters.get m.side).get m.product).unassigned }
  | .applied d p => { r with appliedArea := r.appliedArea.set d ((r.appliedArea.get d).found (x.appliedArea.get d) p) }
  | .pending p => { r with pendingArea := r.pendingArea.found x.pendingArea p }
  | .mark d => { r with marks := r.marks.set d (x.marks.get d) }

/-- The parts of a price set that a new set writes, in the order of R86. -/
def setParts : List SetPart := [.prices, .version, .present]

/-- The grade totals of a side. -/
def gradeParts : List SidePart := [.grade .g1, .grade .g2, .grade .g3, .grade .g4, .grade .g5]

/-- The retained values of a side that the initialization writes (R169 step 1). -/
def initialParts : List SidePart := allSaleParts.map .sale ++ [.list, .counter, .lock] ++ gradeParts

/-- The parts of the six meters. -/
def meterParts : List RetPart :=
  [⟨.a, .p1⟩, ⟨.a, .p2⟩, ⟨.a, .p3⟩, ⟨.b, .p1⟩, ⟨.b, .p2⟩, ⟨.b, .p3⟩].flatMap (fun m : Meter => [.unassigned m, .total m])

/-- The parts of retention memory that its initialization writes, in the order of R169: of the price sets the present flags and the marks. -/
def initParts : List RetPart :=
  initialParts.map (.side .a) ++ initialParts.map (.side .b) ++ meterParts
    ++ [.applied .a .present, .applied .b .present, .pending .present, .mark .a, .mark .b, .wakeTime, .totalsInvalid, .intact]

/-- Where an order in flight stands: its slot, the take number of its take (R186), and when it was taken (R196, done time). -/
structure OrderRef where
  slot : Nat
  take : Nat
  time : Word32
  deriving DecidableEq, Repr, Inhabited

/-- Attribution of a meter (R36). -/
inductive Attribution where
  | sale | unassigned
  deriving DecidableEq, Repr, Inhabited

/-- The four bands of a meter (R43). -/
inductive Band where
  | b1 | b2 | b3 | b4
  deriving DecidableEq, Repr, Inhabited

/-- A meter's calibration as the metering unit uses it: the band limits, and the corrections in ppm after their limits (R38). -/
structure Calibration where
  b1 : Nat
  b2 : Nat
  b3 : Nat
  c1 : Int
  c2 : Int
  c3 : Int
  c4 : Int
  deriving DecidableEq, Repr, Inhabited

/-- The correction of a band (R38). -/
def Calibration.correction (x : Calibration) : Band → Int
  | .b1 => x.c1
  | .b2 => x.c2
  | .b3 => x.c3
  | .b4 => x.c4

/-- Drive state of a valve (file 03, VALVE DRIVE). -/
inductive ValveState where
  | closed | pullIn | opened | openSlow
  deriving DecidableEq, Repr, Inhabited

/-- State of a motor (file 03, MOTORS). -/
inductive MotorState where
  | off | queued | starting | running | runOn | fault
  deriving DecidableEq, Repr, Inhabited

/-- State of a display head (file 05, HEAD STATES). -/
inductive HeadState where
  | absent | probing | heating | ready | failed
  deriving DecidableEq, Repr, Inhabited

/-- Reason of a head's last failure (R92). -/
inductive FailReason where
  | noAck | stretch | check | stale | segFault | probe
  deriving DecidableEq, Repr, Inhabited

/-- Kind of a frame-queue entry (R100). -/
inductive FrameKind where
  | zero | sale | board | message | refresh | probe
  deriving DecidableEq, Repr, Inhabited

/-- A field of a SHOW frame (R98). -/
inductive Field where
  | sale | message | board
  deriving DecidableEq, Repr, Inhabited

/-- One transfer on the display bus to one head: a SHOW of a field, or a STATUS read (R98). -/
inductive Transfer where
  | shows (field : Field) | status
  deriving DecidableEq, Repr, Inhabited

/-- The two general-call frames (R98). -/
inductive CallKind where
  | test | blank
  deriving DecidableEq, Repr, Inhabited

/-- State of the display bus (R92). -/
inductive BusState where
  | free | own | other | clear
  deriving DecidableEq, Repr, Inhabited

/-- The step of R112 that the display bus controller has reached in the DISPLAY phase of a wake. -/
inductive DisplayStep where
  | idle | settling | probing | testing | blanking
  deriving DecidableEq, Repr, Inhabited

/-- State of a reader (file 06, READER STATES). -/
inductive ReaderState where
  | off | warming | ready | lost | failed | tampered | supplyFault
  deriving DecidableEq, Repr, Inhabited

/-- Last supply-off cause of a reader (R117). -/
inductive OffCause where
  | misses | warmUpLimit | tamper | overcurrent | notFitted | standby | powerFail | deviceReset
  deriving DecidableEq, Repr, Inhabited

/-- The controller's frame kinds on a reader link (R121). -/
inductive LinkKind where
  | ask | stay | give
  deriving DecidableEq, Repr, Inhabited

/-- The reader's reply kinds (R121). -/
inductive ReplyKind where
  | none | take | got | wait | reject
  deriving DecidableEq, Repr, Inhabited

/-- Where a reader link's frame stands (R122). -/
inductive LinkPhase where
  | idle | sending | awaiting
  deriving DecidableEq, Repr, Inhabited

/-- Device power states (R151). -/
inductive PowerState where
  | standby | waking | active | halted | shuttingDown | powerFail
  deriving DecidableEq, Repr, Inhabited

/-- Wake phases (R151). -/
inductive WakePhase where
  | none | clock | store | retention | display | readers | drives
  deriving DecidableEq, Repr, Inhabited

/-- Clock source (R151). -/
inductive ClockSource where
  | crystal | internal
  deriving DecidableEq, Repr, Inhabited

/-- Clock failure reason (R151). -/
inductive ClockFail where
  | noCrystal | noLock
  deriving DecidableEq, Repr, Inhabited

/-- Cause of the last wake (R151). -/
inductive WakeCause where
  | mains | warningRelease | resetRegister | resetPin | wakeTime | wakeOrder | wakePin
  deriving DecidableEq, Repr, Inhabited

/-- Halt codes (R145). -/
inductive HaltCode where
  | flowAfterClose | secondFault | bothSides | retentionFault | calibrationMismatch
  deriving DecidableEq, Repr, Inhabited

/-- A pair of the halt record (R145). -/
structure CausePair where
  side : Side
  cause : Cause
  deriving DecidableEq, Repr, Inhabited

/-- A halt code with its pairs and flow figure, as it is reported and held (R142, R143). -/
structure HaltReport where
  code : HaltCode
  first : Option CausePair
  second : Option CausePair
  flow : Nat
  deriving DecidableEq, Repr, Inhabited

/-- Kind of a log entry (R180). -/
inductive LogKind where
  | calibration | setting | totalsInit | logCleared
  deriving DecidableEq, Repr, Inhabited

/-- Result codes (R192). -/
inductive ResultCode where
  | ok | okClamped | badOrder | wrongState | notActive | unavailable | stackFull | readerNotReady | notFound | superseded
  | readerDown | rejected | switchOff | logFull | stillFlowing | nozzleOut | causePresent
  deriving DecidableEq, Repr, Inhabited

/-- Reasons that stand in a result detail (file 11, CODE TABLES). -/
inductive Reason where
  | halted | locked | display | metrology | noPrices | nothingToStop | alreadyEnding | reload | storeWrite | notWritten
  | notShown | replaced | saleOpened | notFitted | eventNumber | wakeTime | gradeMask | presetValue | metrologyAbsent | listFull
  deriving DecidableEq, Repr, Inhabited

/-- Reason of the last ignored post (R187, R189). -/
inductive IgnoreReason where
  | range | notPosted | queued | withdrawn
  deriving DecidableEq, Repr, Inhabited

/-- The sixteen attention flags, in bit order (file 11, REGISTERS). -/
inductive Attn where
  | fpA | fpB | saleA | saleB | mailA | mailB | readerA | readerB | order | price | motor | display | power | metrology | halt | call
  deriving DecidableEq, Repr, Inhabited

/-- The order kinds (file 11, ORDER SLOTS). -/
inductive OrderKind where
  | authorize | deauthorize | stop | pause | resume | settle | clearLock | clearHalt | priceSet | showMessage | readerSend
  | readerRestart | motorClear | standby | wake | setClock | calibrate | setSettings | initTotals | clearLog
  deriving DecidableEq, Repr, Inhabited

/-- The prerequisites of fueling, in the order of R1. -/
inductive Prereq where
  | active | display | metrology | noPrices
  deriving DecidableEq, Repr, Inhabited

end Sys2Proof.Machine
end

