-- ==== Sys2Proof/Config.lean ====
section
/-! DEFINITION. The free values: what the spec leaves open. They have no body, so nothing can be proved of their value. -/

namespace Sys2Proof

/-- Retention memory after its supply fell below the hold voltage: its values "may no longer be trusted" (R168; log 8).
The argument is the state's counter of free values. -/
opaque Config.lostRetention : Nat → Machine.Retention

/-- The real-time counter after the retention supply fell below the hold voltage (R168; log 8). -/
opaque Config.lostCounter : Nat → Word32

/-- Whether the write of a part of retention memory fails its read-back (R170; log 7).
The first argument counts the events that have written retention memory, so each event is judged anew. -/
opaque Config.writeFails : Nat → Machine.RetPart → Bool

/-- What the read-back of a write that failed finds: the values in retention memory "stand as the read-back found them" (R86; log 7).
The argument counts the events that have written retention memory; only the parts that failed take their value from it. -/
opaque Config.readBackFound : Nat → Machine.Retention

/-- The preset value of an authorization record of preset kind NONE: R9 has the order's value not read, and no rule gives the record's
(log 53). The argument is the state's counter of free values. -/
opaque Config.unreadPreset : Nat → Word32

/-- Whether the tamper input of a TAMPERED reader that is restarted reads asserted afresh, within its debounce (R136; log 54). The first
argument is the state's counter of free values. -/
opaque Config.tamperAfresh : Nat → Side → Bool

/-- Whether the result detail NOZZLE_OUT names hose 1 when both hoses of the side are lifted: R150 says "the lifted hose" (log 24). -/
opaque Config.nozzleOutNamesHose1 : Bool

end Sys2Proof
end

