-- ==== Sys2Proof/Machine/State.lean ====
section
/-! DEFINITION. The state of the block as plain data, and the state right after reset. -/

namespace Sys2Proof.Machine

/-- No command of this block stops it: every row of the table has an effect the spec gives. -/
inductive Fault where
  deriving DecidableEq, Repr

/-- The reasons a command can be refused. -/
inductive Refusal where
  /-- Raised by an arm of exec whose command has no meaning yet; safe: nothing is claimed of it. No arm uses it. -/
  | notModelled (mnemonic : String)
  deriving DecidableEq, Repr

/-- A fueling point (file 01) with the metering unit's measures of its side (R49, R51). Its retained values stand in `Retention`. -/
structure FuelPoint where
  state : FpState
  lift1 : Option Word32
  lift2 : Option Word32
  calling : Option Hose
  refused : Option Hose
  button : Option Press
  pressTimer : Timer
  pressSelects : Bool
  auth : Option AuthRecord
  lastEnd : Option LastEnd
  expiry : Timer
  start : Timer
  noFlow : Timer
  pause : Timer
  settle : Timer
  gate1 : Bool
  gate2 : Bool
  gate3 : Bool
  closeReason : Option CloseReason
  limit : Nat
  slowMargin : Nat
  base : Option Nat
  overrun : Nat
  overrunMade : Bool
  flowMade : Bool
  lockFlow : Option Nat
  lockFlowMade : Bool
  saleSerial : Nat
  deriving DecidableEq, Repr, Inhabited

/-- A meter channel (file 02, THE METER CHANNEL). `k` is K in use and `cal` the rest of the calibration in use; a channel without one has
met no working copy since its values were lost (R38, R54; log 55). The two accumulators are held in 64 bits (R39; log 29). -/
structure Channel where
  phase : LevelPair
  position : Int
  pendingRev : Nat
  illegal : Nat
  attr : Attribution
  pulserMade : Bool
  saleAcc : Nat
  saleV : Nat
  unAcc : Nat
  unV : Nat
  tally : Nat
  w0 : Nat
  w1 : Nat
  w2 : Nat
  w3 : Nat
  rate : Nat
  band : Band
  k : Nat
  cal : Option Calibration
  quietAny : Timer
  quietUn : Timer
  deriving DecidableEq, Repr, Inhabited

/-- A valve drive (file 03, VALVE DRIVE). -/
structure ValveDrive where
  state : ValveState
  commanded : Nat
  applied : Nat
  pullIn : Nat
  deriving DecidableEq, Repr, Inhabited

/-- A blend loop (file 03, BLEND LOOP). -/
structure BlendLoop where
  share : Nat
  dutyH : Nat
  dutyL : Nat
  lastError : Int
  count : Nat
  timer : Timer
  setUp : Bool
  deriving DecidableEq, Repr, Inhabited

/-- The valve and blend driver's part for one side. -/
structure ValveSide where
  valves : Three ValveDrive
  slow : Bool
  blend : BlendLoop
  deriving DecidableEq, Repr, Inhabited

/-- A motor record (file 03, MOTORS). -/
structure MotorRec where
  state : MotorState
  demand : Sides Bool
  trip : Bool
  faultTime : Option Word32
  timer : Timer
  deriving DecidableEq, Repr, Inhabited

/-- The motor sequencer: three records and the start queue (R69). -/
structure Motors where
  recs : Three MotorRec
  queue : List Product
  deriving DecidableEq, Repr, Inhabited

/-- The price unit's part outside retention memory: the slot of the pending set's order (R77). -/
structure PriceUnit where
  order : Option OrderRef
  deriving DecidableEq, Repr, Inhabited

/-- A head record (R92) with the field bytes the head last acknowledged (R99) and its timers. -/
structure Head where
  addr : Nat
  source : Option Role
  state : HeadState
  fails : Nat
  reason : Option FailReason
  lastDone : Word32
  sale : List Byte
  message : List Byte
  board : List Byte
  refresh : Timer
  probe : Timer
  stale : Timer
  spacing : Timer
  deriving DecidableEq, Repr, Inhabited

/-- An entry of the frame queue (R100). -/
structure Entry where
  role : Role
  kind : FrameKind
  age : Nat
  retry : Bool
  deriving DecidableEq, Repr, Inhabited

/-- The controller's frame: its entry, the transfer on the bus with its bytes, and the transfers that follow in a REFRESH (R104).
`dropped` tells that its outcome is dropped (R101); `serial` names the sale a ZERO frame was formed for (R109). -/
structure Flight where
  entry : Entry
  now : Transfer
  bytes : List Byte
  rest : List Transfer
  onBus : Bool
  dropped : Bool
  serial : Option Nat
  deriving DecidableEq, Repr, Inhabited

/-- A general-call frame asked for, or on the bus (R98). -/
structure GeneralCall where
  kind : CallKind
  onBus : Bool
  deriving DecidableEq, Repr, Inhabited

/-- A side's message line (R110, R111). -/
structure MessageLine where
  text : List Byte
  order : Option OrderRef
  duration : Nat
  timer : Timer
  deriving DecidableEq, Repr, Inhabited

/-- The display bus controller (file 05). `wire` holds the bytes of the controller's last frame as it goes on the bus, from its address
byte on: what the bus shows of the controller (R94, R98; log 36). -/
structure Display where
  heads : Eight Head
  queue : List Entry
  nextAge : Nat
  flight : Option Flight
  call : Option GeneralCall
  bus : BusState
  clears : Nat
  awaitHigh : Bool
  abandoned : Bool
  rail : Bool
  settle : Timer
  segTest : Timer
  step : DisplayStep
  wire : List Byte
  lines : Sides MessageLine
  deriving DecidableEq, Repr, Inhabited

/-- A mail cell (R128). -/
structure MailCell where
  rev : Nat
  stateWord : Word16
  number : Nat
  length : Nat
  payload : List Byte
  deriving DecidableEq, Repr, Inhabited

/-- An order of a send list (R129). -/
structure SendOrder where
  ref : OrderRef
  payload : List Byte
  rejects : Nat
  gives : Nat
  deriving DecidableEq, Repr, Inhabited

/-- The frame a reader link unit has sent, and its bytes as they go on the link, from the marker byte to the CRC (R121). -/
structure LinkFrame where
  kind : LinkKind
  accept : Bool
  payload : List Byte
  wire : List Byte
  deriving DecidableEq, Repr, Inhabited

/-- A reader link unit (file 06). -/
structure Reader where
  state : ReaderState
  fitted : Bool
  cause : Option OffCause
  miss : Nat
  cycles : Nat
  nextMail : Nat
  sends : List SendOrder
  waitHold : Bool
  acceptNext : Bool
  tamper : Bool
  overcurrent : Bool
  tamperReleased : Bool
  supplyReleased : Bool
  changed : Word32
  poll : Timer
  response : Timer
  warmUp : Timer
  powerOff : Timer
  link : LinkPhase
  frame : Option LinkFrame
  held : Bool
  cells : List MailCell
  deriving DecidableEq, Repr, Inhabited

/-- The fault and halt unit (file 07). -/
structure HaltUnit where
  code : Option HaltCode
  time : Word32
  first : Option CausePair
  second : Option CausePair
  flow : Nat
  reload : Bool
  halted : Bool
  held : Option HaltReport
  deriving DecidableEq, Repr, Inhabited

/-- A log entry (R180). -/
structure LogEntry where
  event : Nat
  kind : Nat
  param : Nat
  old : Nat
  new : Nat
  oldCheck : Nat
  newCheck : Nat
  time : Nat
  deriving DecidableEq, Repr, Inhabited

/-- The parameter block a store-writing order changed (R181 part 2). -/
inductive ParamBlock where
  | none | meter (m : Meter) | settings
  deriving DecidableEq, Repr, Inhabited

/-- An order of the store-write list (R181). -/
structure StoreOrder where
  ref : OrderRef
  block : ParamBlock
  wholeLog : Bool
  event : Nat
  place : Nat
  deriving DecidableEq, Repr, Inhabited

/-- A page of the calibration store: its address and bytes (file 09). -/
structure StorePage where
  addr : Nat
  bytes : List Byte
  deriving DecidableEq, Repr, Inhabited

/-- The three parts of a store write (R181). -/
inductive StorePart where
  | log | block | crc
  deriving DecidableEq, Repr, Inhabited

/-- The store write in progress: the part, the page on the store and the pages of the part that follow (R181). -/
structure StoreWrite where
  part : StorePart
  page : StorePage
  rest : List StorePage
  crc : Word16
  deriving DecidableEq, Repr, Inhabited

/-- The metrology store port (file 09). -/
structure StorePort where
  copy : Option Memory
  refCrc : Word16
  rewriteAll : Bool
  absent : Bool
  fault : Bool
  switchOn : Bool
  logFull : Bool
  mirror : List LogEntry
  list : List StoreOrder
  write : Option StoreWrite
  check : Timer
  reloadDue : Bool
  reloading : Bool
  deriving DecidableEq, Repr, Inhabited

/-- The power sequencer (file 08). `clock` is the clock source as it is published (R151); `pll` tells that the main clock runs from the PLL
(R154, R155; log 52). -/
structure Power where
  mains : Bool
  state : PowerState
  phase : WakePhase
  clock : ClockSource
  clockFail : Option ClockFail
  pll : Bool
  lastWake : WakeCause
  degraded : Bool
  totalsInvalid : Bool
  drives : Bool
  osc : Bool
  cold : Bool
  warning : Bool
  hold : Timer
  resetHold : Timer
  resetMax : Timer
  devReset : Bool
  resetPending : Bool
  crystalWatch : Timer
  lockWait : Timer
  pllRetried : Bool
  standbyOrder : Option OrderRef
  wakeRequest : Option WakeCause
  blanked : Bool
  decoding : Bool
  deriving DecidableEq, Repr, Inhabited

/-- The last ignored post (R187). -/
structure IgnoredPost where
  value : Nat
  reason : IgnoreReason
  time : Word32
  deriving DecidableEq, Repr, Inhabited

/-- The host port: registers, post queue, take numbers (R183, R186, R187). -/
structure Port where
  attn : Word16
  enable : Word16
  awake : Bool
  asleep : Bool
  posts : List Nat
  takes : List Nat
  lastIgnored : Option IgnoredPost
  hsdo : Option (List Byte)
  deriving DecidableEq, Repr, Inhabited

/-- The records that carry a revision word, the mail cells apart (R185). -/
inductive RecordId where
  | device | fpA | fpB | table | price | meter (m : Meter) | haltRec | readerA | readerB
  deriving DecidableEq, Repr, Inhabited

/-- The revision words (R185), and what the close of an event works from: `force` lists the records to be rewritten in it though no field
of theirs changes, `wrote` the parts of retention memory it has written (R170), and `reads` counts the events whose writes were read back
(log 7, log 35). -/
structure Revisions where
  device : Nat
  fp : Sides Nat
  table : Nat
  price : Nat
  meters : Sides (Three Nat)
  halt : Nat
  readers : Sides Nat
  mirror : List Nat
  force : List RecordId
  wrote : List RetPart
  reads : Nat
  deriving DecidableEq, Repr, Inhabited

/-- The state of the block. INVENTORY.md lists every field with the rule that names it. `readBack` is the model's own: where it is absent,
as after reset, the free value decides which writes to retention memory fail their read-back (log 7). -/
structure State where
  pending : List Instr
  readBack : Option Bool
  free : Nat
  pw : Power
  rtc : Word32
  ret : Retention
  port : Port
  mem : Memory
  rev : Revisions
  fp : Sides FuelPoint
  met : Sides (Three Channel)
  vlv : Sides ValveSide
  mot : Motors
  price : PriceUnit
  disp : Display
  rdr : Sides Reader
  halt : HaltUnit
  store : StorePort
  deriving DecidableEq, Repr, Inhabited

/-- A fueling point after mains power-up or device reset, LOCKED or UNAVAILABLE (R2), both hoses hung (R5). -/
def FuelPoint.powerUp (locked : Bool) : FuelPoint :=
  { state := if locked then .locked else .unavailable, lift1 := none, lift2 := none, calling := none, refused := none,
    button := none, pressTimer := none, pressSelects := false, auth := none, lastEnd := none, expiry := none, start := none,
    noFlow := none, pause := none, settle := none, gate1 := false, gate2 := false, gate3 := false, closeReason := none,
    limit := 20, slowMargin := 40, base := none, overrun := 0, overrunMade := false, flowMade := false, lockFlow := none,
    lockFlowMade := false, saleSerial := 0 }

/-- A channel that has not begun decoding (R31, R54). -/
def Channel.powerUp : Channel :=
  { phase := ⟨false, false⟩, position := 0, pendingRev := 0, illegal := 0, attr := .unassigned, pulserMade := false,
    saleAcc := 0, saleV := 0, unAcc := 0, unV := 0, tally := 0, w0 := 0, w1 := 0, w2 := 0, w3 := 0, rate := 0, band := .b1,
    k := 0, cal := none, quietAny := none, quietUn := none }

/-- A valve that is shut (R55). -/
def ValveDrive.shut : ValveDrive := { state := .closed, commanded := 0, applied := 0, pullIn := 0 }

/-- A blend loop after mains power-up or device reset (R55). DESIGN CHOICE: its share is then 0 (log 4). -/
def BlendLoop.powerUp : BlendLoop :=
  { share := 0, dutyH := 0, dutyL := 0, lastError := 0, count := 0, timer := none, setUp := false }

/-- The driver's part of a side after mains power-up or device reset (R55). -/
def ValveSide.powerUp : ValveSide :=
  { valves := ⟨.shut, .shut, .shut⟩, slow := false, blend := .powerUp }

/-- A motor after mains power-up (R66). -/
def MotorRec.powerUp : MotorRec :=
  { state := .off, demand := ⟨false, false⟩, trip := false, faultTime := none, timer := none }

/-- The motor sequencer after mains power-up (R66). -/
def Motors.powerUp : Motors := { recs := ⟨.powerUp, .powerUp, .powerUp⟩, queue := [] }

/-- A head record as R92 writes it at mains power-up and at the start of a wake; the time of the last completed frame is given. -/
def Head.unconfigured (lastDone : Word32) : Head :=
  { addr := 0, source := none, state := .absent, fails := 0, reason := none, lastDone := lastDone, sale := [], message := [],
    board := [], refresh := none, probe := none, stale := none, spacing := none }

/-- Sixteen spaces: a cleared message line (R110, R111). -/
def blankText : List Byte := List.replicate 16 0x20

/-- A cleared message line that holds no order (R111). -/
def MessageLine.cleared : MessageLine := { text := blankText, order := none, duration := 0, timer := none }

/-- The display bus controller after mains power-up (R92). -/
def Display.powerUp : Display :=
  { heads := Eight.ofFun (fun _ => Head.unconfigured 0), queue := [], nextAge := 0, flight := none, call := none, bus := .free,
    clears := 0, awaitHigh := false, abandoned := false, rail := false, settle := none, segTest := none, step := .idle,
    wire := [], lines := ⟨.cleared, .cleared⟩ }

/-- A zeroed mail cell, whose state word reads FREE (R117, R128). -/
def MailCell.zeroed : MailCell := { rev := 0, stateWord := 0, number := 0, length := 0, payload := [] }

/-- A reader link unit after mains power-up or device reset (R117). -/
def Reader.powerUp : Reader :=
  { state := .off, fitted := false, cause := none, miss := 0, cycles := 0, nextMail := 1, sends := [], waitHold := false,
    acceptNext := false, tamper := false, overcurrent := false, tamperReleased := false, supplyReleased := false, changed := 0,
    poll := none, response := none, warmUp := none, powerOff := none, link := .idle, frame := none, held := false,
    cells := List.replicate 8 .zeroed }

/-- The fault and halt unit after mains power-up (R145). -/
def HaltUnit.powerUp : HaltUnit :=
  { code := none, time := 0, first := none, second := none, flow := 0, reload := false, halted := false, held := none }

/-- The metrology store port after mains power-up (R171). -/
def StorePort.powerUp : StorePort :=
  { copy := none, refCrc := 0, rewriteAll := false, absent := false, fault := false, switchOn := false, logFull := false,
    mirror := [], list := [], write := none, check := none, reloadDue := false, reloading := false }

/-- The power sequencer while mains is absent: everything it held is lost (R152). -/
def Power.lost : Power :=
  { mains := false, state := .powerFail, phase := .none, clock := .internal, clockFail := none, pll := false, lastWake := .mains,
    degraded := false, totalsInvalid := false, drives := false, osc := false, cold := true, warning := true, hold := none,
    resetHold := none, resetMax := none, devReset := false, resetPending := false, crystalWatch := none, lockWait := none,
    pllRetried := false, standbyOrder := none, wakeRequest := none, blanked := false, decoding := false }

/-- The power sequencer at the first event of the wake that follows a mains power-up (R152, R153, R154). -/
def Power.powerUp : Power :=
  { Power.lost with mains := true, state := .waking, phase := .clock, osc := true, cold := false, warning := false,
                    crystalWatch := some 20 }

/-- The host port after it is zeroed at mains power-up (R183, R195); the wake's first event has set POWER, bit 12 (R153, R193). -/
def Port.powerUp : Port :=
  { attn := 0x1000, enable := 0, awake := false, asleep := false, posts := [], takes := List.replicate 16 0, lastIgnored := none,
    hsdo := none }

/-- The revision words after exchange memory is zeroed and every record but the log mirror is rewritten once (R185, R195). -/
def Revisions.powerUp : Revisions :=
  { device := 2, fp := ⟨2, 2⟩, table := 2, price := 2, meters := ⟨⟨2, 2, 2⟩, ⟨2, 2, 2⟩⟩, halt := 2, readers := ⟨2, 2⟩,
    mirror := List.replicate 32 0, force := [], wrote := [], reads := 0 }

/-- Retention memory that has never been initialized: the retention-intact flag is clear (log 3). -/
def Retention.never : Retention :=
  { intact := false, totalsInvalid := false, wakeTime := 0, sides := ⟨RetSide.initial .a, RetSide.initial .b⟩,
    meters := ⟨⟨⟨0, 0⟩, ⟨0, 0⟩, ⟨0, 0⟩⟩, ⟨⟨0, 0⟩, ⟨0, 0⟩, ⟨0, 0⟩⟩⟩, appliedArea := ⟨⟨false, default⟩, ⟨false, default⟩⟩,
    pendingArea := ⟨false, default⟩, marks := ⟨false, false⟩ }

/-- The machine right after reset: the power-good hold of a mains power-up has just ended, exchange memory is zeroed and its
records are rewritten, and the wake stands at its CLOCK phase (R152, R153, R195; log 3). -/
def State.reset : State :=
  { pending := [], readBack := none, free := 0, pw := .powerUp, rtc := 0, ret := .never, port := .powerUp, mem := [],
    rev := .powerUp, fp := ⟨.powerUp false, .powerUp false⟩,
    met := ⟨⟨.powerUp, .powerUp, .powerUp⟩, ⟨.powerUp, .powerUp, .powerUp⟩⟩, vlv := ⟨.powerUp, .powerUp⟩, mot := .powerUp,
    price := ⟨none⟩, disp := .powerUp, rdr := ⟨.powerUp, .powerUp⟩, halt := .powerUp, store := .powerUp }

end Sys2Proof.Machine
end

