-- ==== Sys2Proof/Machine/Update.lean ====
section
/-! DEFINITION. The named updates of State: one part at a time. Laws/State.lean says of each what it leaves alone. -/

namespace Sys2Proof.Machine

/-- Changes a fueling point. -/
def State.updFp (s : State) (d : Side) (f : FuelPoint → FuelPoint) : State := { s with fp := s.fp.set d (f (s.fp.get d)) }

/-- Records the parts of retention memory that are written: each is read back in the event (R170). -/
def Revisions.wroteTo (r : Revisions) (ps : List RetPart) : Revisions := { r with wrote := r.wrote ++ ps }

/-- Changes the retained values of a side: the parts `ps` are written. -/
def State.updRetSide (s : State) (d : Side) (ps : List SidePart) (f : RetSide → RetSide) : State :=
  { s with ret := { s.ret with sides := s.ret.sides.set d (f (s.ret.sides.get d)) }, rev := s.rev.wroteTo (ps.map (RetPart.side d)) }

/-- Changes the current sale of a side (held in retention memory, file 01 THE SALE RECORD): its parts `ps` are written. -/
def State.updSale (s : State) (d : Side) (ps : List SalePart) (f : Sale → Sale) : State :=
  s.updRetSide d (ps.map .sale) (fun r => { r with sale := f r.sale })

/-- Changes a meter channel. -/
def State.updMeter (s : State) (m : Meter) (f : Channel → Channel) : State :=
  { s with met := s.met.set m.side ((s.met.get m.side).set m.product (f ((s.met.get m.side).get m.product))) }

/-- Changes the retained values of a meter: the parts `ps` are written. -/
def State.updRetMeter (s : State) (m : Meter) (ps : List RetPart) (f : RetMeter → RetMeter) : State :=
  { s with ret := { s.ret with
      meters := s.ret.meters.set m.side ((s.ret.meters.get m.side).set m.product (f ((s.ret.meters.get m.side).get m.product))) }
           rev := s.rev.wroteTo ps }

/-- Changes the driver's part of a side. -/
def State.updValveSide (s : State) (d : Side) (f : ValveSide → ValveSide) : State :=
  { s with vlv := s.vlv.set d (f (s.vlv.get d)) }

/-- Changes a valve drive. -/
def State.updValve (s : State) (v : Meter) (f : ValveDrive → ValveDrive) : State :=
  s.updValveSide v.side (fun x => { x with valves := x.valves.set v.product (f (x.valves.get v.product)) })

/-- Changes a blend loop. -/
def State.updBlend (s : State) (d : Side) (f : BlendLoop → BlendLoop) : State :=
  s.updValveSide d (fun x => { x with blend := f x.blend })

/-- Changes a motor record. -/
def State.updMotor (s : State) (m : Product) (f : MotorRec → MotorRec) : State :=
  { s with mot := { s.mot with recs := s.mot.recs.set m (f (s.mot.recs.get m)) } }

/-- Changes the start queue. -/
def State.setStartQueue (s : State) (q : List Product) : State := { s with mot := { s.mot with queue := q } }

/-- Changes the display bus controller. -/
def State.updDisp (s : State) (f : Display → Display) : State := { s with disp := f s.disp }

/-- Changes a head record. -/
def State.updHead (s : State) (r : Role) (f : Head → Head) : State :=
  s.updDisp (fun x => { x with heads := x.heads.set r (f (x.heads.get r)) })

/-- Changes a message line. -/
def State.updLine (s : State) (d : Side) (f : MessageLine → MessageLine) : State :=
  s.updDisp (fun x => { x with lines := x.lines.set d (f (x.lines.get d)) })

/-- Changes a reader link unit. -/
def State.updReader (s : State) (d : Side) (f : Reader → Reader) : State := { s with rdr := s.rdr.set d (f (s.rdr.get d)) }

/-- Changes the fault and halt unit. -/
def State.updHalt (s : State) (f : HaltUnit → HaltUnit) : State := { s with halt := f s.halt }

/-- Changes the metrology store port. -/
def State.updStore (s : State) (f : StorePort → StorePort) : State := { s with store := f s.store }

/-- Changes the power sequencer. -/
def State.updPower (s : State) (f : Power → Power) : State := { s with pw := f s.pw }

/-- Changes the host port. -/
def State.updPort (s : State) (f : Port → Port) : State := { s with port := f s.port }

/-- The current sale of a side. -/
def State.sale (s : State) (d : Side) : Sale := (s.ret.sides.get d).sale

/-- The channel of a meter. -/
def State.meter (s : State) (m : Meter) : Channel := (s.met.get m.side).get m.product

/-- The valve drive of a valve. -/
def State.valve (s : State) (v : Meter) : ValveDrive := (s.vlv.get v.side).valves.get v.product

/-- The record of a motor. -/
def State.motor (s : State) (m : Product) : MotorRec := s.mot.recs.get m

/-- The record of a head. -/
def State.head (s : State) (r : Role) : Head := s.disp.heads.get r

/-- Writes a value to retention's wake time (R153, R159). -/
def State.setWakeTime (s : State) (t : Word32) : State :=
  { s with ret := { s.ret with wakeTime := t }, rev := s.rev.wroteTo [.wakeTime] }

/-- Writes the applied price set of a side: the prices, the version, and the present flag (R81, R86). -/
def State.setApplied (s : State) (d : Side) (p : PriceSet) : State :=
  { s with ret := { s.ret with appliedArea := s.ret.appliedArea.set d ⟨true, p⟩ }, rev := s.rev.wroteTo (setParts.map (.applied d)) }

/-- Writes the pending price set: the prices, the cleared marks, the version, and the present flag (R79, R86). -/
def State.setPending (s : State) (p : PriceSet) : State :=
  { s with ret := { s.ret with pendingArea := ⟨true, p⟩, marks := ⟨false, false⟩ }
           rev := s.rev.wroteTo [.pending .prices, .mark .a, .mark .b, .pending .version, .pending .present] }

/-- Sets the mark of a side that has applied the pending set (R77, R86). -/
def State.setMark (s : State) (d : Side) : State :=
  { s with ret := { s.ret with marks := s.ret.marks.set d true }, rev := s.rev.wroteTo [.mark d] }

/-- Clears the pending price set: its present flag and its marks; its version and prices stand (R82, R86). -/
def State.clearPending (s : State) : State :=
  { s with ret := { s.ret with pendingArea := s.ret.pendingArea.cleared, marks := ⟨false, false⟩ }
           rev := s.rev.wroteTo [.pending .present, .mark .a, .mark .b] }

/-- Holds the slot of the pending set's order, or none (R77). -/
def State.setPriceOrder (s : State) (o : Option OrderRef) : State := { s with price := ⟨o⟩ }

/-- Writes exchange memory from 0x2000 on. -/
def State.setMem (s : State) (m : Memory) : State := { s with mem := m }

/-- Marks a record to be rewritten in the event though no field of it may change (R185; log 35). -/
def State.rewrite (s : State) (r : RecordId) : State := { s with rev := { s.rev with force := r :: s.rev.force } }

end Sys2Proof.Machine
end

