-- ==== Sys2Proof/Machine/Flags.lean ====
section
/-! DEFINITION. The attention flags, the device flags and the ATTN line (file 10, ATTENTION; file 11). -/

namespace Sys2Proof.Machine

/-- The bit of a flag in ATTN_SUMMARY (file 11, REGISTERS). -/
def Attn.index : Attn → Nat
  | .fpA => 0 | .fpB => 1 | .saleA => 2 | .saleB => 3 | .mailA => 4 | .mailB => 5 | .readerA => 6 | .readerB => 7
  | .order => 8 | .price => 9 | .motor => 10 | .display => 11 | .power => 12 | .metrology => 13 | .halt => 14 | .call => 15

/-- The mask of a flag. -/
def Attn.mask (f : Attn) : Word16 := BitVec.ofNat 16 (2 ^ f.index)

/-- Sets a flag in ATTN_SUMMARY whatever ATTN_ENABLE holds; a flag already set stays set (R193). -/
def State.attn (s : State) (f : Attn) : State := s.updPort (fun p => { p with attn := p.attn ||| f.mask })

/-- Sets a flag when a condition holds. -/
def State.attnIf (s : State) (c : Bool) (f : Attn) : State := if c then s.attn f else s

/-- FP_A or FP_B. -/
def fpFlag : Side → Attn
  | .a => .fpA | .b => .fpB

/-- SALE_A or SALE_B. -/
def saleFlag : Side → Attn
  | .a => .saleA | .b => .saleB

/-- MAIL_A or MAIL_B. -/
def mailFlag : Side → Attn
  | .a => .mailA | .b => .mailB

/-- READER_A or READER_B. -/
def readerFlag : Side → Attn
  | .a => .readerA | .b => .readerB

/-- The port answers from the end of the power-good hold of a mains power-up until the supply collapses, but while it sleeps (R182). -/
def State.portAnswers (s : State) : Bool := s.pw.mains && !s.pw.cold && !s.port.asleep

/-- The ATTN line is driven low while a flag is set in ATTN_SUMMARY and in ATTN_ENABLE; it is released while the port sleeps and
during the power-good hold of a mains power-up (R194). That the 500 ms after a warning's release, which R165 also calls the power-good hold,
do not release it is the model's choice (log 70). -/
def State.attnDriven (s : State) : Bool := s.portAnswers && decide (s.port.attn &&& s.port.enable ≠ 0)

/-- The device flags of the device status record (file 11): CLOCK_DEGRADED, METROLOGY_ABSENT, METROLOGY_FAULT, TOTALS_INVALID,
SWITCH_ON, LOG_FULL in bits 0 to 5. -/
def State.deviceFlags (s : State) : Nat :=
  bit s.pw.degraded + 2 * bit s.store.absent + 4 * bit s.store.fault + 8 * bit s.pw.totalsInvalid + 16 * bit s.store.switchOn
    + 32 * bit s.store.logFull

end Sys2Proof.Machine
end

