-- ==== Sys2Proof/Machine/Operands.lean ====
section
/-! DEFINITION. The code tables of file 11, result details, order slots and the operand forms of orders (R186 to R192, R196). -/

namespace Sys2Proof.Machine

/-! ## Code tables -/

/-- Table 1. -/
def FpState.code : FpState → Nat
  | .unavailable => 1 | .idle => 2 | .calling => 3 | .authorized => 4 | .starting => 5 | .fueling => 6 | .paused => 7
  | .settling => 8 | .finished => 9 | .locked => 10

/-- Table 2. -/
def Cause.code : Cause → Nat
  | .nozzleHung => 1 | .presetReached => 2 | .amountLimit => 3 | .noFlow => 4
  | .hostStop => 16 | .pauseTimeout => 17 | .startTimeout => 18 | .displayFail => 19 | .readerTamper => 20 | .motorTrip => 21
  | .powerLoss => 22 | .deviceReset => 23 | .halt => 24
  | .overrun => 32 | .blendFault => 33 | .pulserFault => 34 | .unauthFlow => 35
  | .deauthorized => 40 | .authExpired => 41 | .authWithdrawn => 42

/-- Table 3. -/
def SaleStatus.code : SaleStatus → Nat
  | .none => 0 | .opened => 1 | .interrupted => 2 | .completed => 3 | .discarded => 4

/-- Table 5, power states. -/
def PowerState.code : PowerState → Nat
  | .standby => 1 | .waking => 2 | .active => 3 | .halted => 4 | .shuttingDown => 5 | .powerFail => 6

/-- Table 5, wake phases. -/
def WakePhase.code : WakePhase → Nat
  | .none => 0 | .clock => 1 | .store => 2 | .retention => 3 | .display => 4 | .readers => 5 | .drives => 6

/-- Table 6, reader states. -/
def ReaderState.code : ReaderState → Nat
  | .off => 0 | .warming => 1 | .ready => 2 | .lost => 3 | .failed => 4 | .tampered => 5 | .supplyFault => 6

/-- Table 6, supply-off causes. -/
def OffCause.code : OffCause → Nat
  | .misses => 1 | .warmUpLimit => 2 | .tamper => 3 | .overcurrent => 4 | .notFitted => 5 | .standby => 6 | .powerFail => 7
  | .deviceReset => 8

/-- Table 7, motor states. -/
def MotorState.code : MotorState → Nat
  | .off => 0 | .queued => 1 | .starting => 2 | .running => 3 | .runOn => 4 | .fault => 5

/-- Table 7, head states. -/
def HeadState.code : HeadState → Nat
  | .absent => 0 | .probing => 1 | .heating => 2 | .ready => 3 | .failed => 4

/-- Table 8. -/
def HaltCode.code : HaltCode → Nat
  | .flowAfterClose => 1 | .secondFault => 2 | .bothSides => 3 | .retentionFault => 4 | .calibrationMismatch => 5

/-- Table 9. -/
def ResultCode.code : ResultCode → Nat
  | .ok => 1 | .okClamped => 2 | .badOrder => 3 | .wrongState => 4 | .notActive => 5 | .unavailable => 6 | .stackFull => 7
  | .readerNotReady => 8 | .notFound => 9 | .superseded => 10 | .readerDown => 11 | .rejected => 12 | .switchOff => 13
  | .logFull => 14 | .stillFlowing => 15 | .nozzleOut => 16 | .causePresent => 17

/-- The reasons, coded 0x100 upward in their order. -/
def Reason.code : Reason → Nat
  | .halted => 0x100 | .locked => 0x101 | .display => 0x102 | .metrology => 0x103 | .noPrices => 0x104
  | .nothingToStop => 0x105 | .alreadyEnding => 0x106 | .reload => 0x107 | .storeWrite => 0x108 | .notWritten => 0x109
  | .notShown => 0x10A | .replaced => 0x10B | .saleOpened => 0x10C | .notFitted => 0x10D | .eventNumber => 0x10E
  | .wakeTime => 0x10F | .gradeMask => 0x110 | .presetValue => 0x111 | .metrologyAbsent => 0x112 | .listFull => 0x113

/-- Order kinds (file 11, ORDER SLOTS). -/
def OrderKind.code : OrderKind → Nat
  | .authorize => 0x01 | .deauthorize => 0x02 | .stop => 0x03 | .pause => 0x04 | .resume => 0x05 | .settle => 0x06
  | .clearLock => 0x10 | .clearHalt => 0x11 | .priceSet => 0x20 | .showMessage => 0x28 | .readerSend => 0x30
  | .readerRestart => 0x31 | .motorClear => 0x38 | .standby => 0x40 | .wake => 0x41 | .setClock => 0x42 | .calibrate => 0x50
  | .setSettings => 0x51 | .initTotals => 0x52 | .clearLog => 0x53

/-- All order kinds. -/
def OrderKind.all : List OrderKind :=
  [.authorize, .deauthorize, .stop, .pause, .resume, .settle, .clearLock, .clearHalt, .priceSet, .showMessage, .readerSend,
   .readerRestart, .motorClear, .standby, .wake, .setClock, .calibrate, .setSettings, .initTotals, .clearLog]

/-- Whether a kind byte names an order (R188). -/
def kindNamesOrder (k : Nat) : Bool := OrderKind.all.any (fun x => x.code == k)

/-- Sides: A 1, B 2; they are also the target codes. -/
def sideCode : Side → Nat
  | .a => 1 | .b => 2

/-- Hoses stand as their number. -/
def hoseCode : Hose → Nat
  | .h1 => 1 | .h2 => 2

/-- Grades 1 to 5. -/
def gradeCode : Grade → Nat
  | .g1 => 1 | .g2 => 2 | .g3 => 3 | .g4 => 4 | .g5 => 5

/-- Motor numbers 1 to 3. -/
def motorCode : Product → Nat
  | .p1 => 1 | .p2 => 2 | .p3 => 3

/-- Head roles 1 to 8. -/
def roleCode : Role → Nat
  | .saleA => 1 | .saleB => 2 | .priceA => 3 | .priceB => 4 | .mirror1 => 5 | .mirror2 => 6 | .mirror3 => 7 | .mirror4 => 8

/-- Target codes of the meters, 0x21 to 0x26. -/
def meterCode (m : Meter) : Nat := 0x20 + (match m.side with | .a => 0 | .b => 3) + motorCode m.product

/-- Origin: CONSOLE 1, READER 2. -/
def Origin.code : Origin → Nat
  | .console => 1 | .reader => 2

/-- Price level: LEVEL_1 1, LEVEL_2 2. -/
def Level.code : Level → Nat
  | .level1 => 1 | .level2 => 2

/-- Preset kind: NONE 0, VOLUME 1, AMOUNT 2. -/
def PresetKind.code : PresetKind → Nat
  | .none => 0 | .volume => 1 | .amount => 2

/-- Last-end kind. -/
def LastEndKind.code : LastEndKind → Nat
  | .authEnded => 1 | .saleCompleted => 2 | .saleDiscarded => 3

/-- Ignored-post reason. -/
def IgnoreReason.code : IgnoreReason → Nat
  | .range => 1 | .notPosted => 2 | .queued => 3 | .withdrawn => 4

/-- Clock source. -/
def ClockSource.code : ClockSource → Nat
  | .crystal => 1 | .internal => 2

/-- Clock failure reason. -/
def ClockFail.code : ClockFail → Nat
  | .noCrystal => 1 | .noLock => 2

/-- Last wake cause. -/
def WakeCause.code : WakeCause → Nat
  | .mains => 1 | .warningRelease => 2 | .resetRegister => 3 | .resetPin => 4 | .wakeTime => 5 | .wakeOrder => 6 | .wakePin => 7

/-- Log kind. -/
def LogKind.code : LogKind → Nat
  | .calibration => 1 | .setting => 2 | .totalsInit => 3 | .logCleared => 4

/-- Valve states of the valve part. -/
def ValveState.code : ValveState → Nat
  | .closed => 0 | .pullIn => 1 | .opened => 2 | .openSlow => 3

/-- Head failure reasons; 0 is absent. -/
def FailReason.code : FailReason → Nat
  | .noAck => 1 | .stretch => 2 | .check => 3 | .stale => 4 | .segFault => 5 | .probe => 6

/-- Bus states. -/
def BusState.code : BusState → Nat
  | .free => 0 | .own => 1 | .other => 2 | .clear => 3

/-- Close reason: 1 PRESET, 2 CAP. -/
def CloseReason.code : CloseReason → Nat
  | .preset => 1 | .cap => 2

/-- Bands 1 to 4. -/
def Band.code : Band → Nat
  | .b1 => 1 | .b2 => 2 | .b3 => 3 | .b4 => 4

/-- Reader link frame kinds (file 11, FRAMES). -/
def LinkKind.code : LinkKind → Nat
  | .ask => 0x01 | .stay => 0x02 | .give => 0x03

/-- The reply kind a byte names; a controller kind or an unlisted code names none (R197). -/
def replyKindOf (b : Byte) : Option ReplyKind :=
  if b = 0x81 then some .none else if b = 0x82 then some .take else if b = 0x83 then some .got
  else if b = 0x84 then some .wait else if b = 0x85 then some .reject else none

/-! ## Result details (R196) -/

/-- A named FP state: its code, with the number of its table in the next byte. -/
def fpDetail (st : FpState) : Nat := 0x100 + st.code

/-- A named cause. -/
def causeDetail (c : Cause) : Nat := 0x200 + c.code

/-- A named power state. -/
def powerDetail (st : PowerState) : Nat := 0x500 + st.code

/-- A named reader state. -/
def readerDetail (st : ReaderState) : Nat := 0x600 + st.code

/-- A named supply-off cause. -/
def offCauseDetail (c : OffCause) : Nat := 0x600 + c.code

/-- A reader state and a supply-off cause: the cause's code in bits 16 to 23, 0 where none is recorded. -/
def readerDownDetail (st : ReaderState) (c : Option OffCause) : Nat :=
  readerDetail st + 0x10000 * (match c with | some x => x.code | none => 0)

/-- A named motor state. -/
def motorDetail (st : MotorState) : Nat := 0x700 + st.code

/-- A named head state. -/
def headDetail (st : HeadState) : Nat := 0x700 + st.code

/-- A side together with a state: the side in bits 24 to 31. -/
def sideStateDetail (d : Side) (st : FpState) : Nat := 0x1000000 * sideCode d + fpDetail st

/-- A price set version and the two application marks, in bits 0 to 15, 16 and 17. -/
def versionMarksDetail (version : Nat) (marks : Sides Bool) : Nat := version + 0x10000 * bit marks.a + 0x20000 * bit marks.b

/-- The field TARGET. -/
def targetDetail : Nat := 0xFFFF

/-- The field KIND. -/
def kindDetail : Nat := 0xFFFE

/-! ## Order slots (file 10, ORDER SLOTS; file 11) -/

/-- Slot n begins at 0x2000 + 128 × n. -/
def slotAddr (n : Nat) : Nat := 0x2000 + 128 * n

/-- The slot state: the high byte of the state word; its low byte is ignored (R186). -/
def State.slotState (s : State) (n : Nat) : Byte := s.mem.read (slotAddr n)

/-- The slot reads POSTED. -/
def State.slotPosted (s : State) (n : Nat) : Bool := decide (s.slotState n = 1)

/-- The slot reads TAKEN. -/
def State.slotTaken (s : State) (n : Nat) : Bool := decide (s.slotState n = 2)

/-- The kind byte of a slot. -/
def State.slotKind (s : State) (n : Nat) : Nat := (s.mem.read (slotAddr n + 2)).toNat

/-- The target byte of a slot. -/
def State.slotTarget (s : State) (n : Nat) : Nat := (s.mem.read (slotAddr n + 3)).toNat

/-- A field of an order's body: `n` bytes at an offset from the body's start, 16 bytes into the slot. -/
def State.bodyField (s : State) (slot off n : Nat) : Nat := s.mem.field (slotAddr slot + 16 + off) n

/-- Bytes of an order's body. -/
def State.bodyBytes (s : State) (slot off n : Nat) : List Byte := s.mem.readAll (slotAddr slot + 16 + off) n

/-- The take number of a slot (R186). -/
def State.takeNumber (s : State) (n : Nat) : Nat := s.port.takes.getD n 0

/-- The header bytes the controller writes: result code with the given state word's state, done time, detail and take time. -/
def Memory.writeHeader (m : Memory) (slot state code done detail : Nat) (take : Option Word32) : Memory :=
  let a := slotAddr slot
  let m1 := m.writeAll (a + 6) (bytesBE 2 done ++ bytesBE 4 detail)
  let m2 := match take with
    | some t => m1.writeAll (a + 12) (bytesBE 4 t.toNat)
    | none => m1
  m2.writeAll a [BitVec.ofNat 8 state, BitVec.ofNat 8 code]

/-- An order as its owner works from it: where it stands and its target (R189). Its body is read from the slot in the take event. -/
structure Order where
  ref : OrderRef
  target : Nat
  deriving DecidableEq, Repr, Inhabited

/-- The take of the slot at the head of the post queue (R189): it leaves the queue, its take number rises by 1, the result fields
are zeroed, the take time is written and the state word reads TAKEN. -/
def State.takeSlot (s : State) (n : Nat) : State × Order :=
  let number := (s.takeNumber n + 1) % 65536
  ({ s with
      port := { s.port with posts := s.port.posts.tail, takes := s.port.takes.set n number }
      mem := s.mem.writeHeader n 2 0 0 0 (some s.rtc) },
   { ref := { slot := n, take := number, time := s.rtc }, target := s.slotTarget n })

/-- The done time: seconds from the take to the completion, modulo 2^32, saturating at 65,535 (R196; log 31). -/
def doneTime (take now : Word32) : Nat := min 65535 (now - take).toNat

/-- The completion of an order (R190): written only when the slot reads TAKEN under the take number the order carries. -/
def State.complete (s : State) (r : OrderRef) (code : ResultCode) (detail : Nat) : State :=
  if s.slotTaken r.slot && decide (s.takeNumber r.slot = r.take) then
    (s.setMem (s.mem.writeHeader r.slot 3 code.code (doneTime r.time s.rtc) detail none)).attn .order
  else s

/-- Completes an order that may be absent. -/
def State.completeOpt (s : State) (r : Option OrderRef) (code : ResultCode) (detail : Nat) : State :=
  match r with
  | some x => s.complete x code detail
  | none => s

/-- The device power states in which the dispatcher takes orders of a kind to their owner (R188). -/
def takenIn (st : PowerState) (k : OrderKind) : Bool :=
  match st with
  | .active | .halted => true
  | .standby => decide (k = .wake) || decide (k = .setClock)
  | _ => false

/-- The device power states in which the dispatcher takes the head of the queue at all (R188). -/
def takesMade (st : PowerState) : Bool :=
  match st with
  | .active | .halted | .standby => true
  | _ => false

/-- Takes the head of the post queue when it is an order of the kind `k` that the device power state lets its owner have, and hands
it to the owner with the slot taken (R188, R189). When the head is no such order the event does not happen (log 6). A WAKE still
queued when the host puts the port to sleep in STANDBY is taken all the same: the model's choice (log 82). -/
def State.withOrder (s : State) (k : OrderKind) (owner : State → Order → State) : State :=
  match s.port.posts with
  | [] => s
  | n :: _ =>
    if takenIn s.pw.state k && s.slotPosted n && decide (s.slotKind n = k.code) then
      owner (s.takeSlot n).1 (s.takeSlot n).2
    else s

/-- The side a target names. -/
def sideOfTarget (t : Nat) : Option Side := if t = 1 then some .a else if t = 2 then some .b else none

/-- The motor a target names, 0x11 to 0x13. -/
def motorOfTarget (t : Nat) : Option Product :=
  if t = 0x11 then some .p1 else if t = 0x12 then some .p2 else if t = 0x13 then some .p3 else none

/-- The meter a target names, 0x21 to 0x26. -/
def meterOfTarget (t : Nat) : Option Meter :=
  if t = 0x21 then some ⟨.a, .p1⟩ else if t = 0x22 then some ⟨.a, .p2⟩ else if t = 0x23 then some ⟨.a, .p3⟩
  else if t = 0x24 then some ⟨.b, .p1⟩ else if t = 0x25 then some ⟨.b, .p2⟩ else if t = 0x26 then some ⟨.b, .p3⟩ else none

/-- An order for the owner of one side: a target that is no side completes BAD_ORDER with detail TARGET (R188). -/
def State.withSideOrder (s : State) (k : OrderKind) (owner : State → Order → Side → State) : State :=
  s.withOrder k (fun s o =>
    match sideOfTarget o.target with
    | some d => owner s o d
    | none => s.complete o.ref .badOrder targetDetail)

/-- An order whose target must be none; any other gives BAD_ORDER with detail TARGET, also where a body field is bad too: for SET_SETTINGS,
INIT_TOTALS and STANDBY that the target is tested first is the model's choice (log 83). -/
def State.withPlainOrder (s : State) (k : OrderKind) (owner : State → Order → State) : State :=
  s.withOrder k (fun s o => if o.target = 0 then owner s o else s.complete o.ref .badOrder targetDetail)

/-! ## The body of AUTHORIZE -/

/-- Origin: CONSOLE 1, READER 2. -/
def originOf (n : Nat) : Option Origin := if n = 1 then some .console else if n = 2 then some .reader else none

/-- Price level: LEVEL_1 1, LEVEL_2 2. -/
def levelOf (n : Nat) : Option Level := if n = 1 then some .level1 else if n = 2 then some .level2 else none

/-- Preset kind: NONE 0, VOLUME 1, AMOUNT 2. -/
def presetKindOf (n : Nat) : Option PresetKind :=
  if n = 0 then some .none else if n = 1 then some .volume else if n = 2 then some .amount else none

/-- A grade mask: bits 0 to 4 for G1 to G5; the other bits are not read (log 22). -/
def maskOf (n : Nat) : Five Bool := ⟨n.testBit 0, n.testBit 1, n.testBit 2, n.testBit 3, n.testBit 4⟩

/-- A grade mask as a byte. -/
def maskCode (m : Five Bool) : Nat := bit m.g1 + 2 * bit m.g2 + 4 * bit m.g3 + 8 * bit m.g4 + 16 * bit m.g5

end Sys2Proof.Machine
end

