-- ==== Sys2Proof/Machine/Image.lean ====
section
/-! DEFINITION. The calibration image: its layout (file 11), and the values the blocks take from the working copy with their own limits. -/

namespace Sys2Proof.Machine

/-- Position of a side in the tables of the image. -/
def sideIndex : Side → Nat
  | .a => 0 | .b => 1

/-- Position of a grade. -/
def gradeIndex (g : Grade) : Nat := gradeCode g - 1

/-- Position of a meter, A1 to B3. -/
def meterIndex (m : Meter) : Nat := 3 * sideIndex m.side + (motorCode m.product - 1)

/-- The six meters, A1 to B3. -/
def allMeters : List Meter := [⟨.a, .p1⟩, ⟨.a, .p2⟩, ⟨.a, .p3⟩, ⟨.b, .p1⟩, ⟨.b, .p2⟩, ⟨.b, .p3⟩]

/-- The three meters of a side. -/
def sideMeters (d : Side) : List Meter := [⟨d, .p1⟩, ⟨d, .p2⟩, ⟨d, .p3⟩]

/-- Bytes of the image before its CRC (file 11). -/
def imageBody : Nat := 1154

/-- Grade entries begin at 2, 4 bytes each, side A G1 to G5 and then side B (file 11). -/
def gradeAddr (d : Side) (g : Grade) : Nat := 2 + 4 * (5 * sideIndex d + gradeIndex g)

/-- Meter calibrations begin at 42, 20 bytes each (file 11). -/
def meterAddr (m : Meter) : Nat := 42 + 20 * meterIndex m

/-- The settings begin at 162 (file 11). -/
def settingsAddr : Nat := 162

/-- The log part: entry count at 184, next event number at 186, places of 30 bytes from 194 (file 11). -/
def logPlaceAddr (n : Nat) : Nat := 194 + 30 * n

/-- The hose of a grade: G1 to G4 belong to hose 1 and G5 to hose 2 (R8). -/
def gradeHose : Grade → Hose
  | .g5 => .h2
  | _ => .h1

/-- A field of the working copy; an empty working copy gives nothing. -/
def State.copyField (s : State) (a n : Nat) : Option Nat := s.store.copy.map (fun m => m.field a n)

/-- A grade is enabled: its flag is set, its hose field names its own hose and its high share is at most 1000 (R8; log 27). With no working
copy no grade is enabled: the spec gives the grade tables no default (log 58). -/
def State.gradeEnabled (s : State) (d : Side) (g : Grade) : Bool :=
  match s.store.copy with
  | none => false
  | some m => decide (m.field (gradeAddr d g) 1 = 1) && decide (m.field (gradeAddr d g + 1) 1 = hoseCode (gradeHose g))
      && decide (m.field (gradeAddr d g + 2) 2 ≤ 1000)

/-- The high share of a grade, in ‰ (R8). -/
def State.gradeShare (s : State) (d : Side) (g : Grade) : Nat := (s.copyField (gradeAddr d g + 2) 2).getD 0

/-- The product set of a grade of a high share (R8). -/
def productSet (g : Grade) (share : Nat) : Three Bool :=
  match g with
  | .g5 => ⟨false, false, true⟩
  | _ => if share = 0 then ⟨true, false, false⟩ else if 1000 ≤ share then ⟨false, true, false⟩ else ⟨true, true, false⟩

/-- The product set that the grade table gives a grade (R8). -/
def State.gradeProducts (s : State) (d : Side) (g : Grade) : Three Bool := productSet g (s.gradeShare d g)

/-- K_m after its limits, or 0 with no working copy (R38). -/
def State.copyK (s : State) (m : Meter) : Nat :=
  match s.copyField (meterAddr m) 4 with
  | some k => clampNat 200000 2000000 k
  | none => 0

/-- A correction as the image holds it, after its limits (R38). -/
def correctionOf (v : Nat) : Int := clampInt (-20000) 20000 (signedOf 16 v)

/-- The band limits and the corrections of a meter in an image (R38; file 11, the image's layout). -/
def calibrationIn (x : Memory) (m : Meter) : Calibration :=
  let a := meterAddr m
  { b1 := x.field (a + 4) 2, b2 := x.field (a + 6) 2, b3 := x.field (a + 8) 2
    c1 := correctionOf (x.field (a + 10) 2), c2 := correctionOf (x.field (a + 12) 2)
    c3 := correctionOf (x.field (a + 14) 2), c4 := correctionOf (x.field (a + 16) 2) }

/-- The band limits and the corrections of a meter as the working copy gives them; without a working copy, none (R38). -/
def State.copyCal (s : State) (m : Meter) : Option Calibration := s.store.copy.map (calibrationIn · m)

/-- The correction of the band in use, in ppm (R39). -/
def Channel.correction (c : Channel) : Int :=
  match c.cal with
  | some x => x.correction c.band
  | none => 0

/-- Slow margin in cL, after its limits; the default without a working copy (R46). -/
def State.slowMarginSetting (s : State) : Nat :=
  match s.copyField settingsAddr 2 with
  | some v => clampNat 10 200 v
  | none => 40

/-- Overrun limit in cL, after its limits; the default without a working copy (R46). -/
def State.overrunLimit (s : State) : Nat :=
  match s.copyField (settingsAddr + 2) 2 with
  | some v => clampNat 5 50 v
  | none => 20

/-- Motor start time in ms, after its limits; the default without a working copy (R66). -/
def State.startTime (s : State) : Nat :=
  match s.copyField (settingsAddr + 4) 2 with
  | some v => clampNat 200 3000 v
  | none => 1000

/-- Run-on time in ms, after its limit of 10 s; the default of 2 s without a working copy (R66). -/
def State.runOnTime (s : State) : Nat :=
  match s.copyField (settingsAddr + 6) 2 with
  | some v => 1000 * (min v 10)
  | none => 2000

/-- The roles in order. -/
def allRoles : List Role := [.saleA, .saleB, .priceA, .priceB, .mirror1, .mirror2, .mirror3, .mirror4]

/-- Whether a role is a mirror. -/
def isMirror : Role → Bool
  | .mirror1 | .mirror2 | .mirror3 | .mirror4 => true
  | _ => false

/-- The source a code names: one of the four fixed roles (R91). -/
def sourceOf (n : Nat) : Option Role :=
  if n = 1 then some .saleA else if n = 2 then some .saleB else if n = 3 then some .priceA else if n = 4 then some .priceB else none

/-- The address that the map gives a role, and for a mirror its source; with no working copy, the defaults of R91. -/
def State.mapEntry (s : State) (r : Role) : Nat × Option Role :=
  match s.store.copy with
  | some m =>
    (m.field (settingsAddr + 8 + (roleCode r - 1)) 1,
     if isMirror r then sourceOf (m.field (settingsAddr + 16 + (roleCode r - 5)) 1) else none)
  | none =>
    (match r with
     | .saleA => 0x20 | .saleB => 0x21 | .priceA => 0x22 | .priceB => 0x23
     | _ => 0, none)

/-- Whether the map configures a role: its address lies in 0x08..0x77, is not that of an earlier role, and a mirror has a source (R91). -/
def State.mapConfigures (s : State) (r : Role) : Bool :=
  let a := (s.mapEntry r).1
  decide (0x08 ≤ a) && decide (a ≤ 0x77)
    && (allRoles.filter (fun q => decide (roleCode q < roleCode r))).all (fun q => decide ((s.mapEntry q).1 ≠ a))
    && (!isMirror r || (s.mapEntry r).2.isSome)

/-- The reader fitted flag of a side; with no working copy both readers are taken as fitted (R118). -/
def State.readerFitted (s : State) (d : Side) : Bool :=
  match s.copyField (settingsAddr + 20) 1 with
  | some v => v.testBit (sideIndex d)
  | none => true

/-- The number of log entries of the image. -/
def logCount (m : Memory) : Nat := m.field 184 1

/-- The next event number; a store with no log yet starts at 1 (R180; log 28). -/
def nextEvent (m : Memory) : Nat := if m.field 186 8 = 0 then 1 else m.field 186 8

/-- The log entry in a place of the image: a mirror place without its revision word (file 11). -/
def logEntryAt (m : Memory) (n : Nat) : LogEntry :=
  let a := logPlaceAddr n
  { event := m.field a 4, kind := m.field (a + 4) 1, param := m.field (a + 5) 1, old := m.field (a + 6) 8,
    new := m.field (a + 14) 8, oldCheck := m.field (a + 22) 2, newCheck := m.field (a + 24) 2, time := m.field (a + 26) 4 }

/-- The bytes of a log entry. -/
def LogEntry.bytes (e : LogEntry) : List Byte :=
  bytesBE 4 e.event ++ bytesBE 1 e.kind ++ bytesBE 1 e.param ++ bytesBE 8 e.old ++ bytesBE 8 e.new ++ bytesBE 2 e.oldCheck
    ++ bytesBE 2 e.newCheck ++ bytesBE 4 e.time

/-- The entries of the image's log, oldest first; the mirror shows them (R180). Of a loaded image whose entry count is above 32 it shows the 32
places: the model's choice (log 69). -/
def logEntries (m : Memory) : List LogEntry := (List.range (min 32 (logCount m))).map (logEntryAt m)

/-- The CRC over the image from the format byte to the last byte of the log part (R171). -/
def imageCrc (m : Memory) : Word16 := crc16 (m.readAll 0 imageBody)

/-- The bytes of a parameter block: a meter's calibration, or the grade tables and the settings together (file 09). -/
def blockBytes (m : Memory) : ParamBlock → List Byte
  | .none => []
  | .meter x => m.readAll (meterAddr x) 20
  | .settings => m.readAll 2 40 ++ m.readAll settingsAddr 22

/-- The check of a parameter block (R180). -/
def blockCheck (m : Memory) (b : ParamBlock) : Nat := (crc16 (blockBytes m b)).toNat

end Sys2Proof.Machine
end

