-- ==== Sys2Proof/Machine/Records.lean ====
section
/-! DEFINITION. The records of exchange memory as the layouts of file 11 give them, the revision words, and the close of an event. -/

namespace Sys2Proof.Machine

/-- An optional code: 0 where absent (R196). -/
def optCode {α : Type} (o : Option α) (f : α → Nat) : Nat :=
  match o with
  | some x => f x
  | none => 0

/-- `n` pad bytes, written 0 (R196). -/
def pad (n : Nat) : List Byte := List.replicate n 0

/-- The device status record after its revision word, offsets 2 to 27. -/
def State.deviceImage (s : State) : List Byte :=
  bytesBE 1 s.pw.state.code ++ bytesBE 1 s.pw.phase.code ++ bytesBE 1 s.pw.clock.code ++ bytesBE 1 (optCode s.pw.clockFail ClockFail.code)
    ++ bytesBE 1 s.pw.lastWake.code ++ pad 1 ++ bytesBE 2 s.deviceFlags ++ pad 2 ++ bytesBE 4 s.rtc.toNat
    ++ bytesBE 4 s.ret.wakeTime.toNat ++ bytesBE 1 (bit s.port.lastIgnored.isSome)
    ++ bytesBE 1 (optCode s.port.lastIgnored IgnoredPost.value)
    ++ bytesBE 1 (optCode s.port.lastIgnored (fun p => p.reason.code)) ++ pad 1
    ++ bytesBE 4 (optCode s.port.lastIgnored (fun p => p.time.toNat))

/-- A field that reads its value where it is present, and 0 where its presence bit is clear (R196). -/
def shownIf (present : Bool) (v : Nat) : Nat := if present then v else 0

/-- The sale number is present while the status is COMPLETED (file 01, THE SALE RECORD). -/
def Sale.hasNumber (x : Sale) : Bool := decide (x.status = .completed)

/-- The grade fields are present from the fixing of the grade: grade, price_t, version, close target, start time and the first product volume
(file 01, THE SALE RECORD). That the first product volume, which has no bit of its own, goes with them is the model's reading (log 85). -/
def Sale.hasGrade (x : Sale) : Bool := x.grade.isSome

/-- The second product volume is present in a sale of a blend grade (file 01, THE SALE RECORD). -/
def Sale.hasSecond (x : Sale) : Bool := x.hasGrade && x.drawn.p1 && x.drawn.p2

/-- The first product volume of a sale, in product order: that of the lowest product of its set (file 11). -/
def Sale.firstVolume (x : Sale) : Nat :=
  if x.drawn.p1 then x.products.p1 else if x.drawn.p2 then x.products.p2 else if x.drawn.p3 then x.products.p3 else 0

/-- The presence byte of a sale entry (file 11): number, grade fields, end time, end cause, first cause, second product volume. -/
def Sale.presence (x : Sale) : Nat :=
  bit x.hasNumber + 2 * bit x.hasGrade + 4 * bit x.endTime.isSome + 8 * bit x.endCause.isSome + 16 * bit x.firstCause.isSome
    + 32 * bit x.hasSecond

/-- A sale entry, 64 bytes (file 11). A field whose presence bit is clear reads 0 (R196), whatever retention memory holds in its place after a
failed read-back or a loss of its supply. -/
def Sale.image (x : Sale) : List Byte :=
  bytesBE 1 x.status.code ++ bytesBE 1 x.presence ++ bytesBE 2 (shownIf x.hasNumber x.number)
    ++ bytesBE 1 (sideCode x.side) ++ bytesBE 1 (hoseCode x.hose)
    ++ bytesBE 1 (optCode x.grade gradeCode) ++ bytesBE 1 x.origin.code ++ bytesBE 1 x.level.code ++ bytesBE 1 x.presetKind.code
    ++ bytesBE 1 (optCode x.endCause Cause.code) ++ bytesBE 1 (optCode x.firstCause Cause.code)
    ++ bytesBE 2 (bit x.clamped + 2 * bit x.capped + 4 * bit x.degraded) ++ bytesBE 2 (shownIf x.hasGrade x.version)
    ++ bytesBE 4 (shownIf x.hasGrade x.price) ++ bytesBE 4 x.preset ++ bytesBE 4 (shownIf x.hasGrade x.closeTarget) ++ bytesBE 4 x.volume
    ++ bytesBE 4 x.amount ++ bytesBE 4 (shownIf x.hasGrade x.firstVolume) ++ bytesBE 4 (shownIf x.hasSecond x.products.p2)
    ++ bytesBE 4 (shownIf x.hasGrade x.startTime.toNat) ++ bytesBE 4 (optCode x.endTime BitVec.toNat) ++ pad 12

/-- A sale entry that no sale fills is zeroed (file 11). So is, whole, the current sale of status NONE, and an entry of the sale list whose
status a failed read-back or a lost retention supply has left NONE: the model's choices (log 77). -/
def Sale.entryImage (x : Option Sale) : List Byte :=
  match x with
  | some y => if y.status = .none then pad 64 else y.image
  | none => pad 64

/-- The valve part of one valve: state, commanded duty, applied duty, pad. -/
def ValveDrive.image (v : ValveDrive) : List Byte :=
  bytesBE 1 v.state.code ++ bytesBE 1 v.commanded ++ bytesBE 1 v.applied ++ pad 1

/-- The valve part of an FP record, 24 bytes. -/
def ValveSide.image (x : ValveSide) : List Byte :=
  x.valves.p1.image ++ x.valves.p2.image ++ x.valves.p3.image ++ bytesBE 1 (bit x.slow) ++ pad 1
    ++ bytesBE 2 (unsignedOf 16 x.blend.lastError) ++ bytesBE 1 x.blend.dutyH ++ bytesBE 1 x.blend.dutyL ++ bytesBE 1 x.blend.count
    ++ pad 5

/-- The authorization record, 16 bytes. -/
def authImage (a : Option AuthRecord) : List Byte :=
  match a with
  | some x => bytesBE 1 1 ++ bytesBE 1 x.origin.code ++ bytesBE 1 x.level.code ++ bytesBE 1 (maskCode x.mask)
      ++ bytesBE 1 x.presetKind.code ++ bytesBE 1 (bit x.clamped) ++ pad 2 ++ bytesBE 4 x.preset ++ bytesBE 4 x.takeTime.toNat
  | none => pad 16

/-- The last-end record, 12 bytes. -/
def lastEndImage (e : Option LastEnd) : List Byte :=
  match e with
  | some x => bytesBE 1 x.kind.code ++ bytesBE 1 x.cause.code ++ bytesBE 2 x.number ++ bytesBE 4 x.time.toNat ++ pad 4
  | none => pad 12

/-- The FP record of a side after its revision word, offsets 2 to 431 (file 11). That the press time reads 0 while the grade button record is
empty, and the lift time of a hung hose 0, are the model's choices (log 42). -/
def State.fpImage (s : State) (d : Side) : List Byte :=
  let f := s.fp.get d
  let r := s.ret.sides.get d
  bytesBE 1 f.state.code ++ bytesBE 1 (if r.locked then optCode r.lockCause Cause.code else 0)
    ++ bytesBE 1 (bit f.lift1.isSome + 2 * bit f.lift2.isSome)
    ++ bytesBE 1 (optCode f.calling hoseCode) ++ bytesBE 1 (optCode f.refused hoseCode)
    ++ bytesBE 1 (optCode f.button (fun p => gradeCode p.grade)) ++ bytesBE 4 (optCode f.button (fun p => p.time.toNat))
    ++ bytesBE 4 (optCode f.lift1 BitVec.toNat) ++ bytesBE 4 (optCode f.lift2 BitVec.toNat)
    ++ authImage f.auth ++ lastEndImage f.lastEnd ++ bytesBE 4 f.overrun ++ bytesBE 1 (bit f.base.isSome)
    ++ bytesBE 1 (optCode f.closeReason CloseReason.code) ++ bytesBE 1 (bit f.gate1 + 2 * bit f.gate2 + 4 * bit f.gate3) ++ pad 1
    ++ (s.vlv.get d).image ++ Sale.entryImage (some r.sale) ++ bytesBE 1 r.list.length ++ pad 15
    ++ Sale.entryImage (r.list[0]?) ++ Sale.entryImage (r.list[1]?) ++ Sale.entryImage (r.list[2]?)
    ++ (r.grades.toList.map (fun g => bytesBE 8 g.volume ++ bytesBE 8 g.amount)).flatten

/-- A motor record, 8 bytes. -/
def MotorRec.image (m : MotorRec) : List Byte :=
  bytesBE 1 m.state.code ++ bytesBE 1 (bit m.demand.a + 2 * bit m.demand.b) ++ bytesBE 1 (bit m.trip)
    ++ bytesBE 1 (bit m.faultTime.isSome) ++ bytesBE 4 (optCode m.faultTime BitVec.toNat)

/-- The expected content check of a head: the sum modulo 256 of the field bytes it last acknowledged (R99). -/
def Head.expected (h : Head) : Nat := ((h.sale ++ h.message ++ h.board).foldl (fun acc b => acc + b.toNat) 0) % 256

/-- A head record, 16 bytes. -/
def Head.image (r : Role) (h : Head) : List Byte :=
  bytesBE 1 (roleCode r) ++ bytesBE 1 h.addr ++ bytesBE 1 (optCode h.source roleCode) ++ bytesBE 1 h.state.code ++ bytesBE 1 h.fails
    ++ bytesBE 1 (optCode h.reason FailReason.code) ++ bytesBE 1 h.expected ++ pad 1 ++ bytesBE 4 h.lastDone.toNat ++ pad 4

/-- The motor and head table after its revision word. -/
def State.tableImage (s : State) : List Byte :=
  s.mot.recs.p1.image ++ s.mot.recs.p2.image ++ s.mot.recs.p3.image ++ bytesBE 1 s.mot.queue.length
    ++ bytesBE 1 (optCode s.mot.queue[0]? motorCode) ++ bytesBE 1 (optCode s.mot.queue[1]? motorCode)
    ++ bytesBE 1 (optCode s.mot.queue[2]? motorCode)
    ++ (allRoles.map (fun r => (s.head r).image r)).flatten ++ bytesBE 1 s.disp.bus.code ++ pad 1 ++ bytesBE 2 s.disp.clears

/-- A price set, 44 bytes: present, marks, version, ten prices. -/
def priceSetImage (p : Option PriceSet) (marks : Nat) : List Byte :=
  match p with
  | some x => bytesBE 1 1 ++ bytesBE 1 marks ++ bytesBE 2 x.version
      ++ ((x.level1.toList ++ x.level2.toList).map (bytesBE 4)).flatten
  | none => pad 44

/-- The price area after its revision word. -/
def State.priceImage (s : State) : List Byte :=
  priceSetImage (s.ret.applied.get .a) 0 ++ priceSetImage (s.ret.applied.get .b) 0
    ++ priceSetImage (s.ret.pendingSet.map PendingSet.prices) (optCode s.ret.pendingSet (fun p => bit p.marks.a + 2 * bit p.marks.b))

/-- A meter record after its revision word. -/
def State.meterImage (s : State) (m : Meter) : List Byte :=
  let c := s.meter m
  let r := (s.ret.meters.get m.side).get m.product
  bytesBE 1 c.band.code ++ pad 1 ++ bytesBE 2 c.rate ++ pad 2 ++ bytesBE 4 c.k ++ bytesBE 8 r.total ++ bytesBE 8 r.unassigned

/-- A side and cause of the halt record; 0 and 0 where absent. -/
def pairImage (p : Option CausePair) : List Byte :=
  bytesBE 1 (optCode p (fun x => sideCode x.side)) ++ bytesBE 1 (optCode p (fun x => x.cause.code))

/-- The halt record after its revision word. -/
def State.haltImage (s : State) : List Byte :=
  bytesBE 1 (optCode s.halt.code HaltCode.code) ++ bytesBE 1 (bit s.halt.first.isSome + bit s.halt.second.isSome)
    ++ pairImage s.halt.first ++ pairImage s.halt.second ++ bytesBE 2 (bit s.halt.reload + 2 * bit s.halt.halted) ++ pad 2
    ++ bytesBE 4 s.halt.time.toNat ++ bytesBE 4 s.halt.flow

/-- A reader status record after its revision word. -/
def Reader.image (r : Reader) : List Byte :=
  bytesBE 1 r.state.code ++ bytesBE 1 (bit r.fitted) ++ bytesBE 1 (optCode r.cause OffCause.code) ++ bytesBE 1 r.miss
    ++ bytesBE 1 r.cycles ++ bytesBE 1 r.nextMail ++ bytesBE 1 r.sends.length ++ bytesBE 1 (optCode r.sends.head? SendOrder.rejects)
    ++ bytesBE 1 (bit r.tamper + 2 * bit r.overcurrent) ++ pad 1 ++ bytesBE 4 r.changed.toNat

/-- A mail cell, 80 bytes (R128, file 11); the payload bytes past the length read 0 (log 60). -/
def MailCell.image (c : MailCell) : List Byte :=
  bytesBE 2 c.rev ++ bytesBE 2 c.stateWord.toNat ++ bytesBE 1 c.number ++ bytesBE 1 c.length
    ++ (c.payload ++ pad 64).take 64 ++ pad 10

/-- A byte of the log mirror: 32 places of 32 bytes, a place beyond the entries zeroed (R180). -/
def State.mirrorByte (s : State) (off : Nat) : Byte :=
  let n := off / 32
  let word := bytesBE 2 (s.rev.mirror.getD n 0)
  match s.store.mirror[n]? with
  | some e => (word ++ e.bytes).getD (off % 32) 0
  | none => word.getD (off % 32) 0

/-- The byte at an offset of a record: its revision word, then its fields; 0 past its end. -/
def recordByte (rev : Nat) (image : List Byte) (off : Nat) : Byte := (bytesBE 2 rev ++ image).getD off 0

/-- A byte of exchange memory as the host port reads it (R182, file 10 EXCHANGE MEMORY REGIONS). -/
def State.exchangeByte (s : State) (a : Nat) : Byte :=
  if a < 0x0100 then recordByte s.rev.device s.deviceImage a
  else if a < 0x0500 then recordByte s.rev.fp.a (s.fpImage .a) (a - 0x0100)
  else if a < 0x0900 then recordByte s.rev.fp.b (s.fpImage .b) (a - 0x0500)
  else if a < 0x0A00 then recordByte s.rev.table s.tableImage (a - 0x0900)
  else if a < 0x0B00 then recordByte s.rev.price s.priceImage (a - 0x0A00)
  else if a < 0x0BC0 then
    match allMeters[(a - 0x0B00) / 32]? with
    | some m => recordByte ((s.rev.meters.get m.side).get m.product) (s.meterImage m) ((a - 0x0B00) % 32)
    | none => 0
  else if a < 0x0C00 then 0
  else if a < 0x0C20 then recordByte s.rev.halt s.haltImage (a - 0x0C00)
  else if a < 0x0C40 then recordByte s.rev.readers.a (s.rdr.get .a).image (a - 0x0C20)
  else if a < 0x1000 then recordByte s.rev.readers.b (s.rdr.get .b).image (a - 0x0C40)
  else if a < 0x1400 then
    match (s.rdr.get .a).cells[(a - 0x1000) / 80]? with
    | some c => c.image.getD ((a - 0x1000) % 80) 0
    | none => 0
  else if a < 0x1800 then
    match (s.rdr.get .b).cells[(a - 0x1400) / 80]? with
    | some c => c.image.getD ((a - 0x1400) % 80) 0
    | none => 0
  else if a < 0x1C00 then s.mirrorByte (a - 0x1800)
  else if a < 0x2000 then 0
  else s.mem.read a

/-! ## The revision words (R185) -/

/-- A revision word after an event: raised by 2, modulo 65,536, when the event rewrote the record. -/
def bumpIf (rewritten : Bool) (rev : Nat) : Nat := if rewritten then (rev + 2) % 65536 else rev

/-- The revision words after an event that led from `s` to `t`: each record of which a field changed, or that the event rewrites
in any case, is rewritten once (R185; log 35). -/
def nextRevisions (s t : State) : Revisions :=
  let r := t.rev
  let forced (x : RecordId) : Bool := decide (x ∈ r.force)
  { device := bumpIf (forced .device || decide (s.deviceImage ≠ t.deviceImage)) r.device
    fp := ⟨bumpIf (forced .fpA || decide (s.fpImage .a ≠ t.fpImage .a)) r.fp.a,
           bumpIf (forced .fpB || decide (s.fpImage .b ≠ t.fpImage .b)) r.fp.b⟩
    table := bumpIf (forced .table || decide (s.tableImage ≠ t.tableImage)) r.table
    price := bumpIf (forced .price || decide (s.priceImage ≠ t.priceImage)) r.price
    meters :=
      ⟨⟨bumpIf (forced (.meter ⟨.a, .p1⟩) || decide (s.meterImage ⟨.a, .p1⟩ ≠ t.meterImage ⟨.a, .p1⟩)) r.meters.a.p1,
        bumpIf (forced (.meter ⟨.a, .p2⟩) || decide (s.meterImage ⟨.a, .p2⟩ ≠ t.meterImage ⟨.a, .p2⟩)) r.meters.a.p2,
        bumpIf (forced (.meter ⟨.a, .p3⟩) || decide (s.meterImage ⟨.a, .p3⟩ ≠ t.meterImage ⟨.a, .p3⟩)) r.meters.a.p3⟩,
       ⟨bumpIf (forced (.meter ⟨.b, .p1⟩) || decide (s.meterImage ⟨.b, .p1⟩ ≠ t.meterImage ⟨.b, .p1⟩)) r.meters.b.p1,
        bumpIf (forced (.meter ⟨.b, .p2⟩) || decide (s.meterImage ⟨.b, .p2⟩ ≠ t.meterImage ⟨.b, .p2⟩)) r.meters.b.p2,
        bumpIf (forced (.meter ⟨.b, .p3⟩) || decide (s.meterImage ⟨.b, .p3⟩ ≠ t.meterImage ⟨.b, .p3⟩)) r.meters.b.p3⟩⟩
    halt := bumpIf (forced .haltRec || decide (s.haltImage ≠ t.haltImage)) r.halt
    readers := ⟨bumpIf (forced .readerA || decide ((s.rdr.get .a).image ≠ (t.rdr.get .a).image)) r.readers.a,
                bumpIf (forced .readerB || decide ((s.rdr.get .b).image ≠ (t.rdr.get .b).image)) r.readers.b⟩
    mirror := r.mirror.mapIdx (fun n x => bumpIf (decide (s.store.mirror[n]? ≠ t.store.mirror[n]?)) x)
    force := []
    wrote := []
    reads := if r.wrote.isEmpty then r.reads else r.reads + 1 }

/-- Writes the revision words at the end of an event. -/
def publish (s t : State) : State := { t with rev := nextRevisions s t }

/-- Every record that is rewritten when exchange memory is zeroed (R195). -/
def allRecords : List RecordId :=
  [.device, .fpA, .fpB, .table, .price, .meter ⟨.a, .p1⟩, .meter ⟨.a, .p2⟩, .meter ⟨.a, .p3⟩, .meter ⟨.b, .p1⟩,
   .meter ⟨.b, .p2⟩, .meter ⟨.b, .p3⟩, .haltRec, .readerA, .readerB]

end Sys2Proof.Machine
end

