-- ==== Sys2Proof/Machine/Ops.lean ====
section
/-! DEFINITION. The shared operations of one block each: prerequisites, attribution, frame-queue requests, valve drives, blend loops,
motors, the arithmetic of a sale. -/

namespace Sys2Proof.Machine

/-! ## The fueling point's view (file 01) -/

/-- Whether a fueling-point state has a sale in progress (file 01, FUELING-POINT STATES). -/
def FpState.inSale : FpState → Bool
  | .starting | .fueling | .paused | .settling => true
  | _ => false

/-- Whether a sale in progress in this state can still be ended by a cause (R21). -/
def FpState.endable : FpState → Bool
  | .starting | .fueling | .paused => true
  | _ => false

/-- The state of a side's fueling point. -/
def State.fpState (s : State) (d : Side) : FpState := (s.fp.get d).state

/-- A sale is in progress on a side. -/
def State.inSale (s : State) (d : Side) : Bool := (s.fpState d).inSale

/-- A sale is in progress on either side. -/
def State.anySale (s : State) : Bool := s.inSale .a || s.inSale .b

/-- The sale head of a side. -/
def saleRole : Side → Role
  | .a => .saleA | .b => .saleB

/-- The price board of a side. -/
def priceRole : Side → Role
  | .a => .priceA | .b => .priceB

/-- Whether a prerequisite of fueling stands on a side (R1). -/
def State.meets (s : State) (d : Side) : Prereq → Bool
  | .active => decide (s.pw.state = .active)
  | .display => decide ((s.head (saleRole d)).state = .ready)
  | .metrology => !s.store.absent && !s.store.fault && !s.pw.totalsInvalid
  | .noPrices => (s.ret.applied.get d).isSome

/-- The first missing prerequisite, in the order of R1. -/
def State.firstMissing (s : State) (d : Side) : Option Prereq :=
  [Prereq.active, .display, .metrology, .noPrices].find? (fun p => !s.meets d p)

/-- All prerequisites stand (R1). -/
def State.fuelable (s : State) (d : Side) : Bool :=
  s.meets d .active && s.meets d .display && s.meets d .metrology && s.meets d .noPrices

/-- The lift time of a hose, or none while it is hung (R5). -/
def FuelPoint.lift (f : FuelPoint) : Hose → Option Word32
  | .h1 => f.lift1 | .h2 => f.lift2

/-- Records the position of a hose (R5). -/
def FuelPoint.setLift (f : FuelPoint) (h : Hose) (t : Option Word32) : FuelPoint :=
  match h with
  | .h1 => { f with lift1 := t }
  | .h2 => { f with lift2 := t }

/-- A hose is lifted. -/
def FuelPoint.anyLifted (f : FuelPoint) : Bool := f.lift1.isSome || f.lift2.isSome

/-- The other hose of a side. -/
def otherHose : Hose → Hose
  | .h1 => .h2 | .h2 => .h1

/-- The ready state without an authorization: IDLE with both hoses hung, CALLING with a hose lifted (R3, R12). -/
def FuelPoint.readyState (f : FuelPoint) : FpState := if f.anyLifted then .calling else .idle

/-! ## Attribution (R36) -/

/-- Whether a product's meter is attributed to its side's sale: FUELING, PAUSED or SETTLING, the grade fixed, the product in its set. A sale whose
retained grade reads absent, as a failed read-back can leave it, has no meter (log 93). -/
def attributed (st : FpState) (x : Sale) (p : Product) : Attribution :=
  match st with
  | .fueling | .paused | .settling => if x.grade.isSome && x.drawn.get p then .sale else .unassigned
  | _ => .unassigned

/-- A channel under an attribution: a change returns pending reverse, illegal count and unassigned tally to 0 (R36), and lets a
PULSER_FAULT report be made anew (R35). -/
def Channel.attribute (c : Channel) (a : Attribution) : Channel :=
  if c.attr = a then c else { c with attr := a, pendingRev := 0, illegal := 0, tally := 0, pulserMade := false }

/-- Brings the attribution of a side's three meters to what R36 gives. -/
def State.reattribute (s : State) (d : Side) : State :=
  let one (s : State) (p : Product) : State := s.updMeter ⟨d, p⟩ (fun c => c.attribute (attributed (s.fpState d) (s.sale d) p))
  one (one (one s .p1) .p2) .p3

/-- A change of FP state: FP_A or FP_B is set (R2), CALL on entry to CALLING, and the meters' attribution follows (R36). -/
def State.setFpState (s : State) (d : Side) (st : FpState) : State :=
  if s.fpState d = st then s
  else (((s.updFp d (fun f => { f with state := st })).attn (fpFlag d)).attnIf (decide (st = .calling)) .call).reattribute d

/-! ## Requests to the frame queue (R100) -/

/-- The class of a frame kind (R100). -/
def FrameKind.cls : FrameKind → Nat
  | .zero => 1 | .sale => 2 | .board => 3 | .message => 4 | .refresh => 5 | .probe => 6

/-- A head that takes entries of classes 1 to 5 (R100). -/
def HeadState.shows : HeadState → Bool
  | .ready | .heating => true
  | _ => false

/-- The queue holds an entry for a head and kind. -/
def Display.queued (x : Display) (r : Role) (k : FrameKind) : Bool :=
  x.queue.any (fun e => decide (e.role = r) && decide (e.kind = k))

/-- Adds an entry for a head and kind unless one is queued (R100). -/
def Display.enqueue (x : Display) (r : Role) (k : FrameKind) : Display :=
  if x.queued r k then x
  else { x with queue := x.queue ++ [{ role := r, kind := k, age := x.nextAge, retry := false }], nextAge := x.nextAge + 1 }

/-- A request for a frame of classes 1 to 5: it is queued only for a READY or HEATING head (R100). -/
def Display.request (x : Display) (r : Role) (k : FrameKind) : Display :=
  if (x.heads.get r).state.shows then x.enqueue r k else x

/-- The mirrors of a fixed role. -/
def Display.mirrors (x : Display) (r : Role) : List Role := allRoles.filter (fun q => decide ((x.heads.get q).source = some r))

/-- A request for a fixed role's head and each of its mirrors. That the head's entry is queued first and the mirrors' follow in role order, which
decides what goes out first within a class (R100), is the model's choice (log 20). -/
def Display.requestAll (x : Display) (r : Role) (k : FrameKind) : Display :=
  (r :: x.mirrors r).foldl (fun x q => x.request q k) x

/-- SALE entries for a side's sale head and its mirrors (R108). -/
def State.requestSale (s : State) (d : Side) : State := s.updDisp (fun x => x.requestAll (saleRole d) .sale)

/-- The ZERO entry of a side's sale head (R109). -/
def State.requestZero (s : State) (d : Side) : State := s.updDisp (fun x => x.request (saleRole d) .zero)

/-- MESSAGE entries for a side's sale head and its mirrors (R110). -/
def State.requestMessage (s : State) (d : Side) : State := s.updDisp (fun x => x.requestAll (saleRole d) .message)

/-- BOARD entries for a side's price board and its mirrors (R90). -/
def State.requestBoard (s : State) (d : Side) : State := s.updDisp (fun x => x.requestAll (priceRole d) .board)

/-! ## Valve drives and blend loops (file 03) -/

/-- A close command for a side: each valve is CLOSED with all its values 0, at once (R61). -/
def State.closeSide (s : State) (d : Side) : State := s.updValveSide d (fun x => { x with valves := ⟨.shut, .shut, .shut⟩ })

/-- Stops a side's blend loop: its timer stops and its figures stay (R63). -/
def State.stopBlend (s : State) (d : Side) : State := s.updBlend d (fun b => { b with timer := none })

/-- All six valves close and both blend loops stop (R61, R62). -/
def State.closeAll (s : State) : State := (((s.closeSide .a).stopBlend .a).closeSide .b).stopBlend .b

/-- A valve opened with a commanded duty: PULL_IN with a count of 4, or at duty 0 OPEN, OPEN_SLOW under the slow mark (R57). -/
def ValveDrive.opening (slow : Bool) (duty : Nat) : ValveDrive :=
  if 0 < duty then { state := .pullIn, commanded := duty, applied := 0, pullIn := 4 }
  else { state := if slow then .openSlow else .opened, commanded := 0, applied := 0, pullIn := 0 }

/-- A write of a commanded duty (R59): a rise from 0 in OPEN puts the valve into PULL_IN with a count of 4. -/
def ValveDrive.command (v : ValveDrive) (duty : Nat) : ValveDrive :=
  if v.state = .opened ∧ v.commanded = 0 ∧ 0 < duty then { v with state := .pullIn, commanded := duty, pullIn := 4 }
  else { v with commanded := duty }

/-- A slow command at one valve (R60). -/
def ValveDrive.slowed (v : ValveDrive) : ValveDrive := if v.state = .opened then { v with state := .openSlow } else v

/-- A slow command for a side: the slow mark is set and OPEN valves pass into OPEN_SLOW (R60). -/
def State.slowSide (s : State) (d : Side) : State :=
  s.updValveSide d (fun x => { x with slow := true, valves := x.valves.map ValveDrive.slowed })

/-- The slow duty of OPEN_SLOW (R56). -/
def slowDuty (commanded : Nat) : Nat := if commanded = 0 then 0 else max 8 (commanded / 4)

/-- The end of a pull-in: OPEN, or OPEN_SLOW under the slow mark (R56). -/
def ValveDrive.endPullIn (slow : Bool) (v : ValveDrive) : ValveDrive := { v with state := if slow then .openSlow else .opened }

/-- The applied duty that a state gives the coming period, pull-in apart (R56). -/
def ValveDrive.dutyOfState (v : ValveDrive) : Nat :=
  match v.state with
  | .closed => 0
  | .pullIn => 255
  | .opened => v.commanded
  | .openSlow => slowDuty v.commanded

/-- A period boundary at one valve (R56). -/
def ValveDrive.boundary (slow : Bool) (v : ValveDrive) : ValveDrive :=
  let w := if v.state = .pullIn ∧ v.pullIn = 0 then v.endPullIn slow else v
  { w with applied := w.dutyOfState, pullIn := if w.state = .pullIn then w.pullIn - 1 else w.pullIn }

/-- The duties a blend loop starts with (R63). -/
def blendDutyH (share : Nat) : Nat := (share * 255 + 500) / 1000

/-- A blend loop set up for a sale of a share (R63). -/
def BlendLoop.settingUp (share : Nat) (b : BlendLoop) : BlendLoop :=
  { b with share := share, dutyH := blendDutyH share, dutyL := 255 - blendDutyH share, lastError := 0, count := 0, setUp := true }

/-! ## Motors (file 03) -/

/-- The number of sides that hold demand (R67). -/
def demandCount (x : Sides Bool) : Nat := bit x.a + bit x.b

/-- The start arbiter is free: no motor is STARTING (R69). -/
def State.arbiterFree (s : State) : Bool :=
  decide (s.mot.recs.p1.state ≠ .starting) && decide (s.mot.recs.p2.state ≠ .starting) && decide (s.mot.recs.p3.state ≠ .starting)

/-- The arbiter's grant: when it is free and the queue is not empty, the head of the queue becomes STARTING (R69). -/
def State.grant (s : State) : State :=
  if s.arbiterFree then
    match s.mot.queue with
    | [] => s
    | m :: rest => (s.setStartQueue rest).updMotor m (fun r => { r with state := .starting, timer := some s.startTime })
  else s

/-- A motor joins the tail of the start queue (R68). -/
def State.joinQueue (s : State) (m : Product) : State :=
  ((s.updMotor m (fun r => { r with state := .queued })).setStartQueue (s.mot.queue ++ [m])).grant

/-- A raise of demand (R67, R68). -/
def State.raiseDemand (s : State) (d : Side) (m : Product) : State :=
  let r := s.motor m
  let t := s.updMotor m (fun r => { r with demand := r.demand.set d true })
  if demandCount r.demand = 0 then
    match r.state with
    | .off => if s.pw.state = .active then t.joinQueue m else t
    | .runOn => t.updMotor m (fun r => { r with state := .running, timer := none })
    | _ => t
  else t

/-- A withdrawal of demand (R67, R68, R71). -/
def State.dropDemand (s : State) (d : Side) (m : Product) : State :=
  let r := s.motor m
  let t := s.updMotor m (fun r => { r with demand := r.demand.set d false })
  if r.demand.get d ∧ demandCount (t.motor m).demand = 0 then
    match r.state with
    | .queued => (t.updMotor m (fun r => { r with state := .off })).setStartQueue (s.mot.queue.filter (fun q => decide (q ≠ m)))
    | .starting => (t.updMotor m (fun r => { r with state := .off, timer := none })).grant
    | .running =>
      if s.runOnTime = 0 then t.updMotor m (fun r => { r with state := .off })
      else t.updMotor m (fun r => { r with state := .runOn, timer := some s.runOnTime })
    | _ => t
  else t

/-- The withdrawal of a side's demand on every motor (R18, R21). -/
def State.dropAll (s : State) (d : Side) : State := ((s.dropDemand d .p1).dropDemand d .p2).dropDemand d .p3

/-- The raise of a side's demand on the motors of its sale's product set, in the order M1, M2, M3 (R14, R19). -/
def State.raiseAll (s : State) (d : Side) : State :=
  let one (s : State) (m : Product) : State := if (s.sale d).drawn.get m then s.raiseDemand d m else s
  one (one (one s .p1) .p2) .p3

/-- A motor as the stop of the drives leaves it (R76). -/
def MotorRec.stopped (r : MotorRec) : MotorRec := if r.state = .fault then r else { r with state := .off, timer := none }

/-- The drives are stopped (R76). -/
def State.stopDrives (s : State) : State := { s with mot := { recs := s.mot.recs.map MotorRec.stopped, queue := [] } }

/-- The device returns to ACTIVE: each OFF motor with demand joins the start queue, in the order M1, M2, M3 (R67). -/
def State.requeueMotors (s : State) : State :=
  let one (s : State) (m : Product) : State :=
    if (s.motor m).state = .off ∧ demandCount (s.motor m).demand ≠ 0 then s.joinQueue m else s
  one (one (one s .p1) .p2) .p3

/-- A motor that a product set draws from is in FAULT. -/
def State.faultIn (s : State) (set : Three Bool) : Bool :=
  [Product.p1, .p2, .p3].any (fun m => set.get m && decide ((s.motor m).state = .fault))

/-- Every motor that a product set draws from is RUNNING (gate 3, R15). -/
def State.runningAll (s : State) (set : Three Bool) : Bool :=
  [Product.p1, .p2, .p3].all (fun m => !set.get m || decide ((s.motor m).state = .running))

/-! ## The arithmetic of a sale (file 02) -/

/-- v_cap (R46). -/
def volumeCap (price : Nat) : Nat := min 999999 (999999499 / price)

/-- The cap term of the close target: v_cap minus the overrun limit (R46). -/
def capTerm (price limit : Nat) : Nat := volumeCap price - limit

/-- The preset term of an AMOUNT preset: the quotient rounded up (R47). -/
def amountTerm (preset price : Nat) : Nat := (1000 * preset - 500 + (price - 1)) / price

/-- The close target and the close reason (R47). -/
def targetOf (kind : PresetKind) (preset price limit : Nat) : Nat × CloseReason :=
  let cap := capTerm price limit
  match kind with
  | .none => (cap, .cap)
  | .volume => if preset ≤ cap then (preset, .preset) else (cap, .cap)
  | .amount => if amountTerm preset price ≤ cap then (amountTerm preset price, .preset) else (cap, .cap)

/-- The rounded amount before the cap (R44). -/
def rawAmount (volume price : Nat) : Nat := (volume * price + 500) / 1000

/-- The sum of a sale's product volumes in mL. -/
def Sale.sumML (x : Sale) : Nat := x.products.p1 + x.products.p2 + x.products.p3

/-- Volume and amount recomputed from the product volumes (R44, R45). -/
def Sale.recompute (x : Sale) : Sale :=
  let v := x.sumML / 10
  { x with volume := v, amount := min 999999 (rawAmount v x.price), capped := x.capped || decide (999999 < rawAmount v x.price) }

/-- The slow condition of a sale (R48). -/
def Sale.slowDue (x : Sale) (margin : Nat) : Bool := decide (x.closeTarget ≤ x.volume + margin)

/-- The close condition of a sale (R48). -/
def Sale.closeDue (x : Sale) : Bool := decide (x.closeTarget ≤ x.volume)

/-- The cause of a close (R48). -/
def closeCause : Option CloseReason → Cause
  | some .preset => .presetReached
  | _ => .amountLimit

/-- Whether the metering unit reports LOCK-class causes and FLOW_AFTER_CLOSE: not while HALTED or POWER_FAIL (R37, R53, R146). -/
def State.reportsMade (s : State) : Bool :=
  match s.pw.state with
  | .halted | .powerFail => false
  | _ => true

/-! ## Power flags (R151) -/

/-- A change of the device power state other than to or from HALTED: POWER is set (R151). -/
def State.setPowerState (s : State) (st : PowerState) : State :=
  if s.pw.state = st then s else (s.updPower (fun p => { p with state := st })).attn .power

/-- The entry to a wake phase: POWER is set (R151, R153). -/
def State.setPhase (s : State) (ph : WakePhase) : State := (s.updPower (fun p => { p with phase := ph })).attn .power

end Sys2Proof.Machine
end

