-- ==== Sys2Proof/Machine/Sales.lean ====
section
/-! DEFINITION. The operations of fueling points, sales, locks, the halt condition and price application, each over several blocks. -/

namespace Sys2Proof.Machine

/-! ## Ends of authorizations and sales -/

/-- An authorization ends (R12): the last-end record is written, the record, the "hose refused" mark and the expiry timer go.
The sale number of that record reads 0: the model's choice (log 72). -/
def State.endAuth (s : State) (d : Side) (c : Cause) : State :=
  (s.updFp d (fun f => { f with auth := none, refused := none, expiry := none,
                                lastEnd := some { kind := .authEnded, cause := c, number := 0, time := s.rtc } })).attn (fpFlag d)

/-- An authorization ends and the fueling point becomes IDLE, or CALLING if a hose is lifted (R12). -/
def State.endAuthReady (s : State) (d : Side) (c : Cause) : State :=
  let t := s.endAuth d c
  t.setFpState d (t.fp.get d).readyState

/-- A fueling point becomes LOCKED: the lock and its cause are written to retention memory (R25, R30); a lock of cause UNAUTH_FLOW
starts the lock-flow measure at 0 (R51). -/
def State.lockFp (s : State) (d : Side) (c : Cause) : State :=
  let t := s.updRetSide d [.lock] (fun r => { r with locked := true, lockCause := some c })
  let t := if c = .unauthFlow then t.updFp d (fun f => { f with lockFlow := some 0, lockFlowMade := false }) else t
  t.setFpState d .locked

/-- The first cause that reaches a sale in STARTING, FUELING or PAUSED ends it (R21); the overrun base is set, or kept when the sale
ends from PAUSED (R49). -/
def State.endSale (s : State) (d : Side) (c : Cause) : State :=
  let t := (((s.updSale d [.endCause] (fun x => { x with endCause := some c })).closeSide d).stopBlend d).dropAll d
  let t := t.updFp d (fun f => { f with start := none, noFlow := none, pause := none, settle := some 500 })
  let t := if s.fpState d = .paused then t
    else t.updFp d (fun f => { f with base := some (s.sale d).volume, overrun := 0, overrunMade := false, flowMade := false })
  t.setFpState d .settling

/-- HALT at a sale in SETTLING: it becomes the end cause, a LOCK-class end cause moves to the first cause (R23). -/
def Sale.takeHalt (x : Sale) : Sale :=
  { x with endCause := some .halt
           firstCause := match x.endCause with
             | some e => if e.isLock then some e else x.firstCause
             | none => x.firstCause }

/-- The parts of a sale in SETTLING that HALT writes: the first cause where a LOCK-class end cause moves there (R23). -/
def Sale.haltParts (x : Sale) : List SalePart := if x.endCause.any Cause.isLock then [.endCause, .firstCause] else [.endCause]

/-! ## The halt condition (file 07) -/

/-- HALT at a fueling point (R144 step 5). -/
def State.haltFp (s : State) (d : Side) : State :=
  match s.fpState d with
  | .starting | .fueling | .paused => s.endSale d .halt
  | .settling => s.updSale d (s.sale d).haltParts Sale.takeHalt
  | .authorized => (s.endAuth d .halt).lockFp d .halt
  | .unavailable | .idle | .calling | .finished => s.lockFp d .halt
  | .locked => s

/-- The metrology store port marks a reload as due when none is due or in progress (R145, R173). -/
def StorePort.markReload (x : StorePort) : StorePort := if x.reloading then x else { x with reloadDue := true }

/-- The halt record of an entry to the halt condition (R144 step 1, R145). -/
def State.writeHaltRecord (s : State) (r : HaltReport) : State :=
  s.updHalt (fun h => { h with code := some r.code, time := s.rtc, first := r.first, second := r.second, flow := r.flow,
                               reload := h.reload || decide (r.code = .calibrationMismatch), halted := true })

/-- Entry to the halt condition (R144): the record, the device state, valves and blend loops, motors, both fueling points, HALT. -/
def State.enterHalt (s : State) (r : HaltReport) : State :=
  let t := (s.writeHaltRecord r).updPower (fun p => { p with state := .halted })
  let t := if r.code = .calibrationMismatch then t.updStore StorePort.markReload else t
  (((t.closeAll.stopDrives).haltFp .a).haltFp .b).attn .halt

/-- A halt code as it is reported (R143): it halts in ACTIVE; in HALTED a CALIBRATION_MISMATCH sets the reload-required mark; in any
other state it is held, or dropped when a code is held. -/
def State.reportHalt (s : State) (r : HaltReport) : State :=
  match s.pw.state with
  | .active => s.enterHalt r
  | .halted =>
    if r.code = .calibrationMismatch then (s.updHalt (fun h => { h with reload := true })).updStore StorePort.markReload else s
  | _ =>
    match s.halt.held with
    | none => s.updHalt (fun h => { h with held := some r })
    | some _ => if r.code = .calibrationMismatch then s.updHalt (fun h => { h with reload := true }) else s

/-- The pair that a LOCKED fueling point, or one SETTLING for a LOCK-class cause, gives to a report of the other side (R141). For a lock whose
retained cause is absent, as a failed read-back can leave it, it gives HALT: the model's choice (log 64). -/
def State.lockPair (s : State) (o : Side) : Option CausePair :=
  match s.fpState o with
  | .locked => some ⟨o, (s.ret.sides.get o).lockCause.getD .halt⟩
  | .settling =>
    match (s.sale o).endCause with
    | some e => if e.isLock then some ⟨o, e⟩ else none
    | none => none
  | _ => none

/-- A report of a taken LOCK-class cause of kind ENDED, REPLACED or LOCKED, tested for BOTH_SIDES (R139, R141). -/
def State.reportLock (s : State) (d : Side) (c : Cause) : State :=
  match s.lockPair d.other with
  | some p => s.reportHalt { code := .bothSides, first := some p, second := some ⟨d, c⟩, flow := 0 }
  | none => s

/-- A report of kind SECOND: the halt code SECOND_FAULT (R139, R140). -/
def State.reportSecond (s : State) (d : Side) (held c : Cause) : State :=
  s.reportHalt { code := .secondFault, first := some ⟨d, held⟩, second := some ⟨d, c⟩, flow := 0 }

/-- A LOCK-class cause replaces an END or STOP cause in SETTLING (R23). -/
def Sale.replaceCause (c : Cause) (x : Sale) : Sale := { x with endCause := some c, firstCause := x.endCause }

/-- A LOCK-class cause in SETTLING (R23): a second fault against a LOCK-class end cause, a replacement otherwise. -/
def State.settlingLock (s : State) (d : Side) (c : Cause) : State :=
  match (s.sale d).endCause with
  | some e => if e.isLock then s.reportSecond d e c else (s.updSale d [.endCause, .firstCause] (Sale.replaceCause c)).reportLock d c
  | none => (s.updSale d [.endCause, .firstCause] (Sale.replaceCause c)).reportLock d c

/-- A stop cause reaches a fueling point (R21, R23, R30, R37, R139). -/
def State.takeCause (s : State) (d : Side) (c : Cause) : State :=
  match s.fpState d with
  | .starting | .fueling | .paused =>
    let t := s.endSale d c
    if c.isLock then t.reportLock d c else t
  | .settling => if c.isLock then s.settlingLock d c else s
  | .authorized => if c.isLock then ((s.endAuth d c).lockFp d c).reportLock d c else s
  | .unavailable | .idle | .calling | .finished => if c.isLock then (s.lockFp d c).reportLock d c else s
  | .locked => s

/-! ## Prerequisites (R3, R4) -/

/-- A fueling point after a change of a prerequisite, sales apart (R3, R4). -/
def State.reviewFp (s : State) (d : Side) : State :=
  match s.fpState d with
  | .unavailable => if s.fuelable d then s.setFpState d (s.fp.get d).readyState else s
  | .idle | .calling | .finished => if s.fuelable d then s else s.setFpState d .unavailable
  | .authorized => if s.fuelable d then s else (s.endAuth d .authWithdrawn).setFpState d .unavailable
  | _ => s

/-- Both fueling points after a change of a prerequisite. -/
def State.reviewBoth (s : State) : State := (s.reviewFp .a).reviewFp .b

/-- A fueling point after a change of its sale head's state (R4, R106): DISPLAY_FAIL for a sale when the head is not READY. -/
def State.headReport (s : State) (d : Side) : State :=
  if (s.fpState d).endable then (if s.meets d .display then s else s.takeCause d .displayFail) else s.reviewFp d

/-! ## Price application (file 04) -/

/-- A side applies the pending set (R81): the applied set, the mark, the board request, PRICE where it is set, the prerequisite. -/
def State.applySet (s : State) (d : Side) (flag : Bool) : State :=
  match s.ret.pendingSet with
  | none => s
  | some p =>
    let t := (s.setApplied d p.prices).setMark d
    ((t.requestBoard d).attnIf flag .price).reviewFp d

/-- A side applies the pending set when one is present, its mark is clear, it has no sale in progress and the device is ACTIVE (R81). -/
def State.applyIfDue (s : State) (d : Side) : State :=
  match s.ret.pendingSet with
  | none => s
  | some p => if p.marks.get d = false ∧ s.inSale d = false ∧ s.pw.state = .active then s.applySet d true else s

/-- Both marks set: the PRICE_SET order completes OK with the version and the pending set is cleared (R82). R82 has this done when an application
leaves both marks set, and R83 also at CLEAR_HALT when both marks stand. That the completion of a sale does it too where it makes no application,
HALTED included, the marks both reading set because the write of one failed its read-back, is the model's choice (log 92). -/
def State.finishPending (s : State) : State :=
  match s.ret.pendingSet with
  | none => s
  | some p =>
    if p.marks.a && p.marks.b then (s.clearPending.setPriceOrder none).completeOpt s.price.order .ok p.prices.version else s

/-- Application on both sides where due, and the completion that follows (R79, R83). Where both sides apply in one event, the BOARD entries of
PRICE-A and its mirrors are queued before those of PRICE-B (R90, R100): the model's choice (log 20). -/
def State.applyBoth (s : State) : State := ((s.applyIfDue .a).applyIfDue .b).finishPending

/-! ## Opening a sale and its gates (R13 to R15) -/

/-- The record of a sale that opens (R13). -/
def Sale.opening (d : Side) (h : Hose) (a : AuthRecord) (degraded : Bool) : Sale :=
  { Sale.empty d with status := .opened, hose := h, origin := a.origin, level := a.level, presetKind := a.presetKind,
                      preset := a.preset, clamped := a.clamped, degraded := degraded }

/-- The opening of a sale clears the side's message line; its order completes SUPERSEDED (R111; log 21). -/
def State.dropMessage (s : State) (d : Side) : State :=
  (s.completeOpt (s.disp.lines.get d).order .superseded Reason.saleOpened.code).updLine d (fun _ => .cleared)

/-- Entry to STARTING: the start timer starts, gate 3 is tested afresh, a press counts when its validity still runs, and with hose 2
active the grade button record is cleared (R7, R13). -/
def FuelPoint.entering (h : Hose) (f : FuelPoint) : FuelPoint :=
  { f with start := some 60000, gate3 := false
           button := if h = .h2 then none else f.button
           pressTimer := if h = .h2 then none else f.pressTimer
           pressSelects := decide (h = .h1) && f.pressTimer.isSome && f.button.isSome }

/-- A fueling point enters STARTING (R7, R13). -/
def State.enterStarting (s : State) (d : Side) : State :=
  (s.updFp d (FuelPoint.entering (s.sale d).hose)).setFpState d .starting

/-- The grade that the active hose and the press offer (R14): G5 on hose 2, the grade of the valid press on hose 1. -/
def State.offeredGrade (s : State) (d : Side) : Option Grade :=
  match (s.sale d).hose with
  | .h2 => some .g5
  | .h1 =>
    match (s.fp.get d).button with
    | some p => if (s.fp.get d).pressSelects then some p.grade else none
    | none => none

/-- A grade meets the conditions of R14: in the grade mask, enabled, no motor it draws from in FAULT. -/
def State.gradeFixable (s : State) (d : Side) (g : Grade) : Bool :=
  (match (s.fp.get d).auth with
   | some a => a.mask.get g
   | none => false)
    && s.gradeEnabled d g && !s.faultIn (s.gradeProducts d g)

/-- The sale record at the fixing of its grade (R14 steps 1 to 3, R46, R47, R84). -/
def Sale.fixed (x : Sale) (g : Grade) (set : Three Bool) (now : Word32) (p : PriceSet) (limit : Nat) : Sale :=
  { x with grade := some g, startTime := now, drawn := set, products := ⟨0, 0, 0⟩, price := p.price x.level g, version := p.version,
           closeTarget := (targetOf x.presetKind x.preset (p.price x.level g) limit).1 }

/-- The sale accumulators of a sale are created at 0 (R36). -/
def State.freshAccumulators (s : State) (d : Side) : State :=
  let one (s : State) (p : Product) : State := s.updMeter ⟨d, p⟩ (fun c => { c with saleAcc := 0, saleV := 0 })
  one (one (one s .p1) .p2) .p3

/-- The fixing of a grade (R14): the sale record, the price latch, the close target, the zero frame, the demand. -/
def State.fixGrade (s : State) (d : Side) (g : Grade) (p : PriceSet) : State :=
  let x := s.sale d
  let reason := (targetOf x.presetKind x.preset (p.price x.level g) s.overrunLimit).2
  let t := s.updSale d [.grade, .figures] (fun x => x.fixed g (s.gradeProducts d g) s.rtc p s.overrunLimit)
  let t := t.updFp d (fun f => { f with gate1 := true, closeReason := some reason, limit := s.overrunLimit,
                                        slowMargin := s.slowMarginSetting })
  (((t.freshAccumulators d).requestZero d).requestSale d).raiseAll d

/-- Fixes the grade when it is not fixed and one meets R14. -/
def State.tryFix (s : State) (d : Side) : State :=
  match (s.sale d).grade, s.offeredGrade d, s.ret.applied.get d with
  | none, some g, some p => if s.gradeFixable d g then s.fixGrade d g p else s
  | _, _, _ => s

/-- The blend loop at an entry to FUELING (R63): set up at the first entry of a blend sale; its timer starts and its count is 0. -/
def State.startBlend (s : State) (d : Side) : State :=
  match (s.sale d).grade with
  | some g =>
    if (s.sale d).drawn.p1 && (s.sale d).drawn.p2 then
      s.updBlend d (fun b => { (if b.setUp then b else b.settingUp (s.gradeShare d g)) with count := 0, timer := some 200 })
    else s
  | none => s

/-- The open command (R57). -/
def State.openValves (s : State) (d : Side) : State :=
  let set := (s.sale d).drawn
  s.updValveSide d (fun x =>
    let blend := set.p1 && set.p2
    { x with valves :=
        ⟨if set.p1 then .opening x.slow (if blend then x.blend.dutyL else 255) else x.valves.p1,
         if set.p2 then .opening x.slow (if blend then x.blend.dutyH else 255) else x.valves.p2,
         if set.p3 then .opening x.slow 255 else x.valves.p3⟩ })

/-- Entry to FUELING (R15): timers, slow flow where the slow condition holds (R48, R57), blend loop, valves, and the close of a sale
already at its close target (R48). -/
def State.enterFueling (s : State) (d : Side) : State :=
  let x := s.sale d
  let f := s.fp.get d
  let t := (s.updFp d (fun f => { f with start := none, noFlow := some 60000 })).setFpState d .fueling
  let t := if x.slowDue f.slowMargin then t.slowSide d else t
  let t := (t.startBlend d).openValves d
  if x.closeDue then t.takeCause d (closeCause f.closeReason) else t

/-- Tests gate 3 in STARTING (R15). -/
def State.testGate3 (s : State) (d : Side) : State :=
  s.updFp d (fun f => { f with gate3 := (s.sale d).grade.isSome && s.runningAll (s.sale d).drawn })

/-- The gates of a fueling point stand met (R15). -/
def FuelPoint.gatesMet (f : FuelPoint) : Bool := f.gate1 && f.gate2 && f.gate3

/-- A fueling point in STARTING at an event that may fix its grade or meet a gate (R14, R15). -/
def State.evalStarting (s : State) (d : Side) : State :=
  if s.fpState d = .starting ∧ s.pw.state = .active then
    let t := (s.tryFix d).testGate3 d
    if (t.fp.get d).gatesMet then t.enterFueling d else t
  else s

/-- Both fueling points test their gates, side A first. Where one event has both fix a grade, that order shows in the start queue and in the frame
queue (R14, R69, R100): the model's choice (log 20). -/
def State.evalBoth (s : State) : State := (s.evalStarting .a).evalStarting .b

/-- A sale opens on a hose (R11, R13): the new record, the fueling point's own figures, the display, the message line. -/
def State.openSale (s : State) (d : Side) (h : Hose) : State :=
  match (s.fp.get d).auth with
  | none => s
  | some a =>
    let t := s.updSale d allSaleParts (fun _ => Sale.opening d h a s.pw.degraded)
    let t := t.updFp d (fun f =>
      { f with refused := none, expiry := none, gate1 := false, gate2 := false, gate3 := false, closeReason := none, base := none,
               overrun := 0, overrunMade := false, flowMade := false, saleSerial := f.saleSerial + 1 })
    let t := (t.updValveSide d (fun x => { x with slow := false })).updBlend d (fun b => { b with setUp := false })
    (((t.enterStarting d).requestSale d).dropMessage d).evalStarting d

/-! ## Completion (R24, R25, R29) -/

/-- The sale-number counter advances: 65,535 becomes 1 (R24). -/
def nextNumber (n : Nat) : Nat := if n = 65535 then 1 else n + 1

/-- The grade totals after a completed sale (R29). A sale with volume whose retained grade reads absent, as a failed read-back can leave it, is
added to no total: the model's choice (log 91). -/
def addTotals (g : Five GradeTotal) (x : Sale) : Five GradeTotal :=
  match x.grade with
  | some k => g.set k { volume := ((g.get k).volume + x.volume) % 10 ^ 10, amount := ((g.get k).amount + x.amount) % 10 ^ 10 }
  | none => g

/-- The retained values of a side at the completion of its sale: discarded at 0 cL, otherwise numbered, listed and added (R24). -/
def RetSide.completeSale (r : RetSide) (now : Word32) : RetSide :=
  if r.sale.volume = 0 then { r with sale := { r.sale with endTime := some now, status := .discarded } }
  else
    let n := nextNumber r.counter
    let x := { r.sale with endTime := some now, number := n, status := .completed }
    { r with sale := x, counter := n, list := r.list ++ [x], grades := addTotals r.grades x }

/-- The last-end record of a completed or discarded sale (R24). The sale number of a discarded one reads 0: the model's choice (log 72). Where
the completing sale's retained end cause reads absent, as a failed read-back can leave it, the record names POWER_LOSS: the model's choice
(log 79). -/
def Sale.lastEnd (x : Sale) (now : Word32) : LastEnd :=
  { kind := if x.volume = 0 then .saleDiscarded else .saleCompleted, cause := x.endCause.getD .powerLoss,
    number := if x.volume = 0 then 0 else x.number, time := now }

/-- The parts that a completion writes, in the order of R170: the end time and the end cause, which is written again as it stands, the counter
and the number, the new list entry, the grade total, the status. A discarded sale leaves the counter, the list and the grade totals alone
(R24), and one whose retained grade reads absent writes no grade total (log 91). -/
def Sale.closeParts (x : Sale) : List SidePart :=
  [.sale .endTime, .sale .endCause]
    ++ (if x.volume = 0 then [] else [.counter, .sale .number, .newEntry] ++ (x.grade.map SidePart.grade).toList)
    ++ [.sale .status]

/-- The work of R24 at completion or finalization. -/
def State.closeOut (s : State) (d : Side) : State :=
  let t := s.updRetSide d (s.sale d).closeParts (fun r => r.completeSale s.rtc)
  let t := t.updFp d (fun f => { f with lastEnd := some ((t.sale d).lastEnd s.rtc), auth := none, button := none, pressTimer := none,
                                        settle := none })
  (((t.attn (fpFlag d)).attnIf (decide ((t.sale d).volume ≠ 0)) (saleFlag d)).updValveSide d (fun x => { x with slow := false })).requestSale d

/-- The LOCK-class cause a sale has, as end cause or first cause, and HALT otherwise (R25, R26). -/
def Sale.lockCause (x : Sale) : Cause :=
  match x.endCause, x.firstCause with
  | some e, some f => if e.isLock then e else if f.isLock then f else .halt
  | some e, none => if e.isLock then e else .halt
  | none, some f => if f.isLock then f else .halt
  | none, none => .halt

/-- The sale's end cause is of class LOCK. One that reads absent, as a failed read-back can leave it, is of no class (log 93). -/
def Sale.endsInLock (x : Sale) : Bool :=
  match x.endCause with
  | some e => e.isLock
  | none => false

/-- The next state after a completion (R25). -/
def State.afterCompletion (s : State) (d : Side) : State :=
  let x := s.sale d
  let f := s.fp.get d
  if s.pw.state = .halted then s.lockFp d x.lockCause
  else if x.endsInLock then s.lockFp d x.lockCause
  else if s.fuelable d = false then s.setFpState d .unavailable
  else if (f.lift x.hose).isSome then s.setFpState d .finished
  else s.setFpState d f.readyState

/-- A sale completes (R24, R25), and a pending price set is applied (R81) and cleared once both marks are set (R82), also where this completion
has applied nothing: the model's choice (log 92). -/
def State.completeSale (s : State) (d : Side) : State := (((s.closeOut d).afterCompletion d).applyIfDue d).finishPending

/-! ## The close of an event (R170, R185) -/

/-- Whether a write of a part reads back good in the coming event (R170; log 7). -/
def State.readsGood (s : State) (p : RetPart) : Bool :=
  match s.readBack with
  | some good => good
  | none => !Config.writeFails s.rev.reads p

/-- Retention memory after the writes of a list of parts, those that failed standing as the read-back found them (R86). -/
def State.readBackOf (s : State) (r : Retention) (wrote : List RetPart) : Retention :=
  (wrote.filter (fun p => !s.readsGood p)).foldl (fun r p => r.found (Config.readBackFound s.rev.reads) p) r

/-- The end of an event that led from `s` to `t`. Each write to retention memory is read back; where one fails, its owner reports
RETENTION_FAULT, it is not repeated, and its value stands as the read-back found it (R86, R170; log 7). The halt's own writes are read
back with the rest. Then the revision words are written (R185). -/
def commit (s t : State) : State :=
  if t.rev.wrote.all s.readsGood then publish s t
  else
    let u := t.reportHalt { code := .retentionFault, first := none, second := none, flow := 0 }
    publish s { u with ret := s.readBackOf u.ret u.rev.wrote }

/-- One event: it is taken while mains is present, and closed (R152). -/
def event (s : State) (f : State → State) : Host.Outcome State Fault Refusal :=
  .next (if s.pw.mains then commit s (f s) else s)

end Sys2Proof.Machine
end

