-- ==== Sys2Proof/Machine/Heads.lean ====
section
/-! DEFINITION. The operations of the display bus controller (file 05): field content, frames, head states, the map, general calls. -/

namespace Sys2Proof.Machine

/-! ## Content of the fields (R89, R98, R107; file 11, FRAMES) -/

/-- `n` decimal digits with leading zeros, as character codes. -/
def digits : Nat → Nat → List Byte
  | 0, _ => []
  | n + 1, v => BitVec.ofNat 8 (0x30 + v / 10 ^ n % 10) :: digits n v

/-- `n` blank characters. -/
def blanks (n : Nat) : List Byte := List.replicate n 0x20

/-- Whether the SALE field shows the sale's own figures: not for NONE and DISCARDED, nor before the grade of an OPEN sale is fixed (R107). -/
def Sale.shown (x : Sale) : Bool :=
  match x.status with
  | .none | .discarded => false
  | .opened => x.grade.isSome
  | .interrupted | .completed => true

/-- The marks byte: CAPPED in bit 0, OVER in bit 1. -/
def Sale.marks (x : Sale) : Nat := bit x.capped + 2 * bit (decide (999999 < x.volume))

/-- The SALE field of a sale (R107). For an INTERRUPTED sale whose grade was never fixed, and a COMPLETED one whose retained grade a failed
read-back has left absent, there is no latched price and no grade to show, and both are blank: the model's choice (log 81). -/
def Sale.field (x : Sale) : List Byte :=
  if x.shown then
    digits 6 x.amount ++ digits 6 (min 999999 x.volume)
      ++ (match x.grade with
          | some g => digits 5 x.price ++ digits 1 (gradeCode g)
          | none => blanks 6)
      ++ [BitVec.ofNat 8 x.marks]
  else digits 12 0 ++ blanks 6 ++ [BitVec.ofNat 8 x.marks]

/-- A price field of a board: blank for a disabled grade and without an applied set (R89). -/
def State.boardPrice (s : State) (d : Side) (l : Level) (g : Grade) : List Byte :=
  match s.ret.applied.get d with
  | some p => if s.gradeEnabled d g then digits 5 (p.price l g) else blanks 5
  | none => blanks 5

/-- The BOARD field of a side (R89). -/
def State.boardField (s : State) (d : Side) : List Byte :=
  ([Level.level1, .level2].map (fun l => ((Five.ofFun (fun g => s.boardPrice d l g)).toList).flatten)).flatten

/-- The side of a sale head. -/
def sideOfSale : Role → Option Side
  | .saleA => some .a
  | .saleB => some .b
  | _ => none

/-- The fixed role whose content a role shows: its own, or a mirror's source. -/
def State.contentRole (s : State) (r : Role) : Role := if isMirror r then (s.head r).source.getD r else r

/-- The side whose content a fixed role shows. -/
def sideShown : Role → Side
  | .saleB | .priceB => .b
  | _ => .a

/-- The bytes of a field for a role, as the content stands (R100). -/
def State.fieldBytes (s : State) (r : Role) (f : Field) : List Byte :=
  let d := sideShown (s.contentRole r)
  match f with
  | .sale => (s.sale d).field
  | .message => (s.disp.lines.get d).text
  | .board => s.boardField d

/-- The transfers of an entry's frame (R100, R104). -/
def State.transfers (s : State) (e : Entry) : List Transfer :=
  match e.kind with
  | .zero | .sale => [.shows .sale]
  | .board => [.shows .board]
  | .message => [.shows .message]
  | .probe => [.status]
  | .refresh =>
    match s.contentRole e.role with
    | .priceA | .priceB => [.shows .board, .status]
    | _ => [.shows .sale, .shows .message, .status]

/-! ## The bytes of a frame (R94, R98; file 11, FRAMES ON THE DISPLAY BUS) -/

/-- The address byte: the seven-bit address, then the direction bit, 1 for a read (R94). -/
def addressByte (addr : Nat) (read : Bool) : Byte := BitVec.ofNat 8 (2 * addr + bit read)

/-- The field identifiers (file 11). -/
def Field.id : Field → Byte
  | .sale => 0x01 | .message => 0x02 | .board => 0x03

/-- What the controller puts on the bus in a transfer to a head: a SHOW with its command byte, field identifier and field bytes, or the
address byte of a STATUS read (R94, R98). -/
def Transfer.wire (addr : Nat) (bytes : List Byte) : Transfer → List Byte
  | .shows f => addressByte addr false :: 0x01 :: f.id :: bytes
  | .status => [addressByte addr true]

/-- What the controller puts on the bus in a general call: a write to address 0 of one command byte, TEST 2 or BLANK 3 (R94, R98). -/
def CallKind.wire : CallKind → List Byte
  | .test => [addressByte 0 false, 0x02]
  | .blank => [addressByte 0 false, 0x03]

/-! ## The bus and general calls (R93, R98) -/

/-- Starts the general-call frame that is asked for, once the bus is free and no frame of the controller is in flight (R98; log 14). -/
def Display.tryCall (x : Display) : Display :=
  match x.call with
  | some c =>
    if x.bus = .free ∧ x.awaitHigh = false ∧ x.abandoned = false ∧ x.flight = none ∧ c.onBus = false then
      { x with call := some { c with onBus := true }, bus := .own, wire := c.kind.wire }
    else x
  | none => x

/-- The bus becomes free. -/
def Display.freeBus (x : Display) : Display := { x with bus := .free, awaitHigh := false, abandoned := false }.tryCall

/-- Asks for a general-call frame. -/
def State.askCall (s : State) (k : CallKind) : State :=
  s.updDisp (fun x => ({ x with call := some { kind := k, onBus := false } } : Display).tryCall)

/-- Step 2 of R112 ends when no head is PROBING; the general-call TEST of step 3 follows. -/
def State.checkProbing (s : State) : State :=
  if s.disp.step = .probing ∧ s.disp.call = none ∧ allRoles.all (fun r => decide ((s.head r).state ≠ .probing)) then s.askCall .test
  else s

/-! ## Entries and frames in flight (R100, R101) -/

/-- Removes a role's entries of the kinds given, and drops the outcome of its frame on the bus; a REFRESH of the role that stands
between two transfers is over, and a general call that waited for it starts (R98, R101; log 11, log 14). -/
def Display.purge (x : Display) (r : Role) (gone : FrameKind → Bool) : Display :=
  let y := { x with queue := x.queue.filter (fun e => !(decide (e.role = r) && gone e.kind)) }
  match x.flight with
  | some f =>
    if f.entry.role = r then
      (if f.onBus then { y with flight := some { f with dropped := true } } else ({ y with flight := none } : Display).tryCall)
    else y
  | none => y

/-- A frame kind of classes 1 to 5. -/
def FrameKind.content (k : FrameKind) : Bool := decide (k ≠ .probe)

/-- An entry goes back in the place it held: with its age, in place of a later entry for the same head and kind (R96, R101; log 12). -/
def Display.putBack (x : Display) (e : Entry) : Display :=
  { x with queue := x.queue.filter (fun q => !(decide (q.role = e.role) && decide (q.kind = e.kind))) ++ [e] }

/-- Whether an entry is due: a SALE entry waits for the spacing of its head unless it is a retry (R100, R108). -/
def Display.due (x : Display) (e : Entry) : Bool :=
  match e.kind with
  | .sale => e.retry || (x.heads.get e.role).spacing.isNone
  | _ => true

/-- Whether an entry goes before another: by class, then by age (R100). -/
def Entry.before (e q : Entry) : Bool := decide (e.kind.cls < q.kind.cls) || (decide (e.kind.cls = q.kind.cls) && decide (e.age < q.age))

/-- The due entry that is taken next (R100). -/
def Display.pick (x : Display) : Option Entry :=
  (x.queue.filter x.due).foldl (fun best e =>
    match best with
    | some b => if e.before b then some e else some b
    | none => some e) none

/-- The bytes a transfer carries, formed when it is taken (R100). -/
def State.transferBytes (s : State) (r : Role) : Transfer → List Byte
  | .shows f => s.fieldBytes r f
  | .status => []

/-- The flight of a picked entry: its first transfer is on the bus. A ZERO frame serves the sale whose grade is fixed as it is taken; one
that is taken before shows no sale's zero (R15, R107, R109; log 16). -/
def State.launch (s : State) (e : Entry) : Flight :=
  let ts := s.transfers e
  let now := ts.headD .status
  { entry := e, now := now, bytes := s.transferBytes e.role now, rest := ts.tail, onBus := true, dropped := false,
    serial :=
      match e.kind, sideOfSale e.role with
      | .zero, some d => if (s.fp.get d).gate1 then some (s.fp.get d).saleSerial else none
      | _, _ => none }

/-- A transfer of the controller goes on the bus. -/
def State.putOnBus (s : State) (f : Flight) : State :=
  s.updDisp (fun x => { x with flight := some f, bus := .own, wire := f.now.wire (s.head f.entry.role).addr f.bytes })

/-- The controller's frame leaves the bus with a stop. -/
def State.endFlight (s : State) : State := s.updDisp (fun x => ({ x with flight := none } : Display).freeBus)

/-- The spacing of a head restarts when a SALE or ZERO frame to it has ended (R108). -/
def State.startSpacing (s : State) (e : Entry) : State :=
  if e.kind = .sale ∨ e.kind = .zero then s.updHead e.role (fun h => { h with spacing := some 100 }) else s

/-! ## Head states (R102, R106, R111) -/

/-- The sale head leaves READY: the message order in flight completes UNAVAILABLE with the new head state (R111). -/
def State.messageDown (s : State) (d : Side) (r : Role) : State :=
  (s.completeOpt (s.disp.lines.get d).order .unavailable (headDetail (s.head r).state)).updLine d (fun l => { l with order := none })

/-- What follows a head's change of state (R102, R106): DISPLAY, the message in flight, the fueling point. -/
def State.headChanged (s : State) (r : Role) (old : HeadState) : State :=
  if (s.head r).state = old then s
  else
    let t := s.attn .display
    match sideOfSale r with
    | none => t
    | some d => (if old = .ready then t.messageDown d r else t).headReport d

/-- A head enters READY or HEATING from PROBING or FAILED (R102, R104, R105): a SALE entry is then due at once (R108). That this entry alone counts
there, and not a change between READY and HEATING, is the model's choice (log 90). -/
def State.headUp (s : State) (r : Role) (st : HeadState) : State :=
  let old := (s.head r).state
  let t := s.updHead r (fun h => { h with state := st, fails := 0, refresh := some 1000, probe := none, spacing := none,
                                          stale := if (sideOfSale r).isSome then some 2500 else none })
  (t.updDisp (fun x => (x.purge r (fun k => decide (k = .probe))).request r .refresh)).headChanged r old

/-- A head enters FAILED (R102, R103): its entries leave the queue and its probe timer starts. -/
def State.headFailed (s : State) (r : Role) (why : FailReason) : State :=
  let old := (s.head r).state
  let t := s.updHead r (fun h => { h with state := .failed, reason := some why, refresh := none, stale := none, spacing := none,
                                          probe := if old = .failed then h.probe else some 2000 })
  (t.updDisp (fun x => x.purge r (fun _ => true))).headChanged r old

/-- A head moves between READY and HEATING at a refresh (R102). R108 has a SALE entry due at once when no SALE or ZERO frame has been sent "since the
head entered READY or HEATING", and does not say whether this change is such an entry. That it is not, the 100 ms of the spacing running on over it,
is the model's choice (log 90). -/
def State.headShift (s : State) (r : Role) (st : HeadState) : State :=
  let old := (s.head r).state
  (s.updHead r (fun h => { h with state := st })).headChanged r old

/-- A completed frame (R101): the last-completed time, the count, the stale deadline of a sale head. -/
def State.frameDone (s : State) (r : Role) : State :=
  s.updHead r (fun h => { h with fails := 0, lastDone := s.rtc, stale := h.stale.map (fun _ => 2500) })

/-- A failed attempt of a frame (R101, R103). The frame has left the bus. Each writes its reason; the probe of a FAILED head adds nothing to
the count. -/
def State.attemptFailed (s : State) (e : Entry) (why : FailReason) : State :=
  let h := s.head e.role
  if e.kind = .probe then
    if h.state = .probing then
      let t := s.updHead e.role (fun h => { h with fails := h.fails + 1, reason := some why })
      if 3 ≤ h.fails + 1 then t.headFailed e.role .probe else t.updDisp (fun x => x.putBack e)
    else if h.state = .failed then s.updHead e.role (fun h => { h with reason := some why })
    else s
  else
    let t := (s.updHead e.role (fun h => { h with fails := h.fails + 1, reason := some why })).startSpacing e
    if 3 ≤ h.fails + 1 then t.headFailed e.role why else t.updDisp (fun x => x.putBack { e with retry := true })

/-- The end of the controller's frame as a failed attempt, unless its outcome is dropped (R101). -/
def State.flightFailed (s : State) (f : Flight) (why : FailReason) : State :=
  if f.dropped then s else (s.attemptFailed f.entry why).checkProbing

/-- The sale head acknowledges a MESSAGE field that carries the line's text (R111): the order completes OK and the duration timer
starts, once (log 38). -/
def State.messageShown (s : State) (d : Side) (bytes : List Byte) : State :=
  let l := s.disp.lines.get d
  if bytes = l.text then
    (s.completeOpt l.order .ok 0).updLine d (fun l =>
      { l with order := none, timer := if l.timer = none ∧ 0 < l.duration then some (1000 * l.duration) else l.timer })
  else s

/-- A SHOW is acknowledged in full (R99): the head's field bytes; a MESSAGE field acts on its line. -/
def State.showAcked (s : State) (r : Role) (f : Field) (bytes : List Byte) : State :=
  let t := s.updHead r (fun h =>
    match f with
    | .sale => { h with sale := bytes }
    | .message => { h with message := bytes }
    | .board => { h with board := bytes })
  match f, sideOfSale r with
  | .message, some d => t.messageShown d bytes
  | _, _ => t

/-- The report of an acknowledged ZERO frame (R15, R109): gate 2 of the sale it was formed for, while it is STARTING (log 16). -/
def State.zeroAcked (s : State) (f : Flight) : State :=
  match f.entry.kind, sideOfSale f.entry.role with
  | .zero, some d =>
    if s.fpState d = .starting ∧ f.serial = some (s.fp.get d).saleSerial then
      (s.updFp d (fun p => { p with gate2 := true })).evalStarting d
    else s
  | _, _ => s

/-- The head state a STATUS byte names (R197). -/
def statusState (b : Byte) : Option HeadState :=
  if b = 1 then some .ready else if b = 2 then some .heating else none

/-- A STATUS read by a probe (R102, R103, R197; log 13). The frame has left the bus. -/
def State.probeAnswer (s : State) (e : Entry) (b : Byte) : State :=
  match statusState b with
  | some st => (s.frameDone e.role).headUp e.role st
  | none => if b = 3 then (s.frameDone e.role).headFailed e.role .segFault else s.attemptFailed e .check

/-- A STATUS read at the end of a refresh (R99, R101, R102, R197; log 39). The frame has left the bus. -/
def State.refreshAnswer (s : State) (e : Entry) (b check : Byte) : State :=
  match statusState b with
  | some st =>
    if check.toNat = (s.head e.role).expected then (s.frameDone e.role).headShift e.role st
    else
      let t := s.headShift e.role st
      t.attemptFailed e .check
  | none => if b = 3 then s.headFailed e.role .segFault else s.attemptFailed e .check

/-- The end of the transfer on the bus, all its bytes acknowledged or read (R99, R101, R104). -/
def State.transferDone (s : State) (f : Flight) (b check : Byte) : State :=
  let r := f.entry.role
  if f.dropped then s.endFlight
  else
    match f.now, f.rest with
    | .status, _ =>
      let t := s.endFlight
      (if f.entry.kind = .probe then t.probeAnswer f.entry b else t.refreshAnswer f.entry b check).checkProbing
    | .shows fld, [] =>
      (((s.endFlight.showAcked r fld f.bytes).frameDone r).startSpacing f.entry).zeroAcked f
    | .shows fld, next :: rest =>
      let t := s.showAcked r fld f.bytes
      t.updDisp (fun x =>
        ({ x with flight := some { f with now := next, rest := rest, onBus := false, bytes := [] } } : Display).freeBus)

/-! ## The address map (R91, R116) -/

/-- A role is newly configured: PROBING with a PROBE entry due at once (R112 step 1, R116); its count is 0 and its reason absent (log 59). -/
def State.configureHead (s : State) (r : Role) : State :=
  let old := s.head r
  let t := s.updHead r (fun h => { Head.unconfigured h.lastDone with addr := (s.mapEntry r).1, source := (s.mapEntry r).2, state := .probing })
  (t.updDisp (fun x => (x.purge r FrameKind.content).enqueue r .probe)).headChanged r old.state

/-- A role is no longer configured: ABSENT, with no entry (R116); its address, count and reason read 0, and it has no source (log 59). -/
def State.removeHead (s : State) (r : Role) : State :=
  let old := s.head r
  let t := s.updHead r (fun h => Head.unconfigured h.lastDone)
  (t.updDisp (fun x => x.purge r (fun _ => true))).headChanged r old.state

/-- A role when the map is read (R91, R116). -/
def State.mapHead (s : State) (r : Role) : State :=
  let h := s.head r
  if s.mapConfigures r then
    if h.state ≠ .absent ∧ h.addr = (s.mapEntry r).1 ∧ h.source = (s.mapEntry r).2 then s else s.configureHead r
  else if h.state = .absent then s else s.removeHead r

/-- The map is read, role by role (R91). That the PROBE entries are queued in role order is the model's choice (log 20). -/
def State.readMap (s : State) : State := allRoles.foldl State.mapHead s

/-- The map is read again when the settings change, once the DISPLAY phase of the wake has read it (R116). -/
def State.rereadMap (s : State) : State :=
  if s.disp.rail = true ∧ s.disp.settle = none then s.readMap.checkProbing else s

/-! ## Wake and standby (R112, R113) -/

/-- Every SHOW_MESSAGE in flight completes UNAVAILABLE with detail NOT_SHOWN, and both lines are cleared (R111). -/
def State.dropMessages (s : State) : State :=
  let one (s : State) (d : Side) : State :=
    (s.completeOpt (s.disp.lines.get d).order .unavailable Reason.notShown.code).updLine d (fun _ => .cleared)
  one (one s .a) .b

/-- The controller at the start of a wake from CLOCK (R92, R112): the head records are written anew, the bus clear count is kept. The bus
status shows FREE while the rail is off (log 15). -/
def Display.wakeReset (x : Display) : Display :=
  { Display.powerUp with
      heads := Eight.ofFun (fun r => Head.unconfigured (x.heads.get r).lastDone), nextAge := x.nextAge, clears := x.clears,
      lines := x.lines }

/-- A configured head at standby entry: PROBING, its timers stopped (R113). -/
def Head.parked (h : Head) : Head :=
  { h with state := if h.state = .absent then .absent else .probing, refresh := none, probe := none, stale := none, spacing := none }

/-- The reset of the controller once the general-call BLANK of a shutdown is sent (R113): queue, heads, rail. The messages were completed and
the lines cleared at standby entry (R111), and no SHOW_MESSAGE is taken in SHUTTING_DOWN (R188). -/
def State.parkDisplay (s : State) : State :=
  let changed := allRoles.any (fun r => decide ((s.head r).parked.state ≠ (s.head r).state))
  let t := s.updDisp (fun x =>
    { x with queue := [], flight := none, call := none, bus := .free, awaitHigh := false, abandoned := false, rail := false,
             settle := none, segTest := none, step := .idle, heads := Eight.ofFun (fun r => (x.heads.get r).parked) })
  t.attnIf changed .display

/-- A BLANK sent by general call: the fields of every head are nothing (R99). -/
def State.blankHeads (s : State) : State :=
  s.updDisp (fun x => { x with heads := Eight.ofFun (fun r => { x.heads.get r with sale := [], message := [], board := [] }) })

/-- The stale deadline of each sale head in READY or HEATING whose deadline the segment test of a wake had stopped starts again (R105). -/
def Display.resumeDeadlines (x : Display) : Display :=
  { x with heads := Eight.ofFun (fun r =>
      let h := x.heads.get r
      if (sideOfSale r).isSome && h.state.shows && h.stale.isNone then { h with stale := some 2500 } else h) }

/-- Step 4 and 5 of R112 after the BLANK: stale deadlines of sale heads, and a REFRESH for every READY and HEATING head. That they are queued in
role order is the model's choice (log 20). -/
def State.endSegmentTest (s : State) : State :=
  let t := s.updDisp (fun x =>
    { x with step := .idle
             heads := Eight.ofFun (fun r =>
               let h := x.heads.get r
               if (sideOfSale r).isSome && h.state.shows then { h with stale := some 2500 } else h) })
  t.updDisp (fun x => allRoles.foldl (fun x r => x.request r .refresh) x)

end Sys2Proof.Machine
end

