-- ==== Sys2Proof/Machine/Links.lean ====
section
/-! DEFINITION. The operations of the reader link units (file 06): state, supply, frames, replies. -/

namespace Sys2Proof.Machine

/-- The isolated supply is on in WARMING and READY (file 06, READER STATES). -/
def ReaderState.supplied : ReaderState → Bool
  | .warming | .ready => true
  | _ => false

/-- The supply of a side's reader is on. -/
def State.supplyOn (s : State) (d : Side) : Bool := (s.rdr.get d).state.supplied

/-! ## Reports to the fueling point (R137) -/

/-- The reader leaves READY: an authorization of origin READER held in AUTHORIZED ends (R12, R137). -/
def State.readerLeft (s : State) (d : Side) : State :=
  match s.fpState d, (s.fp.get d).auth with
  | .authorized, some a => if a.origin = .reader then s.endAuthReady d .authWithdrawn else s
  | _, _ => s

/-- The reader becomes TAMPERED: a sale of origin READER in STARTING, FUELING or PAUSED ends (R137). -/
def State.readerTampered (s : State) (d : Side) : State :=
  if (s.fpState d).endable ∧ (s.sale d).origin = .reader then s.takeCause d .readerTamper else s

/-- A change of reader state: the time, READER_A or READER_B (R117), and the report to the fueling point (R137). -/
def State.setReaderState (s : State) (d : Side) (st : ReaderState) : State :=
  let old := (s.rdr.get d).state
  if old = st then s
  else
    let t := (s.updReader d (fun r => { r with state := st, changed := s.rtc })).attn (readerFlag d)
    let t := if old = .ready then t.readerLeft d else t
    if st = .tampered then t.readerTampered d else t

/-! ## The supply (R119, R120) -/

/-- A mail cell cleared: FREE, its fields zeroed inside one odd span of its revision word (R120, R185). -/
def MailCell.clear (c : MailCell) : MailCell :=
  { rev := (c.rev + 2) % 65536, stateWord := 0, number := 0, length := 0, payload := [] }

/-- Completes the orders of a send list READER_DOWN, head first (R120). -/
def State.completeSends (s : State) (c : OffCause) (xs : List SendOrder) : State :=
  xs.foldl (fun s o => s.complete o.ref .readerDown (offCauseDetail c)) s

/-- The unit with its supply off: cells cleared, list emptied, frame and link timers gone, the cause written (R120, R122). -/
def Reader.cutOff (r : Reader) (c : OffCause) : Reader :=
  { r with cells := r.cells.map MailCell.clear, sends := [], waitHold := false, acceptNext := false, cause := some c, poll := none,
           response := none, warmUp := none, link := .idle, frame := none, held := false }

/-- The supply goes off for a cause and the reader enters a state (R120). -/
def State.cutReader (s : State) (d : Side) (c : OffCause) (st : ReaderState) : State :=
  ((s.completeSends c (s.rdr.get d).sends).updReader d (fun r => r.cutOff c)).setReaderState d st

/-- The last steps of powering a reader (R119 step 3, R133): the supply comes on and the reader is WARMING. -/
def State.warmReader (s : State) (d : Side) : State :=
  (s.updReader d (fun r => { r with miss := 0, warmUp := some 10000, poll := some 20, powerOff := none, acceptNext := false,
                                    waitHold := false })).setReaderState d .warming

/-- A reader is powered (R119). Step 2 reads the tamper level that was last taken (R134; log 54). -/
def State.powerReader (s : State) (d : Side) : State :=
  let r := s.rdr.get d
  if r.fitted = false then s
  else if r.tamper then (s.updReader d (fun r => { r with tamperReleased := false })).setReaderState d .tampered
  else s.warmReader d

/-- A reader that is not OFF becomes OFF (R138): with the cause when its supply was on; its timers stop. -/
def State.readerOff (s : State) (d : Side) (c : OffCause) : State :=
  if s.supplyOn d then s.cutReader d c .off
  else (s.updReader d (fun r => { r with powerOff := none })).setReaderState d .off

/-- A reader that is not OFF becomes OFF with the cause written whether or not its supply was on (R118, R138). -/
def State.readerOffFor (s : State) (d : Side) (c : OffCause) : State :=
  if (s.rdr.get d).state = .off then s
  else (s.readerOff d c).updReader d (fun r => { r with cause := some c })

/-- The reader fitted flags as the working copy holds them (R118). -/
def State.readFitted (s : State) (d : Side) : State := s.updReader d (fun r => { r with fitted := s.readerFitted d })

/-- A reader is powered as at the READERS phase, its power-cycle count 0 (R118, R119). -/
def State.powerFresh (s : State) (d : Side) : State := (s.updReader d (fun r => { r with cycles := 0 })).powerReader d

/-- The fitted flags when the settings change (R118). -/
def State.rereadFitted (s : State) (d : Side) : State :=
  let was := (s.rdr.get d).fitted
  let t := s.readFitted d
  if s.readerFitted d = was then t
  else if s.readerFitted d then
    (if (s.rdr.get d).state = .off ∧ (s.pw.state = .active ∨ s.pw.state = .halted) then t.powerFresh d else t)
  else t.readerOffFor d .notFitted

/-! ## Frames (R121 to R124) -/

/-- A mail cell whose state word reads FREE (R128). -/
def MailCell.free (c : MailCell) : Bool := decide (c.stateWord = 0)

/-- The choice of a frame (R123). -/
def Reader.choose (r : Reader) : LinkKind :=
  match r.state with
  | .ready =>
    if r.sends ≠ [] ∧ r.waitHold = false then .give
    else if r.cells.any MailCell.free then .ask
    else .stay
  | _ => .stay

/-- The head order with its give count raised (R123). -/
def giveHead : List SendOrder → List SendOrder
  | [] => []
  | o :: rest => { o with gives := o.gives + 1 } :: rest

/-- The bytes a link CRC covers: kind, flags, length, payload (R121). -/
def linkBytes (kind flags : Byte) (payload : List Byte) : List Byte :=
  kind :: flags :: BitVec.ofNat 8 payload.length :: payload

/-- The marker byte of every frame (file 11). -/
def linkMarker : Byte := 0x7E

/-- A frame of the controller: its flags byte carries ACCEPT in bit 0 and 0 in the rest, and its CRC follows high byte first (R121, R124,
R197). -/
def linkFrame (k : LinkKind) (accept : Bool) (payload : List Byte) : LinkFrame :=
  let covered := linkBytes (BitVec.ofNat 8 k.code) (BitVec.ofNat 8 (bit accept)) payload
  { kind := k, accept := accept, payload := payload, wire := linkMarker :: (covered ++ bytesBE 2 (crc16 covered).toNat) }

/-- Chooses and sends a frame: the poll timer restarts, the wait hold is cleared, ACCEPT is carried (R122 to R124). -/
def Reader.send (r : Reader) : Reader :=
  let k := r.choose
  { r with frame := some (linkFrame k r.acceptNext (if k = .give then (r.sends.head?.map SendOrder.payload).getD [] else []))
           sends := if k = .give then giveHead r.sends else r.sends
           link := .sending, held := false, waitHold := false, acceptNext := false, poll := some 20, response := none }

/-- The wait for a reply ends; a held frame is then chosen and sent, while the supply is on (R122). -/
def Reader.endWait (r : Reader) : Reader :=
  let q := { r with link := .idle, response := none, frame := none }
  if r.held && r.state.supplied then q.send else q

/-! ## Replies (R121, R125 to R127, R131, R132) -/

/-- A miss: counted in READY, where the third loses the reader (R131, R132). -/
def State.readerMiss (s : State) (d : Side) : State :=
  let r := s.rdr.get d
  if r.state = .ready then
    let t := s.updReader d (fun r => { r with miss := r.miss + 1 })
    if 3 ≤ r.miss + 1 then
      (t.cutReader d .misses .lost).updReader d (fun r => { r with powerOff := some 500 })
    else t
  else s

/-- The fields of a reply as it is read (R121). -/
structure Reply where
  kind : Byte
  flags : Byte
  payload : List Byte
  crc : Word16
  deriving DecidableEq, Repr, Inhabited

/-- The reply that received bytes hold once it is whole (R121): bytes before the marker are skipped, a length above 64 is never whole,
and bytes after the CRC are discarded (R122). -/
def wholeReply (bytes : List Byte) : Option Reply :=
  match bytes.dropWhile (fun b => decide (b ≠ linkMarker)) with
  | _ :: kind :: flags :: length :: rest =>
    let n := length.toNat
    if n ≤ 64 ∧ n + 2 ≤ rest.length then
      some { kind := kind, flags := flags, payload := rest.take n, crc := BitVec.ofNat 16 (natBE ((rest.drop n).take 2)) }
    else none
  | _ => none

/-- The kind of a reply that is valid (R121): its CRC matches, its kind is a reply kind, its length suits the kind. -/
def Reply.valid (x : Reply) : Option ReplyKind :=
  match replyKindOf x.kind with
  | none => none
  | some k =>
    if x.crc = crc16 (linkBytes x.kind x.flags x.payload)
        ∧ (if k = .take then 1 ≤ x.payload.length ∧ x.payload.length ≤ 64 else x.payload.length = 0) then some k
    else none

/-- The mail number after one (R125). -/
def nextMailNumber (n : Nat) : Nat := if n = 255 then 1 else n + 1

/-- Fills the lowest-numbered FREE cell, if there is one (R125): its payload bytes past the length read 0 (log 60). -/
def fillCell (number : Nat) (payload : List Byte) : List MailCell → Option (List MailCell)
  | [] => none
  | c :: rest =>
    if c.free then
      some ({ rev := (c.rev + 2) % 65536, stateWord := 1, number := number, length := payload.length, payload := payload } :: rest)
    else (fillCell number payload rest).map (fun xs => c :: xs)

/-- A TAKE in answer to ASK (R125). -/
def State.storeMail (s : State) (d : Side) (payload : List Byte) : State :=
  let r := s.rdr.get d
  match fillCell r.nextMail payload r.cells with
  | none => s
  | some cells =>
    (s.updReader d (fun r => { r with cells := cells, nextMail := nextMailNumber r.nextMail, acceptNext := true })).attn (mailFlag d)

/-- A GOT, WAIT or REJECT in answer to GIVE (R127). -/
def State.giveAnswer (s : State) (d : Side) (k : ReplyKind) : State :=
  match (s.rdr.get d).sends with
  | [] => s
  | o :: rest =>
    match k with
    | .got => (s.updReader d (fun r => { r with sends := rest })).complete o.ref .ok o.gives
    | .wait => s.updReader d (fun r => { r with waitHold := true })
    | .reject =>
      if 3 ≤ o.rejects + 1 then (s.updReader d (fun r => { r with sends := rest })).complete o.ref .rejected o.gives
      else s.updReader d (fun r => { r with sends := { o with rejects := o.rejects + 1 } :: rest })
    | _ => s

/-- A valid reply by the frame it answers (R125 to R127). -/
def State.replyAction (s : State) (d : Side) (f : LinkKind) (k : ReplyKind) (payload : List Byte) : State :=
  match f with
  | .ask => if k = .take then s.storeMail d payload else s
  | .give => s.giveAnswer d k
  | .stay => s

/-- The ready mark of a valid reply (R131, R132). -/
def State.readiness (s : State) (d : Side) (ready : Bool) : State :=
  match (s.rdr.get d).state, ready with
  | .warming, true => (s.updReader d (fun r => { r with warmUp := none, miss := 0, cycles := 0 })).setReaderState d .ready
  | .ready, false => (s.updReader d (fun r => { r with warmUp := some 10000, cycles := 0 })).setReaderState d .warming
  | _, _ => s

/-- A valid reply (R126, R132): the miss count, its kind, its ready mark. -/
def State.replyTaken (s : State) (d : Side) (f : LinkKind) (k : ReplyKind) (x : Reply) : State :=
  ((s.updReader d (fun r => { r with miss := 0 })).replyAction d f k x.payload).readiness d (x.flags.toNat.testBit 0)

end Sys2Proof.Machine
end

