-- ==== Sys2Proof/Machine/StoreOps.lean ====
section
/-! DEFINITION. The operations of the metrology store port (file 09): load, log, the tests of store-writing orders, store writes. -/

namespace Sys2Proof.Machine

/-- The bytes before the image's CRC. -/
def crcAddr : Nat := imageBody

/-! ## Load (R172) -/

/-- The port after the store has been read and judged (R172): absent for a format byte of 0x00 or 0xFF, otherwise loaded. A rewrite-all mark
stands, also at a reload, which replaces the working copy (R171, R173): the model's choice (log 68). -/
def StorePort.load (x : StorePort) (image : List Host.Cell) : StorePort :=
  let whole := Memory.ofCells storeImageSize image
  let m := Memory.ofCells imageBody image
  if whole.read 0 = 0 ∨ whole.read 0 = 0xFF then
    { x with copy := none, absent := true, fault := false, mirror := [], logFull := false }
  else
    { x with copy := some m, refCrc := BitVec.ofNat 16 (whole.field crcAddr 2), absent := false,
             fault := decide ((imageCrc m).toNat ≠ whole.field crcAddr 2), mirror := logEntries m, logFull := decide (32 ≤ logCount m) }

/-- METROLOGY follows a change of METROLOGY_ABSENT or METROLOGY_FAULT, and the setting of LOG_FULL (R172, R180). -/
def State.flagMetrology (s : State) (old : StorePort) : State :=
  s.attnIf (decide (s.store.absent ≠ old.absent) || decide (s.store.fault ≠ old.fault) || (s.store.logFull && !old.logFull)) .metrology

/-- The calibration in use of each meter follows the working copy (R38, R54). -/
def State.loadK (s : State) : State :=
  allMeters.foldl (fun s m => s.updMeter m (fun c => { c with k := s.copyK m, cal := s.copyCal m })) s

/-- The store is read and judged: the port, METROLOGY, the reload-required mark, K in use (R156, R172). -/
def State.loadStore (s : State) (image : List Host.Cell) : State :=
  ((((s.updStore (fun x => x.load image)).flagMetrology s.store).updHalt (fun h => { h with reload := false }))).loadK

/-- A meter takes new calibration values, and its unassigned accumulator returns to 0 (R38). -/
def State.takeCalibration (s : State) (m : Meter) : State :=
  s.updMeter m (fun c => { c with k := s.copyK m, cal := s.copyCal m, unAcc := 0, unV := 0 })

/-- The user blocks are told of new settings: the map, the fitted flags, the price boards (R173, R178). That the BOARD entries of PRICE-A and its
mirrors are queued before those of PRICE-B (R90, R100) is the model's choice (log 20). -/
def State.tellUsers (s : State) : State :=
  (((s.rereadMap.rereadFitted .a).rereadFitted .b).requestBoard .a).requestBoard .b

/-! ## The log (R180) -/

/-- The working copy, empty when there is none. -/
def StorePort.image (x : StorePort) : Memory := x.copy.getD []

/-- Adds an entry in the next place of an image: the entry, the entry count with its pad byte, the next event number (R180, R196). -/
def addEntry (m : Memory) (e : LogEntry) : Memory :=
  ((m.writeAll (logPlaceAddr (logCount m)) e.bytes).writeAll 184 (bytesBE 1 (logCount m + 1) ++ pad 1)).writeAll 186
    (bytesBE 8 (e.event + 1))

/-- The pad bytes of every parameter block of an image written 0 (R196; file 11, the image's layout). -/
def clearPads (m : Memory) : Memory :=
  (allMeters.foldl (fun m x => m.writeAll (meterAddr x + 18) (pad 2)) m).writeAll (settingsAddr + 21) (pad 1)

/-- Removes every entry of an image's log (R179). -/
def clearEntries (m : Memory) : Memory := (m.writeAll 184 [0]).writeAll (logPlaceAddr 0) (pad 960)

/-- What a store-writing order adds to the log (R180). -/
structure LogChange where
  kind : LogKind
  param : Nat
  old : Nat
  new : Nat
  oldCheck : Nat
  newCheck : Nat
  deriving DecidableEq, Repr, Inhabited

/-- The entry of a change, under the next event number of an image (R180). -/
def LogChange.entry (c : LogChange) (m : Memory) (now : Word32) : LogEntry :=
  { event := nextEvent m, kind := c.kind.code, param := c.param, old := c.old, new := c.new, oldCheck := c.oldCheck,
    newCheck := c.newCheck, time := now.toNat }

/-! ## Store writes (R181) -/

/-- The pages of `n` bytes from an address on, each of up to 32 bytes (file 09; log 10). -/
def pagesOf (m : Memory) (fuel a n : Nat) : List StorePage :=
  match fuel with
  | 0 => []
  | k + 1 => if n = 0 then [] else { addr := a, bytes := m.readAll a (min 32 n) } :: pagesOf m k (a + 32) (n - 32)

/-- The pages of one part of an order's write, with the image as it stands when the part begins (R181; log 10). -/
def StorePort.partPages (x : StorePort) (o : StoreOrder) : StorePart → List StorePage
  | .log =>
    if o.wholeLog || x.rewriteAll then pagesOf x.image 40 184 970
    else pagesOf x.image 40 (logPlaceAddr o.place) 30 ++ pagesOf x.image 40 184 10
  | .block =>
    if x.rewriteAll then pagesOf x.image 40 2 182
    else
      match o.block with
      | .none => []
      | .meter m => pagesOf x.image 40 (meterAddr m) 20
      | .settings => pagesOf x.image 40 2 40 ++ pagesOf x.image 40 settingsAddr 22
  | .crc => [{ addr := crcAddr, bytes := bytesBE 2 (imageCrc x.image).toNat }]

/-- The part that follows a part. -/
def StorePart.next : StorePart → Option StorePart
  | .log => some .block
  | .block => some .crc
  | .crc => none

/-- The port as a part of a write begins: a rewrite of every parameter block writes their pad bytes as 0 (R181, R196). -/
def StorePort.padded (x : StorePort) (p : StorePart) : StorePort :=
  if p = .block ∧ x.rewriteAll = true then { x with copy := x.copy.map clearPads } else x

/-- Begins a part of an order's write; a part with no page is passed over (R181). -/
def StorePort.beginPart (x : StorePort) (o : StoreOrder) (p : StorePart) : StorePort :=
  let y := x.padded p
  match y.partPages o p with
  | page :: rest => { y with write := some { part := p, page := page, rest := rest, crc := imageCrc y.image } }
  | [] => { y with write := (y.partPages o .crc).head?.map (fun page => { part := .crc, page := page, rest := [], crc := imageCrc y.image }) }

/-- Begins the write at the head of the list when none is in progress; none is begun while the device is POWER_FAIL (R181). -/
def State.beginWrite (s : State) : State :=
  match s.store.list, s.store.write with
  | o :: _, none => if s.pw.state = .powerFail then s else s.updStore (fun x => x.beginPart o .log)
  | _, _ => s

/-- The write in progress has ended with its CRC read back good (R181). -/
def State.writeGood (s : State) (w : StoreWrite) : State :=
  match s.store.list with
  | [] => s.updStore (fun x => { x with write := none })
  | o :: rest =>
    let was := s.store.fault
    let t := s.updStore (fun x => { x with write := none, list := rest, refCrc := w.crc, fault := false, rewriteAll := false })
    (((t.attnIf was .metrology).reviewBoth).complete o.ref .ok o.event).beginWrite

/-- The write in progress has failed (R181). -/
def State.writeBad (s : State) : State :=
  match s.store.list with
  | [] => s.updStore (fun x => { x with write := none })
  | o :: rest =>
    let t := s.updStore (fun x => { x with write := none, list := rest, rewriteAll := true })
    ((t.attn .metrology).complete o.ref .unavailable Reason.storeWrite.code).beginWrite

/-- A page has been written and read back good: the next page, the next part, or the end of the write (R181). A part that would be formed
from a working copy that a device reset has discarded is not begun, and the write is over (R171; log 55). -/
def State.pageGood (s : State) (w : StoreWrite) : State :=
  match w.rest with
  | page :: rest => s.updStore (fun x => { x with write := some { w with page := page, rest := rest } })
  | [] =>
    match w.part.next, s.store.list with
    | some p, o :: _ => s.updStore (fun x => if x.copy = none then { x with write := none } else x.beginPart o p)
    | _, _ => s.writeGood w

/-! ## Store-writing orders (R176) -/

/-- The tests of R176, in their order; `own` is the order's own state condition with its detail. -/
def State.storeTest (s : State) (clears : Bool) (own : Option Nat) : Option (ResultCode × Nat) :=
  if s.store.absent then some (.unavailable, Reason.metrologyAbsent.code)
  else if s.store.switchOn = false then some (.switchOff, 0)
  else if clears = false ∧ 32 ≤ logCount s.store.image then some (.logFull, 0)
  else if 4294967295 < nextEvent s.store.image then some (.logFull, Reason.eventNumber.code)
  else
    match own with
    | some detail => some (.wrongState, detail)
    | none =>
      if s.store.reloadDue || s.store.reloading then some (.wrongState, Reason.reload.code)
      else if 16 ≤ s.store.list.length then some (.unavailable, Reason.listFull.code)
      else none

/-- A store-writing order takes effect on the working copy and the log, and joins the store-write list (R176, R180). -/
def State.storeEffect (s : State) (o : Order) (block : ParamBlock) (wholeLog : Bool) (image : Memory) (c : LogChange) : State :=
  let e := c.entry image s.rtc
  let m := addEntry image e
  let t := s.updStore (fun x =>
    { x with copy := some m, mirror := logEntries m, logFull := decide (32 ≤ logCount m),
             list := x.list ++ [{ ref := o.ref, block := block, wholeLog := wholeLog, event := e.event, place := logCount image }] })
  (t.attnIf (t.store.logFull && !s.store.logFull) .metrology).beginWrite

/-- The body of CALIBRATE is in range (R177); otherwise the offset of the first field that is not, in the order of the body: the model's choice
(log 25, log 63). -/
def State.calibrateField (s : State) (n : Nat) : Option Nat :=
  let k := s.bodyField n 0 4
  let b1 := s.bodyField n 4 2
  let b2 := s.bodyField n 6 2
  let b3 := s.bodyField n 8 2
  let bad (v : Nat) : Bool := decide (signedOf 16 v < -20000) || decide (20000 < signedOf 16 v)
  if k < 200000 ∨ 2000000 < k then some 0
  else if b1 < 1 then some 4
  else if b2 ≤ b1 then some 6
  else if b3 ≤ b2 ∨ 2000 < b3 then some 8
  else [10, 12, 14, 16].find? (fun o => bad (s.bodyField n o 2))

/-- The value of a body field is out of a range. -/
def outside (v lo hi : Nat) : Bool := decide (v < lo) || decide (hi < v)

/-- The first field of SET_SETTINGS out of its range, in the order of the body (R178): the model's choice (log 63). Of a grade entry the byte
offset of its own enabled flag, hose or share is named, where the table of R178 has the entry as one field: the model's choice (log 87). -/
def State.settingsField (s : State) (n : Nat) : Option Nat :=
  let f (off len : Nat) : Nat := s.bodyField n off len
  let plain : List (Nat × Bool) :=
    [(0, outside (f 0 2) 10 200), (2, outside (f 2 2) 5 50), (4, outside (f 4 2) 200 3000), (6, outside (f 6 2) 0 10)]
  let grades : List (Nat × Bool) :=
    ((List.range 10).map (fun i =>
      let o := 8 + 4 * i
      [(o, outside (f o 1) 0 1), (o + 1, decide (f (o + 1) 1 ≠ (if i % 5 = 4 then 2 else 1))), (o + 2, outside (f (o + 2) 2) 0 1000)])).flatten
  let addrs : List (Nat × Bool) := (List.range 8).map (fun i => (48 + i, decide (f (48 + i) 1 ≠ 0) && outside (f (48 + i) 1) 0x08 0x77))
  let sources : List (Nat × Bool) := (List.range 4).map (fun i => (56 + i, outside (f (56 + i) 1) 1 4))
  ((plain ++ grades ++ addrs ++ sources).find? (fun x => x.2)).map Prod.fst

/-- The image with the settings and grade tables of a body (R178; file 11, the image's layout). -/
def State.settingsImage (s : State) (n : Nat) (m : Memory) : Memory :=
  ((m.writeAll 2 (s.bodyBytes n 8 40)).writeAll settingsAddr (s.bodyBytes n 0 8)).writeAll (settingsAddr + 8) (s.bodyBytes n 48 13 ++ [0])

/-- The fields of the settings block, by address and length in the image, the fitted flags apart (log 26). -/
def settingFields : List (Nat × Nat) :=
  [(162, 2), (164, 2), (166, 2), (168, 2)] ++ (List.range 10).map (fun i => (2 + 4 * i, 4))
    ++ (List.range 12).map (fun i => (170 + i, 1))

/-- The number of settings fields that differ (R180; log 26). -/
def settingsDiffer (m q : Memory) : Nat :=
  (settingFields.filter (fun x => decide (m.field x.1 x.2 ≠ q.field x.1 x.2))).length
    + bit (decide ((m.field 182 1).testBit 0 ≠ (q.field 182 1).testBit 0))
    + bit (decide ((m.field 182 1).testBit 1 ≠ (q.field 182 1).testBit 1))

/-- The first meter total of INIT_TOTALS out of its range, in the order of the body (R179): the model's choice (log 63). -/
def State.totalsField (s : State) (n : Nat) : Option Nat :=
  ([0, 8, 16, 24, 32, 40].find? (fun o => decide (999999999999 < s.bodyField n o 8)))

end Sys2Proof.Machine
end

