-- ==== Sys2Proof/Machine/Supply.lean ====
section
/-! DEFINITION. The operations of the power sequencer over the other blocks (file 08): wake, shutdown, power-fail, reset, retention. -/

namespace Sys2Proof.Machine

/-! ## Exchange memory zeroed (R117, R145, R195) -/

/-- A fueling point rewritten after zeroing: hose positions, lift times and calling hose are kept (R2, R5). It is UNAVAILABLE or LOCKED as R2
writes it, and the overrun base and its measure are dropped, also where a power-fail warning holds the wake off and an interrupted sale is
still metered (R26, R49, R53, R167): the model's choices (log 62). So is the lock-flow measure of a lock of cause UNAUTH_FLOW, though decoding
goes on there (R31, R51): the model's choice (log 80). -/
def FuelPoint.rewritten (f : FuelPoint) (locked : Bool) : FuelPoint :=
  { FuelPoint.powerUp locked with lift1 := f.lift1, lift2 := f.lift2, calling := f.calling, saleSerial := f.saleSerial,
                                  limit := f.limit, slowMargin := f.slowMargin }

/-- A channel's meter record rewritten after zeroing: a rate of 0 and band 1. The calibration in use stands, as the working copy gave it:
the channel goes on counting with it where a power-fail warning holds the wake off (R53, R54; log 55), with the correction of band 1 up to
the next sub-window expiry (R43): the model's choice (log 73). -/
def Channel.rewritten (c : Channel) : Channel := { c with rate := 0, band := .b1 }

/-- A reader status record rewritten after zeroing (R117): the input levels and the released-since marks are kept. -/
def Reader.rewritten (r : Reader) : Reader :=
  { Reader.powerUp with tamper := r.tamper, overcurrent := r.overcurrent, tamperReleased := r.tamperReleased,
                        supplyReleased := r.supplyReleased, changed := r.changed }

/-- Every revision word 0, every record but the log mirror to be rewritten in the event (R185, R195). -/
def Revisions.zeroed : Revisions :=
  { device := 0, fp := ⟨0, 0⟩, table := 0, price := 0, meters := ⟨⟨0, 0, 0⟩, ⟨0, 0, 0⟩⟩, halt := 0, readers := ⟨0, 0⟩,
    mirror := List.replicate 32 0, force := allRecords, wrote := [], reads := 0 }

/-- The port zeroed (R183, R195). A port that slept since STANDBY is awake from then on, also where a power-fail warning holds the wake of
R160 and R194 off: the model's choice (log 66). -/
def Port.zeroed : Port :=
  { attn := 0, enable := 0, awake := false, asleep := false, posts := [], takes := List.replicate 16 0, lastIgnored := none, hsdo := none }

/-- Exchange memory is zeroed and every owner rewrites its record; the held halt code is dropped, and the working copy and the rewrite-all
mark are discarded (R2, R55, R66, R77, R117, R145, R171, R195; log 55). -/
def State.zeroExchange (s : State) : State :=
  { s with
    mem := []
    port := .zeroed
    rev := { Revisions.zeroed with wrote := s.rev.wrote, reads := s.rev.reads }
    fp := ⟨s.fp.a.rewritten s.ret.sides.a.locked, s.fp.b.rewritten s.ret.sides.b.locked⟩
    vlv := ⟨.powerUp, .powerUp⟩
    met := ⟨s.met.a.map Channel.rewritten, s.met.b.map Channel.rewritten⟩
    price := ⟨none⟩
    rdr := ⟨s.rdr.a.rewritten, s.rdr.b.rewritten⟩
    halt := .powerUp
    store := { s.store with mirror := [], copy := none, rewriteAll := false }
    pw := { s.pw with standbyOrder := none } }

/-- The log mirror is zeroed with the rest: what the revision words are counted from when an event zeroes exchange memory (R180). -/
def State.mirrorCleared (s : State) : State := s.updStore (fun x => { x with mirror := [] })

/-! ## The start of a wake (R153) -/

/-- The values a channel holds are discarded; its record stays as it stood (R31, R54; log 47). -/
def Channel.discarded (c : Channel) : Channel :=
  { Channel.powerUp with rate := c.rate, band := c.band, k := c.k, cal := c.cal }

/-- Decoding stops (R31): the lock-flow measure of each side is dropped (R51). That the mark of its report made falls with it, so that the report
"once per lock" can be made again in the same lock after the wake, is the model's choice (log 89). -/
def State.stopDecoding (s : State) : State :=
  { s with
    met := ⟨s.met.a.map Channel.discarded, s.met.b.map Channel.discarded⟩
    fp := ⟨{ s.fp.a with lockFlow := none, lockFlowMade := false }, { s.fp.b with lockFlow := none, lockFlowMade := false }⟩
    pw := { s.pw with decoding := false } }

/-- The store-write list is emptied; each order in it completes UNAVAILABLE with detail NOT_WRITTEN (R181). -/
def State.dropStoreList (s : State) : State :=
  let t := s.store.list.foldl (fun s o => s.complete o.ref .unavailable Reason.notWritten.code) s
  t.updStore (fun x => { x with list := [], write := none, copy := none, rewriteAll := false, check := none, reloadDue := false,
                                reloading := false })

/-- The power sequencer at the first event of a wake (R153, R154). -/
def Power.waking (p : Power) (c : WakeCause) : Power :=
  { p with phase := .clock, pll := false, lastWake := c, osc := true, drives := false, cold := false, crystalWatch := some 20, lockWait := none,
           pllRetried := false, resetPending := false, hold := none, resetHold := none, resetMax := none, standbyOrder := none,
           wakeRequest := none, blanked := false }

/-- A wake begins from CLOCK (R112, R153, R171, R181). -/
def State.wakeStart (s : State) (c : WakeCause) : State :=
  let t := ((s.setPowerState .waking).updPower (fun p => p.waking c)).attn .power
  let t := (t.setWakeTime 0).updPort (fun p => { p with asleep := false })
  let t := (t.dropMessages.updDisp Display.wakeReset).dropStoreList
  t.stopDecoding

/-! ## The phases of a wake (R156 to R158) -/

/-- Decoding begins (R31): a channel reads its level pair; the calibration in use stays. -/
def Channel.begin (c : Channel) (p : LevelPair) : Channel := { Channel.powerUp with phase := p, k := c.k, cal := c.cal }

/-- The lock-flow measure of a side LOCKED for UNAUTH_FLOW starts at 0 (R51). R51 has FLOW_AFTER_CLOSE reported once per lock and a new measure
begun at a wake; whether the new measure of a lock not yet cleared can be reported again it leaves open. That it can, the mark of a report made being
cleared here, is the model's choice (log 89). -/
def State.startLockFlow (s : State) (d : Side) : State :=
  if s.fpState d = .locked ∧ (s.ret.sides.get d).lockCause = some .unauthFlow then
    s.updFp d (fun f => { f with lockFlow := some 0, lockFlowMade := false })
  else s

/-- Decoding begins on the six channels, and their meter records are rewritten (R31, R54, R157 step 4; log 35). -/
def State.startDecoding (s : State) (levels : Sides (Three LevelPair)) : State :=
  let side (d : Side) : Three Channel :=
    let x := s.met.get d
    let l := levels.get d
    ⟨x.p1.begin l.p1, x.p2.begin l.p2, x.p3.begin l.p3⟩
  let t := ({ s with met := ⟨side .a, side .b⟩ }).updPower (fun p => { p with decoding := true })
  (allMeters.map RecordId.meter).foldl State.rewrite ((t.startLockFlow .a).startLockFlow .b)

/-- Retention memory after its initialization (R169): the version and the prices of a set that is absent stand where they were (R86). -/
def Retention.initialized (r : Retention) : Retention :=
  { r.setsCleared with intact := true, totalsInvalid := true, wakeTime := 0, sides := Retention.never.sides, meters := Retention.never.meters }

/-- The records that publish retained values: the owners rewrite them when retention memory is initialized (R88, R169). -/
def retainedRecords : List RecordId := [.fpA, .fpB, .price] ++ allMeters.map RecordId.meter

/-- Retention memory is initialized, its parts written, and the records that publish it are rewritten (R88, R169, R170). -/
def State.initRetention (s : State) : State :=
  let t := ({ s with ret := s.ret.initialized, rtc := 0, rev := s.rev.wroteTo initParts }).updPower (fun p => { p with totalsInvalid := true })
  retainedRecords.foldl State.rewrite (((t.setPriceOrder none).setFpState .a .unavailable).setFpState .b .unavailable)

/-- A cut-off sale as its finalization takes it up: its volume and its amount are computed from the product volumes that retention memory holds
and from the price latched in it (R44, R45, R53, R84), and one that was cut off with no warning taken ends with POWER_LOSS (R157 step 2). So
does an INTERRUPTED one whose retained end cause is absent, as a failed read-back can leave it: the model's choice (log 75); and a sale without a grade takes what stands in the place of its price
(log 88). -/
def Sale.cutOff (x : Sale) : Sale := { x.recompute with endCause := some (x.endCause.getD .powerLoss) }

/-- The parts that a finalization writes before the work of R24, each where it changes the value held (R170): the figures, where they do not
follow from the product volumes, and the end cause of a sale that has none (R157 step 2). That figures which follow are not written anew is
the model's choice (log 88). -/
def Sale.cutParts (x : Sale) : List SalePart :=
  (if x.recompute = x then [] else [.figures]) ++ (if x.endCause.isSome then [] else [.endCause])

/-- A fueling point in the RETENTION phase: an interrupted or open sale is finalized, its amount being computed with its latched price, and the
lock is read back (R2, R26, R84, R157). -/
def State.finalizeFp (s : State) (d : Side) : State :=
  let rest (s : State) : State := s.setFpState d (if (s.ret.sides.get d).locked then .locked else .unavailable)
  if (s.sale d).status = .opened ∨ (s.sale d).status = .interrupted then
    let t := (s.updSale d (s.sale d).cutParts Sale.cutOff).closeOut d
    if (t.sale d).endsInLock ∨ (t.sale d).endCause = some .halt then t.lockFp d (t.sale d).lockCause else rest t
  else rest s

/-- A retained pending set is applied to both sides, whatever its marks show, and cleared (R87). No board head takes an entry then (R100, R112),
so the order of the sides shows nowhere. -/
def State.applyRetained (s : State) : State := ((s.applySet .a false).applySet .b false).finishPending

/-- The RETENTION phase up to decoding (R157). -/
def State.retentionPhase (s : State) : State :=
  if s.ret.intact then
    (((s.updPower (fun p => { p with totalsInvalid := s.ret.totalsInvalid })).finalizeFp .a).finalizeFp .b).applyRetained
  else s.initRetention

/-- The DISPLAY phase begins: the display rail comes on and its settle time starts (R158). -/
def State.enterDisplay (s : State) : State :=
  (s.setPhase .display).updDisp (fun x => { x with rail := true, awaitHigh := true, settle := some 100, step := .settling })

/-- A motor enters FAULT (R73). -/
def MotorRec.faulted (r : MotorRec) (now : Word32) : MotorRec := { r with state := .fault, faultTime := some now, timer := none }

/-- The DRIVES phase: the outputs are enabled, and a motor whose trip input reads asserted enters FAULT (R55, R66). -/
def State.drivesPhase (s : State) : State :=
  let one (s : State) (m : Product) : State :=
    if (s.motor m).trip = true ∧ (s.motor m).state ≠ .fault then (s.updMotor m (fun r => r.faulted s.rtc)).attn .motor else s
  one (one (one (s.updPower (fun p => { p with drives := true })) .p1) .p2) .p3

/-- A fitted reader is powered in the READERS phase with its power-cycle count 0 (R118, R119). -/
def State.readersPhase (s : State) : State :=
  let one (s : State) (d : Side) : State := (s.readFitted d).powerFresh d
  one (one s .a) .b

/-- The wake ends (R143, R158): HALTED with a held code, ACTIVE otherwise. -/
def State.wakeEnd (s : State) : State :=
  let t := (s.updPower (fun p => { p with phase := .none, devReset := false })).attn .power
  match t.halt.held with
  | some r => (t.updHalt (fun h => { h with held := none })).enterHalt r
  | none => ((t.setPowerState .active).requeueMotors).reviewBoth

/-! ## Power-fail actions (R164, R166) -/

/-- A fueling point at a power-fail warning or device reset (R4, R12, R26). -/
def State.interruptFp (s : State) (d : Side) (c : Cause) : State :=
  let cut (s : State) : State :=
    ((s.updSale d [.status] (fun x => { x with status := .interrupted })).updFp d (fun f => { f with settle := none })).requestSale d
  match s.fpState d with
  | .starting | .fueling | .paused => cut (s.endSale d c)
  | .settling => cut s
  | .authorized => (s.endAuth d .authWithdrawn).setFpState d .unavailable
  | .idle | .calling | .finished => s.setFpState d .unavailable
  | .unavailable | .locked => s

/-- The valve outputs are disabled (R55). -/
def State.disableValves (s : State) : State :=
  let one (s : State) (d : Side) : State := s.updValveSide d (fun x => { x with slow := false })
  one (one s.closeAll .a) .b

/-- The valve and motor outputs are disabled (R55, R72). -/
def State.disableDrives (s : State) : State := (s.disableValves.stopDrives).updPower (fun p => { p with drives := false })

/-- The display bus controller when a wake or a shutdown is cut: its sequence ends, and it goes on with its frames (R114; log 18). Where that
ends the segment test, the stale deadlines run again from then on, or from the end of its BLANK where that is on the bus (R105): the model's
choice (log 78). -/
def Display.cutSequence (x : Display) : Display :=
  let y := { x with
    step := .idle, settle := none, segTest := none
    call := match x.call with
      | some c => if c.onBus then some c else none
      | none => none }
  if y.call.map GeneralCall.kind = some .blank then y else y.resumeDeadlines

/-- The halt condition ends at a power-fail warning or device reset (R149). -/
def State.leaveHalt (s : State) : State :=
  if s.halt.halted then (s.updHalt (fun h => { h with halted := false })).attn .halt else s

/-- The POWER_FAIL actions (R164) with a stop cause for open sales and a supply-off cause for the readers. At a device reset too the orders of
the send lists complete READER_DOWN here, before the zeroing of R166 part 3 (R120, R138): the model's choice (log 71). -/
def State.failActions (s : State) (c : Cause) (off : OffCause) : State :=
  let t := s.disableDrives.setPowerState .powerFail
  let t := (t.interruptFp .a c).interruptFp .b c
  let t := (t.readerOffFor .a off).readerOffFor .b off
  let t := (t.updDisp Display.cutSequence).leaveHalt
  let t := t.updPower (fun p => { p with phase := .none, crystalWatch := none, lockWait := none, blanked := false, wakeRequest := none })
  t.updStore (fun x => { x with check := none, reloading := false })

/-! ## Shutdown (R159, R160) -/

/-- Standby entry: the shutdown steps 1 to 3 begin (R76, R113, R138, R160). The messages in flight complete and the lines are cleared at this
entry to SHUTTING_DOWN (R111; 00_scope.md, TERMS, "Standby entry"). The validity timer of a press runs on through standby (R7; log 56). -/
def State.beginShutdown (s : State) : State :=
  let t := (s.setPowerState .shuttingDown).closeAll.stopDrives
  let off (s : State) (d : Side) : State := if (s.rdr.get d).state = .off then s else s.readerOff d .standby
  let t := (off (off t.reviewBoth .a) .b).updStore (fun x => { x with reloadDue := false })
  (t.updPower (fun p => { p with blanked := false })).dropMessages.askCall .blank

/-! ## Device reset (R166, R167) -/

/-- A device reset is taken (R166 parts 1 and 2, R167). -/
def State.deviceReset (s : State) (c : WakeCause) : State :=
  let t := if s.pw.state = .powerFail then s else s.failActions .deviceReset .deviceReset
  t.updPower (fun p => { p with devReset := true, resetPending := true, lastWake := c, standbyOrder := none, resetHold := some 500,
                                resetMax := some 5000 })

end Sys2Proof.Machine
end

