-- ==== Sys2Proof/Machine/Fueling.lean ====
section
/-! DEFINITION. The commands of the fueling points (file 01) and CLEAR_LOCK (R150): orders, hoses, buttons, timers. -/

namespace Sys2Proof.Machine

/-! ## AUTHORIZE (R9, R10) -/

/-- The fields of AUTHORIZE as they are taken; of preset kind NONE the order's value is not read (R9; log 53). -/
structure AuthBody where
  origin : Origin
  level : Level
  mask : Five Bool
  kind : PresetKind
  preset : Nat
  deriving DecidableEq, Repr, Inhabited

/-- Reads the body; a field outside its coded values gives its body offset (R9, R196). Where more than one field is outside, it gives the first
in the order of the body: the model's choice (log 63). -/
def State.authBody (s : State) (n : Nat) : Except Nat AuthBody :=
  match originOf (s.bodyField n 0 1), levelOf (s.bodyField n 1 1), presetKindOf (s.bodyField n 3 1) with
  | none, _, _ => .error 0
  | _, none, _ => .error 1
  | _, _, none => .error 3
  | some o, some l, some k =>
    .ok { origin := o, level := l, mask := maskOf (s.bodyField n 2 1), kind := k,
          preset := if k = .none then (Config.unreadPreset s.free).toNat else s.bodyField n 4 4 }

/-- The grade mask with disabled grades removed (R9, R10). -/
def State.liveMask (s : State) (d : Side) (m : Five Bool) : Five Bool := Five.ofFun (fun g => m.get g && s.gradeEnabled d g)

/-- The reason that names a missing prerequisite (R9); the device state is tested before it. -/
def Prereq.reason : Prereq → Reason
  | .active => .halted
  | .display => .display
  | .metrology => .metrology
  | .noPrices => .noPrices

/-- The tests of R9 in their order: the result and detail of the first that fails. -/
def State.authTest (s : State) (d : Side) (b : AuthBody) : Option (ResultCode × Nat) :=
  if s.pw.state = .halted then some (.unavailable, Reason.halted.code)
  else if s.fpState d = .locked then some (.unavailable, Reason.locked.code)
  else if s.fpState d = .unavailable then some (.unavailable, ((s.firstMissing d).map (fun p => p.reason.code)).getD 0)
  else if s.fpState d ≠ .idle ∧ s.fpState d ≠ .calling then some (.wrongState, fpDetail (s.fpState d))
  else if 3 ≤ (s.ret.sides.get d).list.length then some (.stackFull, 0)
  else if b.origin = .reader ∧ (s.rdr.get d).state ≠ .ready then some (.readerNotReady, readerDetail (s.rdr.get d).state)
  else if maskCode (s.liveMask d b.mask) = 0 then some (.badOrder, Reason.gradeMask.code)
  else if b.kind ≠ .none ∧ b.preset < 100 then some (.badOrder, Reason.presetValue.code)
  else none

/-- Whether R9 clamps the preset value. -/
def AuthBody.clamps (b : AuthBody) : Bool := decide (b.kind ≠ .none) && decide (999999 < b.preset)

/-- The authorization record (R10). Of preset kind NONE its preset value is a free value (log 53). -/
def State.authRecord (s : State) (d : Side) (b : AuthBody) (take : Word32) : AuthRecord :=
  { origin := b.origin, level := b.level, mask := s.liveMask d b.mask, presetKind := b.kind,
    preset := if b.clamps then 999999 else b.preset, clamped := b.clamps, takeTime := take }

/-- Whether the grades of a hose meet a mask (R10). -/
def meetsMask (m : Five Bool) : Hose → Bool
  | .h1 => m.g1 || m.g2 || m.g3 || m.g4
  | .h2 => m.g5

/-- The lifted hoses in the order of their lifts, earliest first: the calling hose leads (R5, R10). -/
def FuelPoint.liftOrder (f : FuelPoint) : List Hose :=
  match f.calling with
  | none => []
  | some h => if (f.lift (otherHose h)).isSome then [h, otherHose h] else [h]

/-- The fueling point becomes AUTHORIZED and the expiry timer starts (R10). -/
def State.authorizeFp (s : State) (d : Side) : State := (s.updFp d (fun f => { f with expiry := some 120000 })).setFpState d .authorized

/-- Marks "hose refused"; FP_A or FP_B is set (R10, R11, file 10 ATTENTION). -/
def State.refuseHose (s : State) (d : Side) (h : Option Hose) : State := (s.updFp d (fun f => { f with refused := h })).attn (fpFlag d)

/-- What follows the writing of the authorization record (R10). -/
def State.grantAuth (s : State) (d : Side) : State :=
  let f := s.fp.get d
  match f.auth with
  | none => s
  | some a =>
    if f.state = .calling then
      match f.liftOrder.find? (meetsMask a.mask) with
      | some h => s.openSale d h
      | none => (s.authorizeFp d).refuseHose d f.calling
    else s.authorizeFp d

/-- The owner's part of AUTHORIZE. -/
def State.orderAuthorize (s : State) (o : Order) (d : Side) : State :=
  match s.authBody o.ref.slot with
  | .error field => s.complete o.ref .badOrder field
  | .ok b =>
    match s.authTest d b with
    | some r => s.complete o.ref r.1 r.2
    | none =>
      let t := { s with free := s.free + bit (decide (b.kind = PresetKind.none)) }
      ((t.updFp d (fun f => { f with auth := some (s.authRecord d b o.ref.time) })).grantAuth d).complete o.ref
        (if b.clamps then .okClamped else .ok) 0

/-- AUTHORIZE (R9, R10). -/
def execAuthorize (s : State) : Host.Outcome State Fault Refusal :=
  event s (fun s => s.withSideOrder .authorize State.orderAuthorize)

/-! ## The other orders -/

/-- An order of a fueling point that is not taken while the device is HALTED: UNAVAILABLE, detail HALTED (R147). -/
def State.unlessHalted (s : State) (o : Order) (act : State → State) : State :=
  if s.pw.state = .halted then s.complete o.ref .unavailable Reason.halted.code else act s

/-- The owner's part of DEAUTHORIZE (R12). -/
def State.orderDeauthorize (s : State) (o : Order) (d : Side) : State :=
  s.unlessHalted o (fun s =>
    if s.fpState d = .authorized then (s.endAuthReady d .deauthorized).complete o.ref .ok 0
    else s.complete o.ref .wrongState (fpDetail (s.fpState d)))

/-- DEAUTHORIZE (R12). -/
def execDeauthorize (s : State) : Host.Outcome State Fault Refusal :=
  event s (fun s => s.withSideOrder .deauthorize State.orderDeauthorize)

/-- The owner's part of STOP (R22). -/
def State.orderStop (s : State) (o : Order) (d : Side) : State :=
  s.unlessHalted o (fun s =>
    match s.fpState d with
    | .starting | .fueling | .paused => (s.takeCause d .hostStop).complete o.ref .ok 0
    | .settling => s.complete o.ref .ok Reason.alreadyEnding.code
    | _ => s.complete o.ref .ok Reason.nothingToStop.code)

/-- STOP (R22). -/
def execStop (s : State) : Host.Outcome State Fault Refusal := event s (fun s => s.withSideOrder .stop State.orderStop)

/-- A sale in STARTING or FUELING is paused (R18): valves, blend timer, demand, timers, the overrun base (R49, R63). -/
def State.pauseFp (s : State) (d : Side) : State :=
  let t := ((s.closeSide d).stopBlend d).dropAll d
  (t.updFp d (fun f => { f with start := none, noFlow := none, pause := some 300000, base := some (s.sale d).volume, overrun := 0,
                                overrunMade := false, flowMade := false })).setFpState d .paused

/-- The owner's part of PAUSE (R18). -/
def State.orderPause (s : State) (o : Order) (d : Side) : State :=
  s.unlessHalted o (fun s =>
    if s.fpState d = .starting ∨ s.fpState d = .fueling then (s.pauseFp d).complete o.ref .ok 0
    else s.complete o.ref .wrongState (fpDetail (s.fpState d)))

/-- PAUSE (R18). -/
def execPause (s : State) : Host.Outcome State Fault Refusal := event s (fun s => s.withSideOrder .pause State.orderPause)

/-- A PAUSED sale resumes (R19): the pause timer stops, the overrun base is dropped (R49), demand is raised when the grade is fixed. -/
def State.resumeFp (s : State) (d : Side) : State :=
  let t := s.updFp d (fun f => { f with pause := none, base := none, overrun := 0, overrunMade := false, flowMade := false })
  let t := t.enterStarting d
  (if (t.sale d).grade.isSome then t.raiseAll d else t).evalStarting d

/-- The owner's part of RESUME (R19). -/
def State.orderResume (s : State) (o : Order) (d : Side) : State :=
  s.unlessHalted o (fun s =>
    if s.fpState d = .paused then (s.resumeFp d).complete o.ref .ok 0
    else s.complete o.ref .wrongState (fpDetail (s.fpState d)))

/-- RESUME (R19). -/
def execResume (s : State) : Host.Outcome State Fault Refusal := event s (fun s => s.withSideOrder .resume State.orderResume)

/-- The owner's part of SETTLE (R28). -/
def State.orderSettle (s : State) (o : Order) (d : Side) : State :=
  let n := s.bodyField o.ref.slot 0 2
  if n = 0 then s.complete o.ref .badOrder 0
  else if (s.ret.sides.get d).list.any (fun x => decide (x.number = n)) then
    (s.updRetSide d [.list] (fun r => { r with list := r.list.eraseP (fun x => decide (x.number = n)) })).complete o.ref .ok n
  else s.complete o.ref .notFound 0

/-- SETTLE (R28). -/
def execSettle (s : State) : Host.Outcome State Fault Refusal := event s (fun s => s.withSideOrder .settle State.orderSettle)

/-- The lifted hose that NOZZLE_OUT names (R150): the one that is lifted; with both lifted, a free value (log 24). -/
def FuelPoint.nozzleOut (f : FuelPoint) : Option Hose :=
  match f.lift1, f.lift2 with
  | none, none => none
  | some _, none => some .h1
  | none, some _ => some .h2
  | some _, some _ => some (if Config.nozzleOutNamesHose1 then .h1 else .h2)

/-- The first meter of a side that is not quiet for unassigned flow (R52). -/
def State.flowingUnassigned (s : State) (d : Side) : Option Meter := (sideMeters d).find? (fun m => (s.meter m).quietUn.isSome)

/-- The lock of a side is cleared (R150): retention, tallies (R37), lock-flow measure (R51), the next state, FP_A or FP_B. -/
def State.unlockFp (s : State) (d : Side) : State :=
  let t := s.updRetSide d [.lock] (fun r => { r with locked := false, lockCause := none })
  let t := (sideMeters d).foldl (fun s m => s.updMeter m (fun c => { c with tally := 0 })) t
  let t := t.updFp d (fun f => { f with lockFlow := none, lockFlowMade := false })
  t.setFpState d (if s.fuelable d then .idle else .unavailable)

/-- The owner's part of CLEAR_LOCK (R150). Where a failed read-back has left the retained lock cause absent, the detail of its OK reads 0: the
model's choice (log 86). -/
def State.orderClearLock (s : State) (o : Order) (d : Side) : State :=
  s.unlessHalted o (fun s =>
    if s.fpState d ≠ .locked then s.complete o.ref .wrongState (fpDetail (s.fpState d))
    else
      match (s.fp.get d).nozzleOut with
      | some h => s.complete o.ref .nozzleOut (hoseCode h)
      | none =>
        match s.flowingUnassigned d with
        | some m => s.complete o.ref .stillFlowing (meterCode m)
        | none => (s.unlockFp d).complete o.ref .ok (optCode (s.ret.sides.get d).lockCause causeDetail))

/-- CLEAR_LOCK (R150). -/
def execClearLock (s : State) : Host.Outcome State Fault Refusal := event s (fun s => s.withSideOrder .clearLock State.orderClearLock)

/-! ## Hoses and buttons (R5 to R7, R11) -/

/-- The position and lift time of a lifted hose; it becomes the calling hose when there is none (R5). -/
def FuelPoint.lifted (f : FuelPoint) (h : Hose) (now : Word32) : FuelPoint :=
  { f.setLift h (some now) with calling := some (f.calling.getD h) }

/-- The position of a hung hose; the other hose becomes the calling hose if it is lifted (R5). -/
def FuelPoint.hung (f : FuelPoint) (h : Hose) : FuelPoint :=
  { f.setLift h none with calling := if (f.lift (otherHose h)).isSome then some (otherHose h) else none }

/-- A lift in AUTHORIZED (R11). -/
def State.liftAuthorized (s : State) (d : Side) (h : Hose) : State :=
  match (s.fp.get d).auth with
  | some a => if meetsMask a.mask h then s.openSale d h else s.refuseHose d (some h)
  | none => s

/-- A lift in each state (R5, R11). -/
def State.liftHose (s : State) (d : Side) (h : Hose) : State :=
  if ((s.fp.get d).lift h).isSome then s
  else
    let t := s.updFp d (fun f => f.lifted h s.rtc)
    match s.fpState d with
    | .idle => t.setFpState d .calling
    | .authorized => t.liftAuthorized d h
    | _ => t

/-- HOSE_LIFT (R5, R6, R11). -/
def execHoseLift (d : Side) (h : Hose) (s : State) : Host.Outcome State Fault Refusal := event s (fun s => s.liftHose d h)

/-- A hang in each state (R5, R6, R25). -/
def State.hangHose (s : State) (d : Side) (h : Hose) : State :=
  if ((s.fp.get d).lift h).isNone then s
  else
    let t := s.updFp d (fun f => f.hung h)
    match s.fpState d with
    | .starting | .fueling | .paused => if (s.sale d).hose = h then t.takeCause d .nozzleHung else t
    | .calling => if (t.fp.get d).anyLifted then t else t.setFpState d .idle
    | .finished =>
      if (t.fp.get d).anyLifted = false then t.setFpState d .idle
      else if (s.sale d).hose = h then t.setFpState d .calling
      else t
    | _ => t

/-- HOSE_HANG (R5, R6). -/
def execHoseHang (d : Side) (h : Hose) (s : State) : Host.Outcome State Fault Refusal := event s (fun s => s.hangHose d h)

/-- Whether a press of a button is accepted (R7). -/
def State.pressAccepted (s : State) (d : Side) (g : Grade) : Bool :=
  (match s.fpState d with
   | .starting => (s.sale d).grade.isNone
   | .fueling | .paused | .settling => false
   | _ => true)
    && (match (s.fp.get d).auth with
        | some a => a.mask.get g
        | none => true)
    && s.gradeEnabled d g && !s.faultIn (s.gradeProducts d g)

/-- A button press (R7, R14). -/
def State.pressButton (s : State) (d : Side) (g : Grade) : State :=
  if g ≠ .g5 ∧ s.pressAccepted d g = true then
    (s.updFp d (fun f => { f with button := some { grade := g, time := s.rtc }, pressTimer := some 30000,
                                  pressSelects := f.pressSelects || decide (f.state = .starting) })).evalStarting d
  else s

/-- GRADE_BUTTON_PRESS (R7). -/
def execGradeButtonPress (d : Side) (g : Grade) (s : State) : Host.Outcome State Fault Refusal := event s (fun s => s.pressButton d g)

/-! ## Timers (file 01, FUELING-POINT TIMERS; log 1) -/

/-- The authorization expiry (R12). -/
def State.expireAuth (s : State) (d : Side) : State :=
  if s.fpState d = .authorized ∧ (s.fp.get d).expiry.isSome = true then s.endAuthReady d .authExpired else s

/-- AUTH_EXPIRY (R12). -/
def execAuthExpiry (d : Side) (s : State) : Host.Outcome State Fault Refusal := event s (fun s => s.expireAuth d)

/-- GRADE_PRESS_VALIDITY_EXPIRY (R7): the press no longer counts for a later entry to STARTING. -/
def execGradePressValidityExpiry (d : Side) (s : State) : Host.Outcome State Fault Refusal :=
  event s (fun s => s.updFp d (fun f => { f with pressTimer := none }))

/-- A sale timer that runs out in its state gives the sale its cause. -/
def State.saleTimeout (s : State) (d : Side) (st : FpState) (t : Timer) (c : Cause) : State :=
  if s.fpState d = st ∧ t.isSome = true then s.takeCause d c else s

/-- START_TIMEOUT (R16). -/
def execStartTimeout (d : Side) (s : State) : Host.Outcome State Fault Refusal :=
  event s (fun s => s.saleTimeout d .starting (s.fp.get d).start .startTimeout)

/-- NO_FLOW_TIMEOUT (R17). -/
def execNoFlowTimeout (d : Side) (s : State) : Host.Outcome State Fault Refusal :=
  event s (fun s => s.saleTimeout d .fueling (s.fp.get d).noFlow .noFlow)

/-- PAUSE_TIMEOUT (R19). -/
def execPauseTimeout (d : Side) (s : State) : Host.Outcome State Fault Refusal :=
  event s (fun s => s.saleTimeout d .paused (s.fp.get d).pause .pauseTimeout)

/-- SETTLE_TIMER_EXPIRY (R23, R24, R25). -/
def execSettleTimerExpiry (d : Side) (s : State) : Host.Outcome State Fault Refusal :=
  event s (fun s => if s.fpState d = .settling ∧ (s.fp.get d).settle.isSome = true then s.completeSale d else s)

end Sys2Proof.Machine
end

