-- ==== Sys2Proof/Machine/PricesHalt.lean ====
section
/-! DEFINITION. PRICE_SET (file 04) and CLEAR_HALT (file 07). -/

namespace Sys2Proof.Machine

/-- The body offset of price n, n from 1 to 10 (file 11, ORDER SLOTS). -/
def priceOffset (n : Nat) : Nat := 4 * n

/-- Price n of a PRICE_SET body. -/
def State.bodyPrice (s : State) (slot n : Nat) : Nat := s.bodyField slot (priceOffset n) 4

/-- The first field of PRICE_SET that is out of range, by its body offset, the target apart (R78). -/
def State.priceField (s : State) (slot : Nat) : Option Nat :=
  if s.bodyField slot 0 2 = 0 then some 0
  else ([1, 2, 3, 4, 5, 6, 7, 8, 9, 10].find? (fun n => decide (s.bodyPrice slot n = 0) || decide (99999 < s.bodyPrice slot n))).map priceOffset

/-- The price set of a PRICE_SET body, in the index order of file 04. -/
def State.bodySet (s : State) (slot : Nat) : PriceSet :=
  let p := s.bodyPrice slot
  { version := s.bodyField slot 0 2, level1 := ⟨p 1, p 2, p 3, p 4, p 5⟩, level2 := ⟨p 6, p 7, p 8, p 9, p 10⟩ }

/-- A pending set that is present is superseded (R80). -/
def State.supersede (s : State) (version : Nat) : State :=
  match s.ret.pendingSet with
  | none => s
  | some p => (s.completeOpt s.price.order .superseded (versionMarksDetail version p.marks)).setPriceOrder none

/-- The owner's part of PRICE_SET (R78 to R82). -/
def State.orderPriceSet (s : State) (o : Order) : State :=
  match s.priceField o.ref.slot with
  | some field => s.complete o.ref .badOrder field
  | none =>
    let p := s.bodySet o.ref.slot
    let t := (s.supersede p.version).setPending p
    ((t.setPriceOrder (some o.ref)).attn .price).applyBoth

/-- PRICE_SET (R79). -/
def execPriceSet (s : State) : Host.Outcome State Fault Refusal := event s (fun s => s.withPlainOrder .priceSet State.orderPriceSet)

/-- The first meter that is not quiet (R52), in the order A1 to B3. -/
def State.flowing (s : State) : Option Meter := allMeters.find? (fun m => (s.meter m).quietAny.isSome)

/-- The side that the SETTLING detail names (R148 test 2): side A first where both are SETTLING, the model's choice (log 74). -/
def State.settlingSide (s : State) : Option Side := [Side.a, .b].find? (fun d => decide (s.fpState d = .settling))

/-- The device leaves HALTED for ACTIVE (R148, R67, R83). -/
def State.clearHalt (s : State) : State :=
  let t := (s.updHalt (fun h => { h with halted := false })).updPower (fun p => { p with state := .active })
  ((t.requeueMotors.attn .halt).reviewBoth).applyBoth

/-- The owner's part of CLEAR_HALT (R148). -/
def State.orderClearHalt (s : State) (o : Order) : State :=
  if s.pw.state ≠ .halted then s.complete o.ref .wrongState (powerDetail s.pw.state)
  else
    match s.settlingSide with
    | some d => s.complete o.ref .wrongState (sideStateDetail d .settling)
    | none =>
      if s.halt.reload then s.complete o.ref .causePresent Reason.reload.code
      else
        match s.flowing with
        | some m => s.complete o.ref .stillFlowing (meterCode m)
        | none => (s.clearHalt).complete o.ref .ok (optCode s.halt.code HaltCode.code)

/-- CLEAR_HALT (R148). -/
def execClearHalt (s : State) : Host.Outcome State Fault Refusal := event s (fun s => s.withPlainOrder .clearHalt State.orderClearHalt)

end Sys2Proof.Machine
end

