-- ==== Sys2Proof/Machine/Metering.lean ====
section
/-! DEFINITION. The commands of the metering unit (file 02): quarter steps, pulses, illegal transitions, sub-windows, quiet timers. -/

namespace Sys2Proof.Machine

/-! ## Reports of a sale's volume (R17, R44 to R50) -/

/-- After a change of a sale's volume in FUELING: slow and close (R17, R48). -/
def State.checkTargets (s : State) (d : Side) : State :=
  if s.fpState d = .fueling then
    let t := if (s.sale d).slowDue (s.fp.get d).slowMargin && !(s.vlv.get d).slow then s.slowSide d else s
    if (t.sale d).closeDue then t.takeCause d (closeCause (t.fp.get d).closeReason) else t
  else s

/-- The overrun passes the limit for the first time under its base: OVERRUN, where reports are made (R49). -/
def State.checkOverrun (s : State) (d : Side) : State :=
  let f := s.fp.get d
  if f.base.isSome = true ∧ f.limit < f.overrun ∧ f.overrunMade = false then
    let t := s.updFp d (fun f => { f with overrunMade := true })
    if s.reportsMade then t.takeCause d .overrun else t
  else s

/-- The overrun passes twice the limit for the first time under its base: FLOW_AFTER_CLOSE, where reports are made (R50). -/
def State.checkFlow (s : State) (d : Side) : State :=
  let f := s.fp.get d
  if f.base.isSome = true ∧ 2 * f.limit < f.overrun ∧ f.flowMade = false then
    let t := s.updFp d (fun f => { f with flowMade := true })
    if s.reportsMade then
      t.reportHalt { code := .flowAfterClose, first := some ⟨d, .overrun⟩, second := none, flow := f.overrun }
    else t
  else s

/-- The overrun measure while a base is held (R49). -/
def State.measureOverrun (s : State) (d : Side) : State :=
  s.updFp d (fun f => { f with overrun := match f.base with
                                 | some b => (s.sale d).volume - b
                                 | none => f.overrun })

/-- A volume change of a meter attributed to its side's sale (R39, R41, R44). -/
def State.addToSale (s : State) (m : Meter) (rise : Nat) : State :=
  let d := m.side
  let old := s.sale d
  let t := s.updSale d [.figures] (fun x => ({ x with products := x.products.set m.product (x.products.get m.product + rise) } : Sale).recompute)
  let t := t.updRetMeter m [.total m] (fun r => { r with total := (r.total + rise) % 10 ^ 12 })
  if (t.sale d).volume = old.volume then t
  else (((t.requestSale d).measureOverrun d).checkTargets d |>.checkOverrun d).checkFlow d

/-- The lock-flow measure of a side (R51); the overrun limit it is held against is the working copy's at that moment (log 57). -/
def State.addLockFlow (s : State) (d : Side) (rise : Nat) : State :=
  match (s.fp.get d).lockFlow with
  | none => s
  | some v =>
    let t := s.updFp d (fun f => { f with lockFlow := some (v + rise) })
    if 20 * s.overrunLimit < v + rise ∧ (s.fp.get d).lockFlowMade = false then
      let t := t.updFp d (fun f => { f with lockFlowMade := true })
      if s.reportsMade then
        t.reportHalt { code := .flowAfterClose, first := some ⟨d, .unauthFlow⟩, second := none, flow := v + rise }
      else t
    else t

/-- A volume change of an unassigned meter (R39, R41, R51). -/
def State.addUnassigned (s : State) (m : Meter) (rise : Nat) : State :=
  (s.updRetMeter m [.unassigned m, .total m] (fun r => { total := (r.total + rise) % 10 ^ 12, unassigned := (r.unassigned + rise) % 10 ^ 12 })).addLockFlow m.side rise

/-- An accumulator after an addition: it is held in 64 bits (R39; log 29). -/
def addMicro (acc w : Nat) : Nat := (acc + w) % 2 ^ 64

/-- The micro-pulses one counted pulse adds (R39). -/
def pulseWeight (c : Int) : Nat := (1000000 + c).toNat

/-- The volume of a counted pulse (R39): the accumulator, V and its rise; nothing when K in use is 0, as METROLOGY_ABSENT leaves it (R38). -/
def State.countVolume (s : State) (m : Meter) : State :=
  let c := s.meter m
  if c.k = 0 then s
  else
    let w := pulseWeight c.correction
    match c.attr with
    | .sale =>
      let acc := addMicro c.saleAcc w
      let v := acc / c.k
      let rise := v - c.saleV
      let t := s.updMeter m (fun c => { c with saleAcc := acc, saleV := v, w0 := c.w0 + rise })
      if 0 < rise then t.addToSale m rise else t
    | .unassigned =>
      let acc := addMicro c.unAcc w
      let v := acc / c.k
      let rise := v - c.unV
      let t := s.updMeter m (fun c => { c with unAcc := acc, unV := v, w0 := c.w0 + rise })
      if 0 < rise then t.addUnassigned m rise else t

/-! ## Pulses (R34 to R37) -/

/-- The timers that a counted pulse restarts: no-flow in FUELING (R17), settle in SETTLING unless the sale is INTERRUPTED (R23, R26),
and the reset hold (R166). -/
def State.restartTimers (s : State) (m : Meter) : State :=
  let d := m.side
  let t := s.updPower (fun p => { p with resetHold := p.resetHold.map (fun _ => 500) })
  if (s.meter m).attr = .sale then
    match s.fpState d with
    | .fueling => t.updFp d (fun f => { f with noFlow := some 60000 })
    | .settling => t.updFp d (fun f => { f with settle := f.settle.map (fun _ => 500) })
    | _ => t
  else t

/-- The unassigned tally of a counted pulse (R37): UNAUTH_FLOW is reported when it reaches 20. -/
def State.tallyPulse (s : State) (m : Meter) : State :=
  let c := s.meter m
  if c.attr = .unassigned ∧ c.tally < 20 then
    let t := s.updMeter m (fun c => { c with tally := c.tally + 1 })
    if c.tally + 1 = 20 ∧ s.reportsMade = true then t.takeCause m.side .unauthFlow else t
  else s

/-- A counted pulse (R34): the timers, the volume, the tally (log 30). -/
def State.countPulse (s : State) (m : Meter) : State :=
  let unassigned := decide ((s.meter m).attr = .unassigned)
  let t := (s.restartTimers m).countVolume m
  if unassigned then t.tallyPulse m else t

/-- A pulse restarts the meter's quiet timers (R34). -/
def Channel.pulseTaken (c : Channel) : Channel :=
  { c with quietAny := some 2000, quietUn := if c.attr = .unassigned then some 2000 else c.quietUn }

/-- A forward pulse (R34). -/
def State.forward (s : State) (m : Meter) : State :=
  let t := s.updMeter m Channel.pulseTaken
  if 0 < (s.meter m).pendingRev then t.updMeter m (fun c => { c with pendingRev := c.pendingRev - 1 })
  else t.countPulse m

/-- A pulser limit passed within an attribution to a sale: PULSER_FAULT, once (R35, R146). -/
def State.pulserFault (s : State) (m : Meter) : State :=
  if (s.meter m).attr = .sale ∧ (s.meter m).pulserMade = false then
    let t := s.updMeter m (fun c => { c with pulserMade := true })
    if s.reportsMade then t.takeCause m.side .pulserFault else t
  else s

/-- A reverse pulse (R34, R35). -/
def State.backward (s : State) (m : Meter) : State :=
  let t := s.updMeter m (fun c => { c.pulseTaken with pendingRev := min 65535 (c.pendingRev + 1) })
  if 50 < (t.meter m).pendingRev then t.pulserFault m else t

/-! ## Decoding (R32, R33) -/

/-- The level pair after one in the forward order. -/
def pairAfter : LevelPair → LevelPair
  | ⟨false, false⟩ => ⟨true, false⟩
  | ⟨true, false⟩ => ⟨true, true⟩
  | ⟨true, true⟩ => ⟨false, true⟩
  | ⟨false, true⟩ => ⟨false, false⟩

/-- The level pair before one in the forward order. -/
def pairBefore : LevelPair → LevelPair
  | ⟨false, false⟩ => ⟨false, true⟩
  | ⟨false, true⟩ => ⟨true, true⟩
  | ⟨true, true⟩ => ⟨true, false⟩
  | ⟨true, false⟩ => ⟨false, false⟩

/-- The pair after a change of one input. -/
def pairFlip (p : LevelPair) : MeterInput → LevelPair
  | .chA => { p with chA := !p.chA }
  | .chB => { p with chB := !p.chB }

/-- A command of the metering unit acts only while it decodes (R31). -/
def State.decoded (s : State) (act : State → State) : State := if s.pw.decoding then act s else s

/-- A quarter step (R32); at +4 or −4 it takes a pulse (log 32). -/
def State.quarter (s : State) (m : Meter) (i : MeterInput) : State :=
  let c := s.meter m
  let p := pairFlip c.phase i
  let position := if p = pairAfter c.phase then c.position + 1 else c.position - 1
  if position = 4 then (s.updMeter m (fun c => { c with phase := p, position := 0 })).forward m
  else if position = -4 then (s.updMeter m (fun c => { c with phase := p, position := 0 })).backward m
  else s.updMeter m (fun c => { c with phase := p, position := position })

/-- QUARTER_STEP (R32). -/
def execQuarterStep (m : Meter) (i : MeterInput) (s : State) : Host.Outcome State Fault Refusal :=
  event s (fun s => s.decoded (fun s => s.quarter m i))

/-- FORWARD_PULSE (R32, R34): the quarter step that takes a forward pulse; the position returns to 0 (log 32). -/
def execForwardPulse (m : Meter) (s : State) : Host.Outcome State Fault Refusal :=
  event s (fun s => s.decoded (fun s => (s.updMeter m (fun c => { c with phase := pairAfter c.phase, position := 0 })).forward m))

/-- REVERSE_PULSE (R32, R34): the quarter step that takes a reverse pulse; the position returns to 0 (log 32). -/
def execReversePulse (m : Meter) (s : State) : Host.Outcome State Fault Refusal :=
  event s (fun s => s.decoded (fun s => (s.updMeter m (fun c => { c with phase := pairBefore c.phase, position := 0 })).backward m))

/-- An illegal transition (R33, R35). -/
def State.illegal (s : State) (m : Meter) : State :=
  let t := s.updMeter m (fun c =>
    { c with phase := ⟨!c.phase.chA, !c.phase.chB⟩, position := 0,
             illegal := if c.attr = .sale then min 255 (c.illegal + 1) else c.illegal })
  if 4 ≤ (t.meter m).illegal then t.pulserFault m else t

/-- ILLEGAL_TRANSITION (R33). -/
def execIllegalTransition (m : Meter) (s : State) : Host.Outcome State Fault Refusal :=
  event s (fun s => s.decoded (fun s => s.illegal m))

/-! ## Rate and band (R42, R43) -/

/-- The band that a rate and band limits give (R43). -/
def bandOf (rate b1 b2 b3 : Nat) : Band :=
  if b3 ≤ rate then .b4 else if b2 ≤ rate then .b3 else if b1 ≤ rate then .b2 else .b1

/-- The band that a rate gives a channel; without band limits the band in use stands (log 40). -/
def Channel.bandAt (c : Channel) (rate : Nat) : Band :=
  match c.cal with
  | some x => bandOf rate x.b1 x.b2 x.b3
  | none => c.band

/-- The rate at a sub-window expiry (R42). -/
def Channel.sumRate (c : Channel) : Nat := min 2000 (c.w0 + c.w1 + c.w2 + c.w3)

/-- A sub-window expiry (R42, R43). The rate is computed at each, also where METROLOGY_ABSENT was set by a reload (log 40). -/
def State.subwindow (s : State) (m : Meter) : State :=
  s.updMeter m (fun c => { c with rate := c.sumRate, band := c.bandAt c.sumRate, w0 := 0, w1 := c.w0, w2 := c.w1, w3 := c.w2 })

/-- SUBWINDOW_EXPIRY (R42). -/
def execSubwindowExpiry (m : Meter) (s : State) : Host.Outcome State Fault Refusal := event s (fun s => s.decoded (fun s => s.subwindow m))

/-- A quiet timer expires (R34). -/
def Channel.quieten (c : Channel) : QuietKind → Channel
  | .anyPulse => { c with quietAny := none }
  | .unassigned => { c with quietUn := none }

/-- QUIET_TIMER_EXPIRY (R34). -/
def execQuietTimerExpiry (m : Meter) (k : QuietKind) (s : State) : Host.Outcome State Fault Refusal :=
  event s (fun s => s.decoded (fun s => s.updMeter m (fun c => c.quieten k)))

end Sys2Proof.Machine
end

