-- ==== Sys2Proof/Machine/Drives.lean ====
section
/-! DEFINITION. The commands of the valve and blend driver and of the motor sequencer (file 03). -/

namespace Sys2Proof.Machine

/-! ## Valves and blend loops -/

/-- A period boundary at the six valves (R56); the period clock runs while the outputs are enabled (R55). -/
def State.boundary (s : State) : State :=
  if s.pw.drives then
    let one (s : State) (d : Side) : State := s.updValveSide d (fun x => { x with valves := x.valves.map (ValveDrive.boundary x.slow) })
    one (one s .a) .b
  else s

/-- PWM_PERIOD_BOUNDARY (R56). -/
def execPwmPeriodBoundary (s : State) : Host.Outcome State Fault Refusal := event s State.boundary

/-- The end of a valve's pull-in at a boundary that finds its count at 0 (R56, R58; log 33). -/
def State.pullInEnd (s : State) (v : Meter) : State :=
  if s.pw.drives = true ∧ (s.valve v).state = .pullIn ∧ (s.valve v).pullIn = 0 then
    s.updValve v (fun x => let w := x.endPullIn (s.vlv.get v.side).slow; { w with applied := w.dutyOfState })
  else s

/-- PULL_IN_END (R58). -/
def execPullInEnd (v : Meter) (s : State) : Host.Outcome State Fault Refusal := event s (fun s => s.pullInEnd v)

/-- The blend error of a sale, in ‰ (R64). -/
def blendError (share v1 v2 : Nat) : Int := (share : Int) - ((v2 * 1000 / (v1 + v2) : Nat) : Int)

/-- The step of a blend error: a quarter, truncated toward zero and clamped to −16..+16 (R64). -/
def blendStep (error : Int) : Int := clampInt (-16) 16 (error.tdiv 4)

/-- The consecutive count after an error (R65). -/
def blendCount (volume : Nat) (error : Int) (count : Nat) : Nat :=
  if volume < 300 then 0 else if 30 < error.natAbs then count + 1 else 0

/-- The high duty after a step, saturating at 0 and 255 (R64). -/
def stepDuty (dutyH : Nat) (step : Int) : Nat := (clampInt 0 255 ((dutyH : Int) + step)).toNat

/-- The correction of a blend loop (R64, R59). -/
def State.correctBlend (s : State) (d : Side) (error : Int) : State :=
  let h := stepDuty (s.vlv.get d).blend.dutyH (blendStep error)
  let t := s.updBlend d (fun b => { b with dutyH := h, dutyL := 255 - h })
  t.updValveSide d (fun x => { x with valves := { x.valves with p1 := x.valves.p1.command (255 - h), p2 := x.valves.p2.command h } })

/-- An expiry of the blend interval timer in FUELING (R64, R65). -/
def State.blendExpiry (s : State) (d : Side) : State :=
  let x := s.sale d
  let b := (s.vlv.get d).blend
  if b.timer.isNone = true ∨ s.fpState d ≠ .fueling then s
  else
    let t := s.updBlend d (fun b => { b with timer := some 200 })
    if (s.vlv.get d).slow = true ∨ x.volume < 50 then t
    else
      let e := blendError b.share x.products.p1 x.products.p2
      let n := blendCount x.volume e b.count
      let t := t.updBlend d (fun b => { b with lastError := e, count := n })
      if 5 ≤ n then t.takeCause d .blendFault else t.correctBlend d e

/-- BLEND_INTERVAL_EXPIRY (R64). -/
def execBlendIntervalExpiry (d : Side) (s : State) : Host.Outcome State Fault Refusal := event s (fun s => s.blendExpiry d)

/-! ## Motors -/

/-- A motor's start timer runs out (R70): RUNNING, both fueling points told, the next start granted. -/
def State.startExpiry (s : State) (m : Product) : State :=
  if (s.motor m).state = .starting ∧ (s.motor m).timer.isSome = true then
    (s.updMotor m (fun r => { r with state := .running, timer := none })).evalBoth.grant
  else s

/-- MOTOR_START_EXPIRY (R70). -/
def execMotorStartExpiry (m : Product) (s : State) : Host.Outcome State Fault Refusal := event s (fun s => s.startExpiry m)

/-- RUN_ON_EXPIRY (R71). -/
def execRunOnExpiry (m : Product) (s : State) : Host.Outcome State Fault Refusal :=
  event s (fun s =>
    if (s.motor m).state = .runOn ∧ (s.motor m).timer.isSome = true then
      s.updMotor m (fun r => { r with state := .off, timer := none })
    else s)

/-- A side's sale draws on a motor: it is in progress, its grade fixed, the product in its set (R73). One whose retained grade reads absent, as a
failed read-back can leave it, draws on none (log 93). -/
def State.drawsOn (s : State) (d : Side) (m : Product) : Bool :=
  s.inSale d && (s.sale d).grade.isSome && (s.sale d).drawn.get m

/-- MOTOR_TRIP at a side whose sale draws on the motor: STARTING with its grade fixed, or FUELING (R73, R74). -/
def State.tripSide (s : State) (d : Side) (m : Product) : State :=
  if s.drawsOn d m = true ∧ (s.fpState d = .starting ∨ s.fpState d = .fueling) then s.takeCause d .motorTrip else s

/-- Closes the valves of a side whose sale draws on a motor (R61, R73). -/
def State.closeIfDrawn (s : State) (d : Side) (m : Product) : State := if s.drawsOn d m then s.closeSide d else s

/-- A trip of a motor that is not in FAULT while the drives are enabled (R73, R74). -/
def State.tripMotor (s : State) (m : Product) : State :=
  let t := (s.updMotor m (fun r => r.faulted s.rtc)).setStartQueue (s.mot.queue.filter (fun q => decide (q ≠ m)))
  let t := ((t.attn .motor).closeIfDrawn .a m).closeIfDrawn .b m
  ((t.tripSide .a m).tripSide .b m).grant

/-- A trip input taken as asserted (R72, R73). -/
def State.tripAssert (s : State) (m : Product) : State :=
  let t := s.updMotor m (fun r => { r with trip := true })
  if s.pw.drives = true ∧ (s.motor m).state ≠ .fault then t.tripMotor m else t

/-- MOTOR_TRIP_ASSERT (R73). -/
def execMotorTripAssert (m : Product) (s : State) : Host.Outcome State Fault Refusal := event s (fun s => s.tripAssert m)

/-- MOTOR_TRIP_RELEASE (R72): the level alone. -/
def execMotorTripRelease (m : Product) (s : State) : Host.Outcome State Fault Refusal :=
  event s (fun s => s.updMotor m (fun r => { r with trip := false }))

/-- A motor's fault is cleared (R75): OFF, or QUEUED when it is demanded; a waiting grade may then be fixed (R14). -/
def State.clearMotor (s : State) (m : Product) : State :=
  let t := (s.updMotor m (fun r => { r with state := .off })).attn .motor
  (if demandCount (s.motor m).demand ≠ 0 ∧ s.pw.state = .active then t.joinQueue m else t).evalBoth

/-- The owner's part of MOTOR_CLEAR (R75, R147). -/
def State.orderMotorClear (s : State) (o : Order) : State :=
  match motorOfTarget o.target with
  | none => s.complete o.ref .badOrder targetDetail
  | some m =>
    if s.pw.state = .halted then s.complete o.ref .unavailable 0
    else if (s.motor m).state ≠ .fault then s.complete o.ref .wrongState (motorDetail (s.motor m).state)
    else if (s.motor m).trip then s.complete o.ref .causePresent 0
    else (s.clearMotor m).complete o.ref .ok 0

/-- MOTOR_CLEAR (R75). -/
def execMotorClear (s : State) : Host.Outcome State Fault Refusal := event s (fun s => s.withOrder .motorClear State.orderMotorClear)

end Sys2Proof.Machine
end

