-- ==== Sys2Proof/Machine/DisplayBus.lean ====
section
/-! DEFINITION. The commands of the display bus controller (file 05): SHOW_MESSAGE, frames, the bus, head timers, the segment test. -/

namespace Sys2Proof.Machine

/-! ## SHOW_MESSAGE (R110, R111) -/

/-- The characters of a message (R98, R110). -/
def messageChar (b : Byte) : Bool :=
  let n := b.toNat
  decide (n = 0x20) || (decide (0x2D ≤ n) && decide (n ≤ 0x3A)) || (decide (0x41 ≤ n) && decide (n ≤ 0x5A))

/-- The first body field of SHOW_MESSAGE out of range, by its body offset (R110, R196): the length at 0, the text at 4 for any character
of it that is not allowed, the duration at 2. -/
def State.messageField (s : State) (n : Nat) : Option Nat :=
  let len := s.bodyField n 0 1
  if 16 < len then some 0
  else
    if (s.bodyBytes n 4 len).all messageChar then (if 600 < s.bodyField n 2 2 then some 2 else none) else some 4

/-- The text of a SHOW_MESSAGE body padded with spaces to 16 characters (R110). -/
def State.messageText (s : State) (n : Nat) : List Byte := (s.bodyBytes n 4 (s.bodyField n 0 1) ++ blankText).take 16

/-- The owner's part of SHOW_MESSAGE (R110). -/
def State.orderShowMessage (s : State) (o : Order) : State :=
  match sideOfTarget o.target with
  | none => s.complete o.ref .badOrder targetDetail
  | some d =>
    match s.messageField o.ref.slot with
    | some field => s.complete o.ref .badOrder field
    | none =>
      if s.meets d .display then
        let t := s.completeOpt (s.disp.lines.get d).order .superseded Reason.replaced.code
        (t.updLine d (fun _ => { text := s.messageText o.ref.slot, order := some o.ref, duration := s.bodyField o.ref.slot 2 2,
                                 timer := none })).requestMessage d
      else s.complete o.ref .unavailable (headDetail (s.head (saleRole d)).state)

/-- SHOW_MESSAGE (R110). -/
def execShowMessage (s : State) : Host.Outcome State Fault Refusal :=
  event s (fun s => s.withOrder .showMessage State.orderShowMessage)

/-! ## Frames -/

/-- The controller may start a transfer: the bus is free and seen free, the display rail is on (R93). -/
def Display.ready (x : Display) : Bool := x.rail && decide (x.bus = .free) && !x.awaitHigh && !x.abandoned

/-- Queued frames wait for a general-call frame that is asked for and during the segment test (R98, R112). -/
def Display.holds (x : Display) : Bool := x.call.isSome || decide (x.step = .testing) || decide (x.step = .blanking)

/-- The next transfer goes on the bus: the rest of a REFRESH, or the due entry of the lowest class (R100, R104). -/
def State.startFrame (s : State) : State :=
  if s.disp.ready then
    match s.disp.flight with
    | some f =>
      if f.onBus then s
      else s.putOnBus { f with onBus := true, bytes := s.transferBytes f.entry.role f.now }
    | none =>
      if s.disp.holds then s
      else
        match s.disp.pick with
        | none => s
        | some e => (s.putOnBus (s.launch e)).updDisp (fun x => { x with queue := x.queue.filter (fun q => decide (q ≠ e)) })
  else s

/-- DISPLAY_FRAME_START (R100). -/
def execDisplayFrameStart (s : State) : Host.Outcome State Fault Refusal := event s State.startFrame

/-- Acts on the controller's transfer while it is on the bus. -/
def State.onFlight (s : State) (act : State → Flight → State) : State :=
  match s.disp.flight with
  | some f => if f.onBus then act s f else s
  | none => s

/-- DISPLAY_FRAME_COMPLETE (R99, R101 to R104). -/
def execDisplayFrameComplete (headState check : Byte) (s : State) : Host.Outcome State Fault Refusal :=
  event s (fun s => s.onFlight (fun s f => s.transferDone f headState check))

/-- DISPLAY_FRAME_NACK (R94): a stop at once, and a failed attempt with reason NO_ACK. -/
def execDisplayFrameNack (s : State) : Host.Outcome State Fault Refusal :=
  event s (fun s => s.onFlight (fun s f => s.endFlight.flightFailed f .noAck))

/-- The general call on the bus is taken off it and is asked for again (R98; log 14). -/
def Display.callLost (x : Display) (b : BusState) : Display :=
  { x with call := x.call.map (fun c => { c with onBus := false }), bus := b }

/-- Whether a general-call frame is on the bus. -/
def Display.calling (x : Display) : Bool :=
  match x.call with
  | some c => c.onBus
  | none => false

/-- A hold of the clock line longer than 5 ms (R95): the frame is abandoned, the bus stays OWN until its stop. -/
def State.stretched (s : State) : State :=
  if s.disp.calling then s.updDisp (fun x => { x.callLost .own with abandoned := true })
  else s.onFlight (fun s f => (s.updDisp (fun x => { x with flight := none, bus := .own, abandoned := true })).flightFailed f .stretch)

/-- CLOCK_STRETCH_TIMEOUT (R95). -/
def execClockStretchTimeout (s : State) : Host.Outcome State Fault Refusal := event s State.stretched

/-- ABANDONED_FRAME_STOP (R95): the stop of the abandoned frame is sent and the bus is free. -/
def execAbandonedFrameStop (s : State) : Host.Outcome State Fault Refusal :=
  event s (fun s => if s.disp.abandoned then s.updDisp Display.freeBus else s)

/-- Arbitration is lost (R96): the frame goes back in its place, uncounted, and the bus is busy. -/
def State.loseBus (s : State) : State :=
  if s.disp.calling then s.updDisp (fun x => x.callLost .other)
  else s.onFlight (fun s f =>
    s.updDisp (fun x =>
      let y := { x with flight := none, bus := .other }
      if f.dropped then y else y.putBack f.entry))

/-- ARBITRATION_LOST (R96). -/
def execArbitrationLost (s : State) : Host.Outcome State Fault Refusal := event s State.loseBus

/-! ## The bus (R93, R97; log 15) -/

/-- BUS_START (R93): another master's start makes the bus busy. -/
def execBusStart (s : State) : Host.Outcome State Fault Refusal :=
  event s (fun s => if s.disp.rail = true ∧ (s.disp.bus = .free ∨ s.disp.awaitHigh = true) then
    s.updDisp (fun x => { x with bus := .other }) else s)

/-- BUS_STOP (R93): the bus is free after another master's stop. -/
def execBusStop (s : State) : Host.Outcome State Fault Refusal :=
  event s (fun s => if s.disp.rail = true ∧ s.disp.bus = .other then s.updDisp Display.freeBus else s)

/-- A frame of the controller is on the bus, or its stop is owed (R97). -/
def Display.inFlight (x : Display) : Bool :=
  x.calling || x.abandoned || (match x.flight with
                               | some f => f.onBus
                               | none => false)

/-- A bus clear in progress: nine clock pulses and a stop are being driven (R97). -/
def Display.clearing (x : Display) : Bool := decide (x.bus = .clear) && !x.awaitHigh

/-- BUS_STUCK_TIMEOUT (R97): a bus clear begins and is counted. -/
def execBusStuckTimeout (s : State) : Host.Outcome State Fault Refusal :=
  event s (fun s =>
    if s.disp.rail = true ∧ s.disp.inFlight = false ∧ s.disp.clearing = false then
      s.updDisp (fun x => { x with bus := .clear, awaitHigh := false, clears := (x.clears + 1) % 65536 })
    else s)

/-- BUS_CLEAR_DONE (R97): the bus is free when both lines read high, and is watched once more otherwise. -/
def execBusClearDone (bothHigh : Bool) (s : State) : Host.Outcome State Fault Refusal :=
  event s (fun s =>
    if s.disp.clearing then
      (if bothHigh then s.updDisp Display.freeBus else s.updDisp (fun x => { x with awaitHigh := true }))
    else s)

/-- BOTH_LINES_HIGH (R93, R97): the bus is taken as free. -/
def execBothLinesHigh (s : State) : Host.Outcome State Fault Refusal :=
  event s (fun s =>
    if s.disp.rail = true ∧ s.disp.awaitHigh = true ∧ s.disp.bus ≠ .other then s.updDisp Display.freeBus else s)

/-! ## General calls, the wake and the shutdown (R98, R112, R113, R158, R160) -/

/-- The general call has left the bus (R98). -/
def State.callSent (s : State) : State := s.updDisp (fun x => ({ x with call := none } : Display).freeBus)

/-- The TEST of a wake has been sent: the segment test of 2 s begins, stale deadlines do not run (R105, R112 step 3). -/
def State.testSent (s : State) : State :=
  s.updDisp (fun x =>
    { x with segTest := some 2000, step := .testing, heads := Eight.ofFun (fun r => { x.heads.get r with stale := none }) })

/-- The BLANK of a wake has been sent: steps 4 and 5, then the READERS and DRIVES phases, and the wake ends (R112, R158). -/
def State.wakeBlankSent (s : State) : State :=
  (((s.endSegmentTest.setPhase .readers).readersPhase).setPhase .drives).drivesPhase.wakeEnd

/-- The BLANK of a shutdown has been sent: steps 3 and 4 of R160 end (R55, R113). -/
def State.shutdownBlankSent (s : State) : State := (s.parkDisplay.disableDrives).updPower (fun p => { p with blanked := true })

/-- A general-call frame has been driven to its last bit (R98). A BLANK that outlasts the wake it was sent for starts the stale deadlines that
the segment test stopped (R105). -/
def State.callDone (s : State) (c : GeneralCall) : State :=
  let t := s.callSent
  match c.kind with
  | .test => if s.pw.state = .waking ∧ s.disp.step = .probing then t.testSent else t
  | .blank =>
    let t := t.blankHeads
    if s.pw.state = .waking ∧ s.disp.step = .blanking then t.wakeBlankSent
    else if s.pw.state = .shuttingDown then t.shutdownBlankSent
    else t.updDisp Display.resumeDeadlines

/-- GENERAL_CALL_COMPLETE (R98). -/
def execGeneralCallComplete (s : State) : Host.Outcome State Fault Refusal :=
  event s (fun s =>
    match s.disp.call with
    | some c => if c.onBus then s.callDone c else s
    | none => s)

/-- SEGMENT_TEST_END (R112 step 4): the general-call BLANK is asked for. -/
def execSegmentTestEnd (s : State) : Host.Outcome State Fault Refusal :=
  event s (fun s =>
    if s.disp.segTest.isSome = true ∧ s.disp.step = .testing then
      (s.updDisp (fun x => { x with segTest := none, step := .blanking })).askCall .blank
    else s)

/-- DISPLAY_SETTLE_END (R112 step 1, R158): the map is read and the configured heads are probed. -/
def execDisplaySettleEnd (s : State) : Host.Outcome State Fault Refusal :=
  event s (fun s =>
    if s.disp.settle.isSome = true ∧ s.disp.step = .settling ∧ s.pw.state = .waking then
      (((s.updDisp (fun x => { x with settle := none, step := .probing })).readMap).attn .display).checkProbing
    else s)

/-! ## Head timers -/

/-- REFRESH_TIMER_EXPIRY (R104). -/
def execRefreshTimerExpiry (r : Role) (s : State) : Host.Outcome State Fault Refusal :=
  event s (fun s =>
    if (s.head r).refresh.isSome then
      (s.updHead r (fun h => { h with refresh := some 1000 })).updDisp (fun x => x.request r .refresh)
    else s)

/-- PROBE_TIMER_EXPIRY (R103). -/
def execProbeTimerExpiry (r : Role) (s : State) : Host.Outcome State Fault Refusal :=
  event s (fun s =>
    if (s.head r).probe.isSome = true ∧ (s.head r).state = .failed then
      (s.updHead r (fun h => { h with probe := some 2000 })).updDisp (fun x => x.enqueue r .probe)
    else s)

/-- STALE_DEADLINE_EXPIRY (R105): the sale head becomes FAILED with reason STALE. -/
def execStaleDeadlineExpiry (d : Side) (s : State) : Host.Outcome State Fault Refusal :=
  event s (fun s =>
    if (s.head (saleRole d)).stale.isSome = true ∧ (s.head (saleRole d)).state.shows = true then s.headFailed (saleRole d) .stale else s)

/-- MESSAGE_DURATION_EXPIRY (R111): the line is cleared and MESSAGE entries are queued. -/
def execMessageDurationExpiry (d : Side) (s : State) : Host.Outcome State Fault Refusal :=
  event s (fun s =>
    if (s.disp.lines.get d).timer.isSome then (s.updLine d (fun _ => .cleared)).requestMessage d else s)

/-- SALE_SPACING_EXPIRY (R108): a queued SALE entry of the head becomes due. -/
def execSaleSpacingExpiry (r : Role) (s : State) : Host.Outcome State Fault Refusal :=
  event s (fun s => s.updHead r (fun h => { h with spacing := none }))

end Sys2Proof.Machine
end

