-- ==== Sys2Proof/Machine/Readers.lean ====
section
/-! DEFINITION. The commands of the reader link units (file 06): READER_SEND, READER_RESTART, polls, replies, timers, inputs. -/

namespace Sys2Proof.Machine

/-- The owner's part of READER_SEND (R129). -/
def State.orderReaderSend (s : State) (o : Order) (d : Side) : State :=
  let n := s.bodyField o.ref.slot 0 1
  let r := s.rdr.get d
  if n = 0 ∨ 64 < n then s.complete o.ref .badOrder 0
  else if s.supplyOn d = false then s.complete o.ref .readerDown (readerDownDetail r.state r.cause)
  else if 16 ≤ r.sends.length then s.complete o.ref .unavailable Reason.listFull.code
  else
    s.updReader d (fun r =>
      { r with sends := r.sends ++ [{ ref := o.ref, payload := s.bodyBytes o.ref.slot 4 n, rejects := 0, gives := 0 }] })

/-- READER_SEND (R129). -/
def execReaderSend (s : State) : Host.Outcome State Fault Refusal :=
  event s (fun s => s.withSideOrder .readerSend State.orderReaderSend)

/-- A reader powered by READER_RESTART with its power-cycle count 0 (R119, R136). -/
def State.restartReader (s : State) (o : Order) (d : Side) : State := (s.powerFresh d).complete o.ref .ok 0

/-- A TAMPERED reader restarted after its release (R136): TAMPERED again when step 2 of R119 finds its input asserted afresh, within its
debounce; whether it does is a free value, drawn anew for each such order (log 54). -/
def State.restartTampered (s : State) (o : Order) (d : Side) : State :=
  let t := { s with free := s.free + 1 }
  if (s.rdr.get d).fitted = true ∧ Config.tamperAfresh s.free d = true then
    (t.updReader d (fun r => { r with cycles := 0, tamperReleased := false })).complete o.ref .ok 0
  else t.restartReader o d

/-- The owner's part of READER_RESTART (R136; log 41 for an OFF reader that is fitted). -/
def State.orderReaderRestart (s : State) (o : Order) (d : Side) : State :=
  let r := s.rdr.get d
  match r.state with
  | .failed => s.restartReader o d
  | .tampered => if r.tamperReleased then s.restartTampered o d else s.complete o.ref .causePresent 0
  | .supplyFault => if r.supplyReleased then s.restartReader o d else s.complete o.ref .causePresent 0
  | .off => if r.fitted then s.complete o.ref .wrongState (readerDetail r.state) else s.complete o.ref .unavailable Reason.notFitted.code
  | .warming | .ready | .lost => s.complete o.ref .wrongState (readerDetail r.state)

/-- READER_RESTART (R136). -/
def execReaderRestart (s : State) : Host.Outcome State Fault Refusal :=
  event s (fun s => s.withSideOrder .readerRestart State.orderReaderRestart)

/-- A poll timer expiry (R122): a frame is chosen and sent, or held while a reply is awaited. -/
def Reader.pollExpiry (r : Reader) : Reader :=
  if r.link = .idle then r.send else { r with poll := none, held := true }

/-- READER_POLL_EXPIRY (R122, R123). -/
def execReaderPollExpiry (d : Side) (s : State) : Host.Outcome State Fault Refusal :=
  event s (fun s =>
    if s.supplyOn d = true ∧ (s.rdr.get d).poll.isSome = true then s.updReader d Reader.pollExpiry else s)

/-- READER_FRAME_END (R122): the wait for a reply begins. -/
def execReaderFrameEnd (d : Side) (s : State) : Host.Outcome State Fault Refusal :=
  event s (fun s =>
    if (s.rdr.get d).link = .sending then s.updReader d (fun r => { r with link := .awaiting, response := some 50 }) else s)

/-- A whole reply (R121, R122): it acts when it is valid, and is a miss otherwise; the wait then ends. -/
def State.replyRead (s : State) (d : Side) (x : Reply) : State :=
  match (s.rdr.get d).frame with
  | none => s
  | some f =>
    (match x.valid with
     | some k => s.replyTaken d f.kind k x
     | none => s.readerMiss d).updReader d Reader.endWait

/-- READER_REPLY (R121, R122): the reader has sent the bytes skipped, the marker, the kind and the flags byte, and the rest from the length
byte on; they act when they hold a whole reply while one is awaited (log 61). -/
def execReaderReply (d : Side) (skipped : List Byte) (kind flags : Byte) (rest : List Byte) (s : State) : Host.Outcome State Fault Refusal :=
  event s (fun s =>
    match wholeReply (skipped ++ linkMarker :: kind :: flags :: rest) with
    | some x => if (s.rdr.get d).link = .awaiting then s.replyRead d x else s
    | none => s)

/-- READER_RESPONSE_TIMEOUT (R122): a miss, and the wait ends. -/
def execReaderResponseTimeout (d : Side) (s : State) : Host.Outcome State Fault Refusal :=
  event s (fun s =>
    if (s.rdr.get d).link = .awaiting then (s.readerMiss d).updReader d Reader.endWait else s)

/-- The warm-up timer expires in WARMING (R131). -/
def State.warmUpFailed (s : State) (d : Side) : State :=
  if (s.rdr.get d).cycles < 2 then
    (s.cutReader d .warmUpLimit .lost).updReader d (fun r => { r with powerOff := some 500 })
  else s.cutReader d .warmUpLimit .failed

/-- WARM_UP_EXPIRY (R131). -/
def execWarmUpExpiry (d : Side) (s : State) : Host.Outcome State Fault Refusal :=
  event s (fun s =>
    if (s.rdr.get d).state = .warming ∧ (s.rdr.get d).warmUp.isSome = true then s.warmUpFailed d else s)

/-- POWER_OFF_TIMER_EXPIRY (R133): the power-cycle count rises and the reader is powered again. -/
def execPowerOffTimerExpiry (d : Side) (s : State) : Host.Outcome State Fault Refusal :=
  event s (fun s =>
    if (s.rdr.get d).state = .lost ∧ (s.rdr.get d).powerOff.isSome = true then
      (s.updReader d (fun r => { r with cycles := r.cycles + 1 })).warmReader d
    else s)

/-- A tamper assertion acts on a reader that is not OFF (R134): TAMPERED, the supply off, the power-off timer stopped. -/
def State.tamperReader (s : State) (d : Side) : State :=
  match (s.rdr.get d).state with
  | .off | .tampered => s
  | .warming | .ready => s.cutReader d .tamper .tampered
  | .lost | .failed | .supplyFault => (s.updReader d (fun r => { r with cause := some .tamper, powerOff := none })).setReaderState d .tampered

/-- TAMPER_ASSERT (R134). -/
def execTamperAssert (d : Side) (s : State) : Host.Outcome State Fault Refusal :=
  event s (fun s => (s.updReader d (fun r => { r with tamper := true, tamperReleased := false })).tamperReader d)

/-- TAMPER_RELEASE (R134): the level and the released-since mark. -/
def execTamperRelease (d : Side) (s : State) : Host.Outcome State Fault Refusal :=
  event s (fun s => s.updReader d (fun r => { r with tamper := false, tamperReleased := true }))

/-- OVERCURRENT (R135): while the supply is on, the reader becomes SUPPLY_FAULT. -/
def execOvercurrent (d : Side) (s : State) : Host.Outcome State Fault Refusal :=
  event s (fun s =>
    if s.supplyOn d then
      (s.updReader d (fun r => { r with overcurrent := true, supplyReleased := false })).cutReader d .overcurrent .supplyFault
    else s)

/-- SUPPLY_FAULT_RELEASE (R135): the level and the released-since mark. -/
def execSupplyFaultRelease (d : Side) (s : State) : Host.Outcome State Fault Refusal :=
  event s (fun s => s.updReader d (fun r => { r with overcurrent := false, supplyReleased := true }))

end Sys2Proof.Machine
end

