-- ==== Sys2Proof/Machine/Metrology.lean ====
section
/-! DEFINITION. The commands of the metrology store port (file 09): store-writing orders, the switch, the check, reload, store pages. -/

namespace Sys2Proof.Machine

/-! ## CALIBRATE (R177) -/

/-- The image with a meter's calibration block from a body (R177; file 11, the image's layout). -/
def State.calibratedImage (s : State) (slot : Nat) (m : Meter) (image : Memory) : Memory :=
  image.writeAll (meterAddr m) (s.bodyBytes slot 0 18 ++ pad 2)

/-- CALIBRATE takes effect (R177, R180). -/
def State.calibrate (s : State) (o : Order) (m : Meter) : State :=
  let old := s.store.image
  let new := s.calibratedImage o.ref.slot m old
  (s.storeEffect o (.meter m) false new
    { kind := .calibration, param := meterCode m, old := old.field (meterAddr m) 4, new := s.bodyField o.ref.slot 0 4,
      oldCheck := blockCheck old (.meter m), newCheck := blockCheck new (.meter m) }).takeCalibration m

/-- The owner's part of CALIBRATE (R176, R177). That the target is tested before the body fields is the model's choice (log 83). -/
def State.orderCalibrate (s : State) (o : Order) : State :=
  match meterOfTarget o.target with
  | none => s.complete o.ref .badOrder targetDetail
  | some m =>
    match s.calibrateField o.ref.slot with
    | some field => s.complete o.ref .badOrder field
    | none =>
      match s.storeTest false (if s.inSale m.side then some (fpDetail (s.fpState m.side)) else none) with
      | some r => s.complete o.ref r.1 r.2
      | none => s.calibrate o m

/-- CALIBRATE (R177). -/
def execCalibrate (s : State) : Host.Outcome State Fault Refusal := event s (fun s => s.withOrder .calibrate State.orderCalibrate)

/-! ## SET_SETTINGS (R178) -/

/-- SET_SETTINGS takes effect (R178, R180): the block, the log, the user blocks. -/
def State.setSettings (s : State) (o : Order) : State :=
  let old := s.store.image
  let new := s.settingsImage o.ref.slot old
  ((s.storeEffect o .settings false new
    { kind := .setting, param := 0x80, old := 0, new := settingsDiffer old new, oldCheck := blockCheck old .settings,
      newCheck := blockCheck new .settings }).tellUsers).evalBoth

/-- The first side with a sale in progress, A before B (R178). -/
def State.saleSide (s : State) : Option Side := [Side.a, .b].find? (fun d => s.inSale d)

/-- The owner's part of SET_SETTINGS (R176, R178; log 23). -/
def State.orderSetSettings (s : State) (o : Order) : State :=
  match s.settingsField o.ref.slot with
  | some field => s.complete o.ref .badOrder field
  | none =>
    match s.storeTest false (s.saleSide.map sideCode) with
    | some r => s.complete o.ref r.1 r.2
    | none => s.setSettings o

/-- SET_SETTINGS (R178). -/
def execSetSettings (s : State) : Host.Outcome State Fault Refusal :=
  event s (fun s => s.withPlainOrder .setSettings State.orderSetSettings)

/-! ## INIT_TOTALS and CLEAR_LOG (R179) -/

/-- The new total of meter n of an INIT_TOTALS body. -/
def State.bodyTotal (s : State) (slot : Nat) (m : Meter) : Nat := s.bodyField slot (8 * meterIndex m) 8

/-- The retained values after INIT_TOTALS (R179): totals set, unassigned volumes and grade totals 0, the mark cleared. -/
def Retention.withTotals (r : Retention) (f : Meter → Nat) : Retention :=
  let side (d : Side) : Three RetMeter := ⟨⟨f ⟨d, .p1⟩, 0⟩, ⟨f ⟨d, .p2⟩, 0⟩, ⟨f ⟨d, .p3⟩, 0⟩⟩
  { r with
    meters := ⟨side .a, side .b⟩
    sides := ⟨{ r.sides.a with grades := Five.ofFun (fun _ => ⟨0, 0⟩) }, { r.sides.b with grades := Five.ofFun (fun _ => ⟨0, 0⟩) }⟩
    totalsInvalid := false }

/-- The parts of retention memory that INIT_TOTALS writes (R179). -/
def totalsParts : List RetPart := meterParts ++ gradeParts.map (.side .a) ++ gradeParts.map (.side .b) ++ [.totalsInvalid]

/-- The sum of the six meter totals, modulo 10^12 (R180). -/
def sumTotals (f : Meter → Nat) : Nat := (allMeters.map f).sum % 10 ^ 12

/-- The unassigned accumulator returns to 0 (R40). -/
def Channel.dropUnassigned (c : Channel) : Channel := { c with unAcc := 0, unV := 0 }

/-- INIT_TOTALS takes effect (R179, R180). -/
def State.initTotals (s : State) (o : Order) : State :=
  let old (m : Meter) : Nat := ((s.ret.meters.get m.side).get m.product).total
  let new := s.bodyTotal o.ref.slot
  let t := s.storeEffect o .none false s.store.image
    { kind := .totalsInit, param := 0x81, old := sumTotals old, new := sumTotals new, oldCheck := 0, newCheck := 0 }
  let t := { t with
    ret := t.ret.withTotals new, rev := t.rev.wroteTo totalsParts
    met := ⟨t.met.a.map Channel.dropUnassigned, t.met.b.map Channel.dropUnassigned⟩ }
  (t.updPower (fun p => { p with totalsInvalid := false })).reviewBoth

/-- The owner's part of INIT_TOTALS (R176, R179). -/
def State.orderInitTotals (s : State) (o : Order) : State :=
  match s.totalsField o.ref.slot with
  | some field => s.complete o.ref .badOrder field
  | none =>
    match s.storeTest false none with
    | some r => s.complete o.ref r.1 r.2
    | none => s.initTotals o

/-- INIT_TOTALS (R179). -/
def execInitTotals (s : State) : Host.Outcome State Fault Refusal := event s (fun s => s.withPlainOrder .initTotals State.orderInitTotals)

/-- CLEAR_LOG takes effect (R179, R180): every entry is removed and a LOG_CLEARED entry is added. -/
def State.clearLog (s : State) (o : Order) : State :=
  s.storeEffect o .none true (clearEntries s.store.image)
    { kind := .logCleared, param := 0x82, old := logCount s.store.image, new := 0, oldCheck := 0, newCheck := 0 }

/-- The owner's part of CLEAR_LOG (R176, R179). -/
def State.orderClearLog (s : State) (o : Order) : State :=
  match s.storeTest true none with
  | some r => s.complete o.ref r.1 r.2
  | none => s.clearLog o

/-- CLEAR_LOG (R179). -/
def execClearLog (s : State) : Host.Outcome State Fault Refusal := event s (fun s => s.withPlainOrder .clearLog State.orderClearLog)

/-! ## The switch, the check and the reload (R173 to R175) -/

/-- METROLOGY_SWITCH_CHANGE (R175). -/
def execMetrologySwitchChange (on : Bool) (s : State) : Host.Outcome State Fault Refusal :=
  event s (fun s => if s.store.switchOn = on then s else (s.updStore (fun x => { x with switchOn := on })).attn .metrology)

/-- The conditions of a check (R174). -/
def StorePort.checks (x : StorePort) : Bool :=
  !x.absent && !x.fault && decide (x.list = []) && decide (x.write = none) && !x.reloadDue && !x.reloading

/-- A mismatch: a reload is due and CALIBRATION_MISMATCH is reported (R142, R173). -/
def State.mismatch (s : State) : State :=
  (s.updStore StorePort.markReload).reportHalt { code := .calibrationMismatch, first := none, second := none, flow := 0 }

/-- A check timer expiry (R174). -/
def State.checkExpiry (s : State) (stored : Word16) : State :=
  if s.store.check.isSome then
    let t := s.updStore (fun x => { x with check := some 10000 })
    if s.store.checks = true ∧ (imageCrc s.store.image ≠ s.store.refCrc ∨ stored ≠ s.store.refCrc) then t.mismatch else t
  else s

/-- CHECK_TIMER_EXPIRY (R174): the operand is the stored CRC as it is read from the store (log 9). -/
def execCheckTimerExpiry (storedCrc : Word16) (s : State) : Host.Outcome State Fault Refusal := event s (fun s => s.checkExpiry storedCrc)

/-- The store is not read outside WAKING, ACTIVE, HALTED and SHUTTING_DOWN (R173). -/
def State.storeAwake (s : State) : Bool :=
  match s.pw.state with
  | .waking | .active | .halted | .shuttingDown => true
  | _ => false

/-- RELOAD_START (R173). -/
def execReloadStart (s : State) : Host.Outcome State Fault Refusal :=
  event s (fun s =>
    if s.store.reloadDue = true ∧ s.store.list = [] ∧ s.anySale = false ∧ s.storeAwake = true then
      s.updStore (fun x => { x with reloadDue := false, reloading := true })
    else s)

/-- A reload completes (R173): the load, the user blocks, each meter's calibration, the prerequisites, the waiting grades. -/
def State.reloadDone (s : State) (image : List Host.Cell) : State :=
  let t := ((s.loadStore image).updStore (fun x => { x with reloading := false })).tellUsers
  ((allMeters.foldl State.takeCalibration t).reviewBoth).evalBoth

/-- RELOAD_DONE (R173). -/
def execReloadDone (image : List Host.Cell) (s : State) : Host.Outcome State Fault Refusal :=
  event s (fun s => if s.store.reloading then s.reloadDone image else s)

/-! ## Store pages (R181) -/

/-- STORE_PAGE_DONE (R181): the page is read back. -/
def execStorePageDone (readBack : List Byte) (s : State) : Host.Outcome State Fault Refusal :=
  event s (fun s =>
    match s.store.write with
    | none => s
    | some w => if readBack = w.page.bytes then s.pageGood w else s.writeBad)

/-- STORE_CYCLE_TIMEOUT (R181): the write fails. -/
def execStoreCycleTimeout (s : State) : Host.Outcome State Fault Refusal :=
  event s (fun s => if s.store.write.isSome then s.writeBad else s)

end Sys2Proof.Machine
end

