-- ==== Sys2Proof/Machine/PowerEvents.lean ====
section
/-! DEFINITION. The commands of the power sequencer (file 08): STANDBY, WAKE, SET_CLOCK, clock, wake, standby, supply, reset. -/

namespace Sys2Proof.Machine

/-! ## Orders (R159, R161, R163) -/

/-- The first side that keeps STANDBY from being taken, with its state: a sale in progress or AUTHORIZED (R159). -/
def State.busySide (s : State) : Option Side := [Side.a, .b].find? (fun d => s.inSale d || decide (s.fpState d = .authorized))

/-- The owner's part of STANDBY (R159, R160). Its detail HALTED is the reason's code: the model's choice (log 76). -/
def State.orderStandby (s : State) (o : Order) : State :=
  let wake := s.bodyField o.ref.slot 0 4
  if wake ≠ 0 ∧ wake ≤ s.rtc.toNat then s.complete o.ref .badOrder Reason.wakeTime.code
  else if s.pw.state = .halted then s.complete o.ref .wrongState Reason.halted.code
  else
    match s.busySide with
    | some d => s.complete o.ref .wrongState (sideStateDetail d (s.fpState d))
    | none =>
      ((s.setWakeTime (BitVec.ofNat 32 wake)).updPower (fun p => { p with standbyOrder := some o.ref })).beginShutdown

/-- STANDBY (R159). -/
def execStandby (s : State) : Host.Outcome State Fault Refusal := event s (fun s => s.withPlainOrder .standby State.orderStandby)

/-- The owner's part of WAKE (R161). That it wakes a device whose port sleeps, the order being queued before, is the model's choice (log 82). -/
def State.orderWake (s : State) (o : Order) : State :=
  let t := s.complete o.ref .ok (powerDetail s.pw.state)
  if s.pw.state = .standby then t.wakeStart .wakeOrder else t

/-- WAKE (R161, R147). -/
def execWake (s : State) : Host.Outcome State Fault Refusal := event s (fun s => s.withPlainOrder .wake State.orderWake)

/-- The wake time is nonzero and the counter has reached it (R161, R162). -/
def State.wakeTimePassed (s : State) : Bool := decide (s.ret.wakeTime ≠ 0) && decide (s.ret.wakeTime.toNat ≤ s.rtc.toNat)

/-- A passed wake time in STANDBY starts a wake; in SHUTTING_DOWN it is held as a wake request (R161). -/
def State.checkWakeTime (s : State) : State :=
  if s.wakeTimePassed then
    match s.pw.state with
    | .standby => s.wakeStart .wakeTime
    | .shuttingDown => s.updPower (fun p => { p with wakeRequest := some (p.wakeRequest.getD .wakeTime) })
    | _ => s
  else s

/-- The owner's part of SET_CLOCK (R163). Its detail HALTED is the reason's code: the model's choice (log 76). -/
def State.orderSetClock (s : State) (o : Order) : State :=
  if s.pw.state = .halted then s.complete o.ref .wrongState Reason.halted.code
  else
    let t := { s with rtc := BitVec.ofNat 32 (s.bodyField o.ref.slot 0 4) }
    let t := (t.complete o.ref .ok s.rtc.toNat).rewrite .device
    if t.pw.state = .standby then t.checkWakeTime else t

/-- SET_CLOCK (R163). -/
def execSetClock (s : State) : Host.Outcome State Fault Refusal := event s (fun s => s.withPlainOrder .setClock State.orderSetClock)

/-! ## The CLOCK phase (R154, R155) -/

/-- The device is in the CLOCK phase of a wake. -/
def State.inClock (s : State) : Bool := decide (s.pw.state = .waking) && decide (s.pw.phase = .clock)

/-- CRYSTAL_DETECTED (R154): the PLL is enabled and the sequencer waits for lock. -/
def execCrystalDetected (s : State) : Host.Outcome State Fault Refusal :=
  event s (fun s =>
    if s.inClock = true ∧ s.pw.crystalWatch.isSome = true then
      s.updPower (fun p => { p with crystalWatch := none, lockWait := some 5, pllRetried := false })
    else s)

/-- The clock stays on, or falls back to, the internal oscillator: CLOCK_DEGRADED, which sets POWER (R151, R154, R155). -/
def State.degrade (s : State) (why : ClockFail) : State :=
  (s.updPower (fun p => { p with clock := .internal, clockFail := some why, pll := false, degraded := true })).attn .power

/-- The CLOCK phase ends and the STORE phase begins (R154, R156). -/
def State.endClock (s : State) : State := (s.updPower (fun p => { p with crystalWatch := none, lockWait := none })).setPhase .store

/-- CRYSTAL_WATCH_TIMEOUT (R154). -/
def execCrystalWatchTimeout (s : State) : Host.Outcome State Fault Refusal :=
  event s (fun s =>
    if s.inClock = true ∧ s.pw.crystalWatch.isSome = true then (s.degrade .noCrystal).endClock else s)

/-- PLL_LOCK (R154): the clock source is CRYSTAL, CLOCK_DEGRADED is cleared. -/
def execPllLock (s : State) : Host.Outcome State Fault Refusal :=
  event s (fun s =>
    if s.inClock = true ∧ s.pw.lockWait.isSome = true then
      (s.updPower (fun p => { p with clock := .crystal, clockFail := none, pll := true, degraded := false })).endClock
    else s)

/-- PLL_LOCK_TIMEOUT (R154): one further wait, then the internal oscillator. -/
def execPllLockTimeout (s : State) : Host.Outcome State Fault Refusal :=
  event s (fun s =>
    if s.inClock = true ∧ s.pw.lockWait.isSome = true then
      (if s.pw.pllRetried then (s.degrade .noLock).endClock
       else s.updPower (fun p => { p with lockWait := some 5, pllRetried := true }))
    else s)

/-- An open sale carries CLOCK_DEGRADED (R155). -/
def State.degradeSale (s : State) (d : Side) : State := if s.inSale d then s.updSale d [.degraded] (fun x => { x with degraded := true }) else s

/-- CRYSTAL_STOP (R155): it acts while the main clock runs from the PLL, and so neither in the CLOCK phase nor after a wake that was cut in it
(R154; log 52). -/
def execCrystalStop (s : State) : Host.Outcome State Fault Refusal :=
  event s (fun s =>
    if s.pw.pll = true ∧ s.pw.osc = true then ((s.degrade .noCrystal).degradeSale .a).degradeSale .b else s)

/-! ## The STORE and RETENTION phases (R156, R157) -/

/-- The load of the STORE phase ends, the RETENTION phase runs and the DISPLAY phase begins (R156 to R158, R174). -/
def State.storeLoaded (s : State) (image : List Host.Cell) (levels : Sides (Three LevelPair)) : State :=
  let t := (s.loadStore image).updStore (fun x => { x with check := some 10000 })
  ((((t.setPhase .retention).retentionPhase).startDecoding levels).reviewBoth).enterDisplay

/-- STORE_LOAD_DONE (R156, R157, R172): the operands are the image as read (log 9) and the meter inputs' levels (R31). -/
def execStoreLoadDone (image : List Host.Cell) (levels : Sides (Three LevelPair)) (s : State) : Host.Outcome State Fault Refusal :=
  event s (fun s => if s.pw.state = .waking ∧ s.pw.phase = .store then s.storeLoaded image levels else s)

/-! ## STANDBY entry and wake sources (R160, R161) -/

/-- The device becomes STANDBY (R160): the order completes OK, the queue is emptied, the port sleeps unless it is to stay awake, and a
held wake request begins its wake. A reload still in progress ends (R173): the model's choice (log 67). -/
def State.enterStandby (s : State) : State :=
  let t := s.disableDrives.stopDecoding.updStore (fun x => { x with check := none, reloading := false, reloadDue := false })
  let t := (t.setPowerState .standby).updPower (fun p => { p with osc := false, pll := false, standbyOrder := none, wakeRequest := none })
  let t := t.completeOpt s.pw.standbyOrder .ok 0
  let t := t.updPort (fun p => { p with posts := [], asleep := !p.awake })
  match s.pw.wakeRequest with
  | some c => t.wakeStart c
  | none => t

/-- STANDBY_ENTRY (R160): after the BLANK and the disabling of the outputs, with the store-write list empty. -/
def execStandbyEntry (s : State) : Host.Outcome State Fault Refusal :=
  event s (fun s => if s.pw.state = .shuttingDown ∧ s.pw.blanked = true ∧ s.store.list = [] then s.enterStandby else s)

/-- WAKE_TIME_REACHED (R161). -/
def execWakeTimeReached (s : State) : Host.Outcome State Fault Refusal := event s State.checkWakeTime

/-- WAKE_PIN (R161). -/
def execWakePin (s : State) : Host.Outcome State Fault Refusal :=
  event s (fun s =>
    match s.pw.state with
    | .standby => s.wakeStart .wakePin
    | .shuttingDown => s.updPower (fun p => { p with wakeRequest := some (p.wakeRequest.getD .wakePin) })
    | _ => s)

/-- RTC_SECOND (R162): the counter runs in every state, with or without mains; the device status record is rewritten. -/
def execRtcSecond (s : State) : Host.Outcome State Fault Refusal :=
  .next (if s.pw.mains then commit s { s with rtc := s.rtc + 1 } else { s with rtc := s.rtc + 1 })

/-! ## The supply (R152, R164, R165) -/

/-- A warning taken during a reset hold ends the hold: exchange memory is zeroed at once (R167). -/
def State.endResetHold (s : State) : State :=
  if s.pw.resetHold.isSome then
    s.zeroExchange.updPower (fun p => { p with resetHold := none, resetMax := none })
  else s

/-- The STANDBY order of a shutdown that a warning cuts (R164). -/
def State.failStandby (s : State) : State :=
  (s.completeOpt s.pw.standbyOrder .wrongState (powerDetail .powerFail)).updPower (fun p => { p with standbyOrder := none })

/-- A power-fail warning is taken (R164, R165, R167). -/
def State.powerFailWarning (s : State) : State :=
  let t := if s.pw.state = .powerFail then s else (s.failActions .powerLoss .powerFail).failStandby
  (t.updPower (fun p => { p with warning := true, hold := none })).endResetHold

/-- POWER_FAIL_WARNING (R164). -/
def execPowerFailWarning (s : State) : Host.Outcome State Fault Refusal :=
  .next (if s.pw.mains then commit (if s.pw.resetHold.isSome then s.mirrorCleared else s) s.powerFailWarning else s)

/-- WARNING_RELEASE (R165): the power-good hold starts. -/
def execWarningRelease (s : State) : Host.Outcome State Fault Refusal :=
  event s (fun s =>
    if s.pw.state = .powerFail ∧ s.pw.warning = true then s.updPower (fun p => { p with warning := false, hold := some 500 }) else s)

/-- The cause of the wake that a power-good hold or a reset hold begins: a reset's own cause stays (R167), also that of a RESET pin taken in
the power-good hold of a mains power-up (R152): the model's choice (log 65). -/
def State.failWakeCause (s : State) (c : WakeCause) : WakeCause := if s.pw.resetPending then s.pw.lastWake else c

/-- The power-good hold ends (R152, R165, R167): exchange memory is zeroed after a mains power-up; the wake begins unless a reset hold
still runs. Where one does after a mains power-up, the port answers from then on: the model's choice (log 65). -/
def State.powerGood (s : State) : State :=
  let t := s.updPower (fun p => { p with hold := none, cold := false })
  let t := if s.pw.cold then t.zeroExchange else t
  if s.pw.resetHold.isSome then t else t.wakeStart (s.failWakeCause (if s.pw.cold then .mains else .warningRelease))

/-- The power-good hold may end: it runs, with the warning released, in POWER_FAIL. -/
def State.holdEnds (s : State) : Bool := decide (s.pw.state = .powerFail) && s.pw.hold.isSome && !s.pw.warning

/-- POWER_GOOD_HOLD_END (R152, R165). -/
def execPowerGoodHoldEnd (s : State) : Host.Outcome State Fault Refusal :=
  .next (if s.pw.mains = true ∧ s.holdEnds = true then commit (if s.pw.cold then s.mirrorCleared else s) s.powerGood else s)

/-- What a loss of mains leaves (R152): retention memory, the real-time counter, and the model's own fields. -/
def State.mainsLost (s : State) : State :=
  { State.reset with
      pending := s.pending, readBack := s.readBack, free := s.free, ret := s.ret, rtc := s.rtc, pw := .lost
      port := .zeroed, rev := { Revisions.zeroed with force := [], reads := s.rev.reads }
      fp := ⟨.powerUp s.ret.sides.a.locked, .powerUp s.ret.sides.b.locked⟩ }

/-- MAINS_LOSS (R152). -/
def execMainsLoss (s : State) : Host.Outcome State Fault Refusal := .next (if s.pw.mains then s.mainsLost else s)

/-- MAINS_RETURN (R152): POWER_FAIL, held until the warning reads released and the supply has stayed good for 500 ms. -/
def execMainsReturn (warning : Bool) (s : State) : Host.Outcome State Fault Refusal :=
  .next (if s.pw.mains then s
         else s.updPower (fun p => { p with mains := true, state := .powerFail, cold := true, warning := warning,
                                            hold := if warning then none else some 500 }))

/-- RETENTION_SUPPLY_LOW (R168): during mains absence the flag is cleared, and the values are no longer trusted (log 8). -/
def execRetentionSupplyLow (s : State) : Host.Outcome State Fault Refusal :=
  .next (if s.pw.mains then s
         else { s with ret := { Config.lostRetention s.free with intact := false }, rtc := Config.lostCounter s.free, free := s.free + 1 })

/-! ## Device reset (R166, R167) -/

/-- RESET_PIN (R166). -/
def execResetPin (s : State) : Host.Outcome State Fault Refusal := event s (fun s => s.deviceReset .resetPin)

/-- The reset hold ends (R166 part 3, R167): zeroing, and the wake unless the power-good hold must end first. -/
def State.resetHoldEnd (s : State) : State :=
  let t := s.zeroExchange.updPower (fun p => { p with resetHold := none, resetMax := none })
  if s.pw.warning = true ∨ s.pw.hold.isSome = true then t else t.wakeStart s.pw.lastWake

/-- RESET_HOLD_END (R166). -/
def execResetHoldEnd (s : State) : Host.Outcome State Fault Refusal :=
  .next (if s.pw.mains = true ∧ s.pw.state = .powerFail ∧ s.pw.resetHold.isSome = true then commit s.mirrorCleared s.resetHoldEnd else s)

end Sys2Proof.Machine
end

