-- ==== Sys2Proof/Machine/PortEvents.lean ====
section
/-! DEFINITION. The commands of the host port (file 10): transactions, register writes, posts, and the takes that reach no owner. -/

namespace Sys2Proof.Machine

/-- A command of the host reaches the port only while it answers (R182). -/
def State.onPort (s : State) (act : State → State) : State := if s.portAnswers then act s else s

/-! ## Registers (R183, R187, R193, R194) -/

/-- An ignored or withdrawn post (R187, R189): the last ignored post, and ORDER; the device status record is rewritten. -/
def State.ignorePost (s : State) (value : Nat) (why : IgnoreReason) : State :=
  ((s.updPort (fun p => { p with lastIgnored := some { value := value, reason := why, time := s.rtc } })).attn .order).rewrite .device

/-- A write to ORDER_POST (R187): the three tests, and the queue. -/
def State.post (s : State) (value : Word16) : State :=
  let n := value.toNat
  if 15 < n then s.ignorePost n .range
  else if s.slotPosted n = false then s.ignorePost n .notPosted
  else if s.port.posts.contains n then s.ignorePost n .queued
  else s.updPort (fun p => { p with posts := p.posts ++ [n] })

/-- ORDER_POST (R187). -/
def execOrderPost (value : Word16) (s : State) : Host.Outcome State Fault Refusal := event s (fun s => s.onPort (fun s => s.post value))

/-- A write to ATTN_ENABLE (R183, R194). -/
def State.setEnable (s : State) (mask : Word16) : State := s.updPort (fun p => { p with enable := mask })

/-- ATTN_ENABLE (R194). -/
def execAttnEnable (mask : Word16) (s : State) : Host.Outcome State Fault Refusal :=
  event s (fun s => s.onPort (fun s => s.setEnable mask))

/-- A write to ATTN_CLEAR (R193). -/
def State.clearAttn (s : State) (mask : Word16) : State := s.updPort (fun p => { p with attn := p.attn &&& ~~~mask })

/-- ATTN_CLEAR (R193). -/
def execAttnClear (mask : Word16) (s : State) : Host.Outcome State Fault Refusal :=
  event s (fun s => s.onPort (fun s => s.clearAttn mask))

/-- The bit DEVICE_RESET of a write to PORT_CONTROL (R166): 1 begins a device reset, 0 has no effect. -/
def State.writeReset (s : State) (value : Bool) : State := if value then s.deviceReset .resetRegister else s

/-- DEVICE_RESET (R166). -/
def execDeviceReset (value : Bool) (s : State) : Host.Outcome State Fault Refusal :=
  event s (fun s => s.onPort (fun s => s.writeReset value))

/-- The bit PORT_AWAKE_IN_STANDBY of a write to PORT_CONTROL (R160, R183): a 0 in STANDBY puts the port to sleep. -/
def State.writeAwake (s : State) (value : Bool) : State :=
  s.updPort (fun p => { p with awake := value, asleep := p.asleep || (decide (s.pw.state = .standby) && !value) })

/-- PORT_AWAKE_IN_STANDBY (R160). -/
def execPortAwakeInStandby (value : Bool) (s : State) : Host.Outcome State Fault Refusal :=
  event s (fun s => s.onPort (fun s => s.writeAwake value))

/-- REGISTER_WRITE_IGNORED (R183). -/
def execRegisterWriteIgnored (_addr _value : Word16) (s : State) : Host.Outcome State Fault Refusal := event s id

/-- The value a register reads as (R183; file 11, REGISTERS). -/
def State.readRegister (s : State) (a : Nat) : Nat :=
  if a = 0x4000 then 0xD401
  else if a = 0x4001 then s.port.attn.toNat
  else if a = 0x4002 then s.port.enable.toNat
  else if a = 0x4004 then s.port.posts.length
  else if a = 0x4005 then bit s.pw.devReset + 2 * bit s.port.awake
  else 0

/-- A write to a register by its address (R183). -/
def State.writeRegister (s : State) (a : Nat) (v : Word16) : State :=
  if a = 0x4002 then s.setEnable v
  else if a = 0x4003 then s.clearAttn v
  else if a = 0x4004 then s.post v
  else if a = 0x4005 then (s.writeAwake (v.toNat.testBit 1)).writeReset (v.toNat.testBit 0)
  else s

/-! ## Transactions (R182, R184) -/

/-- The byte a READ sends at position `i` from a start address (R182). -/
def State.sentByte (s : State) (start i : Nat) : Byte :=
  if start < 0x4000 then (if start + i < 0x4000 then s.exchangeByte (start + i) else 0)
  else
    let v := s.readRegister (start + i / 2)
    BitVec.ofNat 8 (if i % 2 = 0 then v / 256 else v)

/-- READ (R182): the bytes sent; a transaction that ends before its address is complete sends none. -/
def execRead (addr : Option Word16) (count : Nat) (s : State) : Host.Outcome State Fault Refusal :=
  event s (fun s =>
    if s.portAnswers then
      match addr with
      | some a => s.updPort (fun p => { p with hsdo := some ((List.range count).map (s.sentByte a.toNat)) })
      | none => s
    else s.updPort (fun p => { p with hsdo := none }))

/-- A byte of a 16-bit word replaced: the high byte at an even position (R196). -/
def replaceByte (w : Word16) (high : Bool) (b : Byte) : Word16 :=
  BitVec.ofNat 16 (if high then b.toNat * 256 + w.toNat % 256 else w.toNat / 256 * 256 + b.toNat)

/-- A host write to a mail cell: its state word alone, at offsets 2 and 3 (R128, R184). -/
def writeCell (cells : List MailCell) (off : Nat) (b : Byte) : List MailCell :=
  if off % 80 = 2 ∨ off % 80 = 3 then
    cells.modify (off / 80) (fun c => { c with stateWord := replaceByte c.stateWord (off % 80 = 2) b })
  else cells

/-- A host write of one byte of exchange memory (R184). -/
def State.hostByte (s : State) (a : Nat) (b : Byte) : State :=
  if a < 0x1000 then s
  else if a < 0x1400 then s.updReader .a (fun r => { r with cells := writeCell r.cells (a - 0x1000) b })
  else if a < 0x1800 then s.updReader .b (fun r => { r with cells := writeCell r.cells (a - 0x1400) b })
  else if a < 0x2000 then s
  else if a < 0x4000 then s.setMem (s.mem.write a b)
  else s

/-- A host write of bytes from an address on (R182). -/
def State.hostBytes (s : State) (a : Nat) : List Byte → State
  | [] => s
  | b :: bs => (s.hostByte a b).hostBytes (a + 1) bs

/-- A host write of registers from an address on: two bytes each, a last single byte writes nothing (R182). -/
def State.hostRegisters (s : State) (a : Nat) : List Byte → State
  | h :: l :: rest => (s.writeRegister a (BitVec.ofNat 16 (h.toNat * 256 + l.toNat))).hostRegisters (a + 1) rest
  | _ => s

/-- WRITE (R182). -/
def execWrite (addr : Option Word16) (data : List Byte) (s : State) : Host.Outcome State Fault Refusal :=
  event s (fun s => s.onPort (fun s =>
    match addr with
    | none => s
    | some a => if a.toNat < 0x4000 then s.hostBytes a.toNat data else s.hostRegisters a.toNat data))

/-- INVALID_COMMAND (R182): the port sends zeros and ignores the rest. -/
def execInvalidCommand (command : Byte) (count : Nat) (s : State) : Host.Outcome State Fault Refusal :=
  event s (fun s =>
    if command = 0x02 ∨ command = 0x03 then s
    else s.updPort (fun p => { p with hsdo := if s.portAnswers then some (List.replicate count 0) else none }))

/-! ## Takes that reach no owner (R188, R189) -/

/-- The slot at the head of the post queue, where the device power state makes takes. -/
def State.takeHead (s : State) (act : State → Nat → State) : State :=
  match s.port.posts with
  | [] => s
  | n :: _ => if takesMade s.pw.state then act s n else s

/-- Takes a slot and completes its order in the take event. -/
def State.takeAndAnswer (s : State) (n : Nat) (code : ResultCode) (detail : Nat) : State :=
  (s.takeSlot n).1.complete (s.takeSlot n).2.ref code detail

/-- TAKE_UNKNOWN_KIND (R188). -/
def execTakeUnknownKind (s : State) : Host.Outcome State Fault Refusal :=
  event s (fun s => s.takeHead (fun s n =>
    if s.slotPosted n = true ∧ kindNamesOrder (s.slotKind n) = false then s.takeAndAnswer n .badOrder kindDetail else s))

/-- TAKE_WITHDRAWN (R189). -/
def execTakeWithdrawn (s : State) : Host.Outcome State Fault Refusal :=
  event s (fun s => s.takeHead (fun s n =>
    if s.slotPosted n then s else (s.updPort (fun p => { p with posts := p.posts.tail })).ignorePost n .withdrawn))

/-- NOT_ACTIVE_TAKE (R188). That an order for the owner of a side whose target is no side is answered NOT_ACTIVE too, and not BAD_ORDER, is the
model's choice (log 84). -/
def execNotActiveTake (s : State) : Host.Outcome State Fault Refusal :=
  event s (fun s => s.takeHead (fun s n =>
    if s.pw.state = .standby ∧ s.slotPosted n = true ∧ kindNamesOrder (s.slotKind n) = true
        ∧ s.slotKind n ≠ OrderKind.wake.code ∧ s.slotKind n ≠ OrderKind.setClock.code then
      s.takeAndAnswer n .notActive 0
    else s))

end Sys2Proof.Machine
end

