-- ==== Sys2Proof/Machine/Dispatch.lean ====
section
/-! DEFINITION. The meaning of every command: one arm for each constructor of Instr. -/

namespace Sys2Proof.Machine

/-- The effect of a command on everything but the queue of waiting commands. -/
def exec (i : Instr) (s : State) : Host.Outcome State Fault Refusal :=
  match i with
  -- orders taken from the post queue
  | .authorize => Sys2Proof.Machine.execAuthorize s
  | .deauthorize => Sys2Proof.Machine.execDeauthorize s
  | .stop => Sys2Proof.Machine.execStop s
  | .pause => Sys2Proof.Machine.execPause s
  | .resume => Sys2Proof.Machine.execResume s
  | .settle => Sys2Proof.Machine.execSettle s
  | .clearLock => Sys2Proof.Machine.execClearLock s
  | .clearHalt => Sys2Proof.Machine.execClearHalt s
  | .priceSet => Sys2Proof.Machine.execPriceSet s
  | .showMessage => Sys2Proof.Machine.execShowMessage s
  | .readerSend => Sys2Proof.Machine.execReaderSend s
  | .readerRestart => Sys2Proof.Machine.execReaderRestart s
  | .motorClear => Sys2Proof.Machine.execMotorClear s
  | .standby => Sys2Proof.Machine.execStandby s
  | .wake => Sys2Proof.Machine.execWake s
  | .setClock => Sys2Proof.Machine.execSetClock s
  | .calibrate => Sys2Proof.Machine.execCalibrate s
  | .setSettings => Sys2Proof.Machine.execSetSettings s
  | .initTotals => Sys2Proof.Machine.execInitTotals s
  | .clearLog => Sys2Proof.Machine.execClearLog s
  | .takeUnknownKind => Sys2Proof.Machine.execTakeUnknownKind s
  | .takeWithdrawn => Sys2Proof.Machine.execTakeWithdrawn s
  | .notActiveTake => Sys2Proof.Machine.execNotActiveTake s
  -- the host port
  | .orderPost value => Sys2Proof.Machine.execOrderPost value s
  | .attnEnable mask => Sys2Proof.Machine.execAttnEnable mask s
  | .attnClear mask => Sys2Proof.Machine.execAttnClear mask s
  | .deviceReset value => Sys2Proof.Machine.execDeviceReset value s
  | .portAwakeInStandby value => Sys2Proof.Machine.execPortAwakeInStandby value s
  | .registerWriteIgnored addr value => Sys2Proof.Machine.execRegisterWriteIgnored addr value s
  | .read addr count => Sys2Proof.Machine.execRead addr count s
  | .write addr data => Sys2Proof.Machine.execWrite addr data s
  | .invalidCommand command count => Sys2Proof.Machine.execInvalidCommand command count s
  -- fueling points
  | .hoseLift side hose => Sys2Proof.Machine.execHoseLift side hose s
  | .hoseHang side hose => Sys2Proof.Machine.execHoseHang side hose s
  | .gradeButtonPress side grade => Sys2Proof.Machine.execGradeButtonPress side grade s
  | .authExpiry side => Sys2Proof.Machine.execAuthExpiry side s
  | .gradePressValidityExpiry side => Sys2Proof.Machine.execGradePressValidityExpiry side s
  | .startTimeout side => Sys2Proof.Machine.execStartTimeout side s
  | .noFlowTimeout side => Sys2Proof.Machine.execNoFlowTimeout side s
  | .pauseTimeout side => Sys2Proof.Machine.execPauseTimeout side s
  | .settleTimerExpiry side => Sys2Proof.Machine.execSettleTimerExpiry side s
  -- metering
  | .forwardPulse meter => Sys2Proof.Machine.execForwardPulse meter s
  | .reversePulse meter => Sys2Proof.Machine.execReversePulse meter s
  | .illegalTransition meter => Sys2Proof.Machine.execIllegalTransition meter s
  | .subwindowExpiry meter => Sys2Proof.Machine.execSubwindowExpiry meter s
  | .quietTimerExpiry meter kind => Sys2Proof.Machine.execQuietTimerExpiry meter kind s
  -- valves, blend loops and motors
  | .pwmPeriodBoundary => Sys2Proof.Machine.execPwmPeriodBoundary s
  | .pullInEnd valve => Sys2Proof.Machine.execPullInEnd valve s
  | .blendIntervalExpiry side => Sys2Proof.Machine.execBlendIntervalExpiry side s
  | .motorStartExpiry motor => Sys2Proof.Machine.execMotorStartExpiry motor s
  | .runOnExpiry motor => Sys2Proof.Machine.execRunOnExpiry motor s
  | .motorTripAssert motor => Sys2Proof.Machine.execMotorTripAssert motor s
  | .motorTripRelease motor => Sys2Proof.Machine.execMotorTripRelease motor s
  -- the display bus
  | .displayFrameStart => Sys2Proof.Machine.execDisplayFrameStart s
  | .displayFrameComplete headState check => Sys2Proof.Machine.execDisplayFrameComplete headState check s
  | .displayFrameNack => Sys2Proof.Machine.execDisplayFrameNack s
  | .clockStretchTimeout => Sys2Proof.Machine.execClockStretchTimeout s
  | .arbitrationLost => Sys2Proof.Machine.execArbitrationLost s
  | .busStart => Sys2Proof.Machine.execBusStart s
  | .busStop => Sys2Proof.Machine.execBusStop s
  | .busStuckTimeout => Sys2Proof.Machine.execBusStuckTimeout s
  | .busClearDone bothHigh => Sys2Proof.Machine.execBusClearDone bothHigh s
  | .generalCallComplete => Sys2Proof.Machine.execGeneralCallComplete s
  | .refreshTimerExpiry role => Sys2Proof.Machine.execRefreshTimerExpiry role s
  | .probeTimerExpiry role => Sys2Proof.Machine.execProbeTimerExpiry role s
  | .staleDeadlineExpiry side => Sys2Proof.Machine.execStaleDeadlineExpiry side s
  | .messageDurationExpiry side => Sys2Proof.Machine.execMessageDurationExpiry side s
  | .saleSpacingExpiry role => Sys2Proof.Machine.execSaleSpacingExpiry role s
  | .segmentTestEnd => Sys2Proof.Machine.execSegmentTestEnd s
  | .displaySettleEnd => Sys2Proof.Machine.execDisplaySettleEnd s
  -- card readers
  | .readerPollExpiry side => Sys2Proof.Machine.execReaderPollExpiry side s
  | .readerReply side skipped kind flags rest => Sys2Proof.Machine.execReaderReply side skipped kind flags rest s
  | .readerResponseTimeout side => Sys2Proof.Machine.execReaderResponseTimeout side s
  | .warmUpExpiry side => Sys2Proof.Machine.execWarmUpExpiry side s
  | .powerOffTimerExpiry side => Sys2Proof.Machine.execPowerOffTimerExpiry side s
  | .tamperAssert side => Sys2Proof.Machine.execTamperAssert side s
  | .tamperRelease side => Sys2Proof.Machine.execTamperRelease side s
  | .overcurrent side => Sys2Proof.Machine.execOvercurrent side s
  | .supplyFaultRelease side => Sys2Proof.Machine.execSupplyFaultRelease side s
  -- the metrology store port
  | .metrologySwitchChange on => Sys2Proof.Machine.execMetrologySwitchChange on s
  | .checkTimerExpiry storedCrc => Sys2Proof.Machine.execCheckTimerExpiry storedCrc s
  | .reloadStart => Sys2Proof.Machine.execReloadStart s
  | .reloadDone image => Sys2Proof.Machine.execReloadDone image s
  | .storeLoadDone image levels => Sys2Proof.Machine.execStoreLoadDone image levels s
  | .storePageDone readBack => Sys2Proof.Machine.execStorePageDone readBack s
  | .storeCycleTimeout => Sys2Proof.Machine.execStoreCycleTimeout s
  -- clock, power and reset
  | .crystalDetected => Sys2Proof.Machine.execCrystalDetected s
  | .crystalWatchTimeout => Sys2Proof.Machine.execCrystalWatchTimeout s
  | .pllLock => Sys2Proof.Machine.execPllLock s
  | .pllLockTimeout => Sys2Proof.Machine.execPllLockTimeout s
  | .crystalStop => Sys2Proof.Machine.execCrystalStop s
  | .standbyEntry => Sys2Proof.Machine.execStandbyEntry s
  | .wakeTimeReached => Sys2Proof.Machine.execWakeTimeReached s
  | .wakePin => Sys2Proof.Machine.execWakePin s
  | .rtcSecond => Sys2Proof.Machine.execRtcSecond s
  | .powerFailWarning => Sys2Proof.Machine.execPowerFailWarning s
  | .warningRelease => Sys2Proof.Machine.execWarningRelease s
  | .powerGoodHoldEnd => Sys2Proof.Machine.execPowerGoodHoldEnd s
  | .mainsLoss => Sys2Proof.Machine.execMainsLoss s
  | .mainsReturn warning => Sys2Proof.Machine.execMainsReturn warning s
  | .retentionSupplyLow => Sys2Proof.Machine.execRetentionSupplyLow s
  | .resetPin => Sys2Proof.Machine.execResetPin s
  | .resetHoldEnd => Sys2Proof.Machine.execResetHoldEnd s
  -- rows that stand last in the table
  | .quarterStep meter input => Sys2Proof.Machine.execQuarterStep meter input s
  | .readerFrameEnd side => Sys2Proof.Machine.execReaderFrameEnd side s
  | .bothLinesHigh => Sys2Proof.Machine.execBothLinesHigh s
  | .abandonedFrameStop => Sys2Proof.Machine.execAbandonedFrameStop s

end Sys2Proof.Machine
end

