-- ==== Sys2Proof/Safety.lean ====
section
/-! DEFINITION. The terms the claims use: what a run keeps, when an order stands at the head of the queue, and what its answer writes. -/

namespace Sys2Proof.Machine

/-! ## What every step keeps -/

/-- The law of the host port: exchange memory is in canonical form, there are sixteen take numbers of 16 bits, and the post queue holds
slot numbers 0 to 15, each at most once (R186, R187). -/
structure State.PortLaw (s : State) : Prop where
  memory : s.mem.wf = true
  numbers : s.port.takes.length = 16
  width : ∀ x ∈ s.port.takes, x < 65536
  slots : ∀ n ∈ s.port.posts, n < 16
  once : s.port.posts.Nodup

/-- The law of a meter channel's counts (R32, R34, R35, R37, R39, R42). -/
structure Channel.Law (c : Channel) : Prop where
  position : -3 ≤ c.position ∧ c.position ≤ 3
  pending : c.pendingRev ≤ 65535
  illegal : c.illegal ≤ 255
  tally : c.tally ≤ 20
  accumulators : c.saleAcc < 2 ^ 64 ∧ c.unAcc < 2 ^ 64
  rate : c.rate ≤ 2000

/-- The law of what the block holds as data: the host port's, each meter channel's, and the canonical form of the working copy. -/
structure State.DataLaw (s : State) : Prop where
  port : s.PortLaw
  channels : ∀ m, (s.meter m).Law
  copy : ∀ m, s.store.copy = some m → m.wf = true

/-- The fueling-point states in which an authorization is held for a sale or the sale can still be ended (R21). -/
def FpState.live : FpState → Bool
  | .authorized | .starting | .fueling | .paused => true
  | _ => false

/-- The law of the drives. While mains is absent the device is POWER_FAIL (R152). A fueling point is AUTHORIZED, STARTING, FUELING or
PAUSED only while the device is ACTIVE. A valve that is not CLOSED belongs to a side that is FUELING (R57, R61). Outside ACTIVE every
motor is OFF or FAULT (R67, R76). A motor is in the start queue exactly while it is QUEUED, once, and at most one motor is STARTING;
while none is, the queue is empty (R69). -/
structure State.DriveLaw (s : State) : Prop where
  mainsAbsent : s.pw.mains = false → s.pw.state = .powerFail
  liveActive : ∀ d, (s.fpState d).live = true → s.pw.state = .active
  valves : ∀ v, s.valve v ≠ .shut → s.fpState v.side = .fueling
  motors : s.pw.state ≠ .active → ∀ m, (s.motor m).state = .off ∨ (s.motor m).state = .fault
  queueOnce : s.mot.queue.Nodup
  queued : ∀ m, m ∈ s.mot.queue ↔ (s.motor m).state = .queued
  oneStart : ∀ m n, (s.motor m).state = .starting → (s.motor n).state = .starting → m = n
  granted : s.arbiterFree = true → s.mot.queue = []

/-! ## The conditions of claims -/

/-- Mains is present, and in the coming event the writes to retention memory read back good (R170; log 7). -/
def State.steady (s : State) : Prop := s.pw.mains = true ∧ ∀ p, s.readsGood p = true

/-- The head of the post queue is slot `n`; it reads POSTED, holds an order of kind `k` for `target`, and the device power state lets
the order's owner have it (R188, R189). -/
structure State.Offers (s : State) (k : OrderKind) (n target : Nat) : Prop where
  steady : s.steady
  port : s.PortLaw
  head : s.port.posts.head? = some n
  taken : takenIn s.pw.state k = true
  posted : s.slotPosted n = true
  kind : s.slotKind n = k.code
  target : s.slotTarget n = target

/-- The flags of a list, as ATTN_SUMMARY holds them. -/
def flagsOf (fs : List Attn) : Word16 := fs.foldr (fun f w => f.mask ||| w) 0

/-- The bytes of a slot that the controller leaves alone: kind, target and host tag, and everything outside the header (R184). -/
def keptBySlot (n a : Nat) : Prop :=
  a < slotAddr n ∨ a = slotAddr n + 2 ∨ a = slotAddr n + 3 ∨ a = slotAddr n + 4 ∨ a = slotAddr n + 5 ∨ slotAddr n + 16 ≤ a

/-- The order in slot `n` was taken in the step from `s` to `t` and answered in the same event (R189, R190): it left the queue, its take
number rose by 1, its state word reads DONE with the result code, and the detail, the done time and the take time stand in the slot. The
flags `fs` and ORDER are set, no other register of the port changed, and no other byte of exchange memory from 0x2000 on. -/
structure State.Answered (s t : State) (n : Nat) (code : ResultCode) (detail : Nat) (fs : List Attn) : Prop where
  port : t.port = { s.port with attn := s.port.attn ||| flagsOf (.order :: fs), posts := s.port.posts.tail,
                                takes := s.port.takes.set n ((s.takeNumber n + 1) % 65536) }
  state : t.slotState n = 3
  code : t.mem.read (slotAddr n + 1) = BitVec.ofNat 8 code.code
  done : t.mem.readAll (slotAddr n + 6) 2 = bytesBE 2 (doneTime s.rtc t.rtc)
  detail : t.mem.readAll (slotAddr n + 8) 4 = bytesBE 4 detail
  taken : t.mem.readAll (slotAddr n + 12) 4 = bytesBE 4 s.rtc.toNat
  others : ∀ a, keptBySlot n a → t.mem.read a = s.mem.read a

/-- The order in slot `n` was taken in the step from `s` to `t` and is in flight (R189, R191): it left the queue, its take number rose by
1, its state word reads TAKEN, the result fields are zeroed and the take time stands in the slot. The flags `fs` are set. -/
structure State.HeldTaken (s t : State) (n : Nat) (fs : List Attn) : Prop where
  port : t.port = { s.port with attn := s.port.attn ||| flagsOf fs, posts := s.port.posts.tail,
                                takes := s.port.takes.set n ((s.takeNumber n + 1) % 65536) }
  state : t.slotState n = 2
  code : t.mem.read (slotAddr n + 1) = 0
  result : t.mem.readAll (slotAddr n + 6) 6 = List.replicate 6 0
  taken : t.mem.readAll (slotAddr n + 12) 4 = bytesBE 4 s.rtc.toNat
  others : ∀ a, keptBySlot n a → t.mem.read a = s.mem.read a

/-- A fueling point whose sale ends from a state (R21, R49): SETTLING with the settle timer running. The overrun base is the sale's
volume, or the base PAUSED set. -/
def FuelPoint.ended (f : FuelPoint) (volume : Nat) : FuelPoint :=
  { f with state := .settling, start := none, noFlow := none, pause := none, settle := some 500
           base := if f.state = .paused then f.base else some volume
           overrun := if f.state = .paused then f.overrun else 0
           overrunMade := if f.state = .paused then f.overrunMade else false
           flowMade := if f.state = .paused then f.flowMade else false }

/-- A channel under an attribution (R35, R36): a change of it returns pending reverse, illegal count and unassigned tally to 0, and lets a
PULSER_FAULT report be made anew. -/
def Channel.under (c : Channel) (a : Attribution) : Channel :=
  if c.attr = a then c else { c with attr := a, pendingRev := 0, illegal := 0, tally := 0, pulserMade := false }

/-- The attribution of a product's meter while the fueling point of the sale is FUELING, PAUSED or SETTLING (R36). -/
def Sale.claims (x : Sale) (p : Product) : Attribution := if x.grade.isSome = true ∧ x.drawn.get p = true then .sale else .unassigned

/-- Side `d` alone demands a motor (R67). -/
def State.aloneDemands (s : State) (d : Side) (m : Product) : Bool := (s.motor m).demand.get d && !(s.motor m).demand.get d.other

/-- The start queue without the motors that side `d` alone demands (R68). -/
def State.queueWithout (s : State) (d : Side) : List Product := s.mot.queue.filter (fun m => !s.aloneDemands d m)

/-- No motor is STARTING but those that side `d` alone demands (R69). -/
def State.freeWithout (s : State) (d : Side) : Bool :=
  [Product.p1, .p2, .p3].all (fun m => decide ((s.motor m).state ≠ .starting) || s.aloneDemands d m)

/-- Side `d` withdrew its demand on every motor in the step from `s` to `t` (R67, R68, R69, R71): a motor that it alone demanded leaves the
start queue or its start and is OFF, or runs on; where no motor is then STARTING, the head of the queue starts. (A QUEUED motor has no timer
running in any run; where one had, this says nothing of it.) -/
structure State.DemandDropped (s t : State) (d : Side) : Prop where
  queue : t.mot.queue = if s.freeWithout d then (s.queueWithout d).tail else s.queueWithout d
  motors : ∀ m, t.motor m =
    let r : MotorRec := { s.motor m with demand := (s.motor m).demand.set d false }
    if s.freeWithout d = true ∧ (s.queueWithout d).head? = some m then { r with state := .starting, timer := some s.startTime }
    else if s.aloneDemands d m then
      match r.state with
      | .queued => { r with state := .off, timer := if r.timer = none then none else (t.motor m).timer }
      | .starting => { r with state := .off, timer := none }
      | .running => if s.runOnTime = 0 then { r with state := .off } else { r with state := .runOn, timer := some s.runOnTime }
      | _ => r
    else r

/-- The motors of a product set that join the start queue as a side demands them: OFF, and demanded by neither side (R68). -/
def State.joining (s : State) (set : Three Bool) : List Product :=
  [Product.p1, .p2, .p3].filter (fun m => set.get m && decide ((s.motor m).state = .off) && decide ((s.motor m).demand = ⟨false, false⟩))

/-- Side `d` raised demand on the motors of a product set in the step from `s` to `t`, the device being ACTIVE (R14, R67, R68, R69): those that
were OFF join the start queue in the order M1, M2, M3, one that ran on without demand is RUNNING again, and where no motor was STARTING the
head of the queue starts. -/
structure State.DemandRaised (s t : State) (d : Side) (set : Three Bool) : Prop where
  queue : t.mot.queue = if s.arbiterFree then (s.mot.queue ++ s.joining set).tail else s.mot.queue ++ s.joining set
  motors : ∀ m, t.motor m =
    let r : MotorRec := if set.get m then { s.motor m with demand := (s.motor m).demand.set d true } else s.motor m
    if s.arbiterFree = true ∧ (s.mot.queue ++ s.joining set).head? = some m then { r with state := .starting, timer := some s.startTime }
    else if m ∈ s.joining set then { r with state := .queued }
    else if set.get m = true ∧ (s.motor m).demand = ⟨false, false⟩ ∧ r.state = .runOn then { r with state := .running, timer := none }
    else r

/-- The sale of side `d` was ended with cause `c` in the step from `s` to `t`, the fueling point being `f` when the cause reached it (R21,
R36, R49, R61, R63, R67): it is SETTLING under that cause with its other fields as they stood, the valves of the side are CLOSED, its blend
timer stands, it demands no motor, the meters of its grade are attributed to the sale, and the settle timer runs. The other side's fueling
point, sale, valves, meters and demand, and what retention memory holds beside the sale, are as they were. -/
structure State.SaleEnds (s t : State) (d : Side) (f : FuelPoint) (c : Cause) : Prop where
  fp : t.fp = s.fp.set d (f.ended (s.sale d).volume)
  ret : t.ret = { s.ret with sides := s.ret.sides.set d { s.ret.sides.get d with sale := { s.sale d with endCause := some c } } }
  valves : t.vlv = s.vlv.set d { s.vlv.get d with valves := ⟨.shut, .shut, .shut⟩, blend := { (s.vlv.get d).blend with timer := none } }
  demand : ∀ m, (t.motor m).demand = (s.motor m).demand.set d false
  motors : s.DriveLaw → s.DemandDropped t d
  meters : ∀ p, t.meter ⟨d, p⟩ = (s.meter ⟨d, p⟩).under ((s.sale d).claims p)
  otherMet : t.met.get d.other = s.met.get d.other

/-- The halt condition was entered from `s` to `t` with the report `r`, the device being ACTIVE (R144, R145, R23, R36): the halt record is
written, valves and blend loops stop, motors stop, a sale that can still be ended ends with HALT, one in SETTLING takes HALT as its end cause
and keeps a LOCK-class cause as its first, every other fueling point is LOCKED with HALT and an authorization ends; HALT is set, and FP_A or
FP_B where the state changed. -/
structure State.Halts (s t : State) (r : HaltReport) : Prop where
  pw : t.pw = { s.pw with state := .halted }
  halt : t.halt = { s.halt with code := some r.code, time := s.rtc, first := r.first, second := r.second, flow := r.flow
                                reload := s.halt.reload || decide (r.code = .calibrationMismatch), halted := true }
  valves : ∀ d, t.vlv.get d = { s.vlv.get d with valves := ⟨.shut, .shut, .shut⟩, blend := { (s.vlv.get d).blend with timer := none } }
  queue : t.mot.queue = []
  motors : ∀ m, t.motor m =
    { (if (s.motor m).state = .fault then s.motor m else { s.motor m with state := .off, timer := none }) with
      demand := ⟨!(s.fpState .a).endable && (s.motor m).demand.a, !(s.fpState .b).endable && (s.motor m).demand.b⟩ }
  fp : ∀ d, t.fp.get d = match s.fpState d with
    | .starting | .fueling | .paused => (s.fp.get d).ended (s.sale d).volume
    | .settling | .locked => s.fp.get d
    | .authorized => { s.fp.get d with state := .locked, auth := none, refused := none, expiry := none
                                       lastEnd := some { kind := .authEnded, cause := .halt, number := 0, time := s.rtc } }
    | _ => { s.fp.get d with state := .locked }
  sides : ∀ d, t.ret.sides.get d = match s.fpState d with
    | .starting | .fueling | .paused => { s.ret.sides.get d with sale := { s.sale d with endCause := some .halt } }
    | .settling => { s.ret.sides.get d with sale := { s.sale d with
        endCause := some .halt
        firstCause := if (s.sale d).endCause.any Cause.isLock then (s.sale d).endCause else (s.sale d).firstCause } }
    | .locked => s.ret.sides.get d
    | _ => { s.ret.sides.get d with locked := true, lockCause := some .halt }
  meters : ∀ m : Meter, t.meter m = match s.fpState m.side with
    | .starting | .fueling | .paused => (s.meter m).under ((s.sale m.side).claims m.product)
    | .settling | .locked => s.meter m
    | _ => (s.meter m).under .unassigned
  port : t.port = { s.port with attn := s.port.attn ||| flagsOf (.halt ::
    ((if s.fpState .a = .settling ∨ s.fpState .a = .locked then [] else [.fpA])
      ++ (if s.fpState .b = .settling ∨ s.fpState .b = .locked then [] else [.fpB]))) }
  others : t = { s with pw := t.pw, halt := t.halt, vlv := t.vlv, mot := t.mot, fp := t.fp, ret := { s.ret with sides := t.ret.sides }
                        met := t.met, port := t.port, rev := t.rev }

/-- The flags that the changes from `s` to `t` of fueling-point states, reader states, head states, METROLOGY_ABSENT, METROLOGY_FAULT,
SWITCH_ON and LOG_FULL set (file 10, ATTENTION; R193). -/
def State.changeFlags (s t : State) : List Attn :=
  (if s.fpState .a = t.fpState .a then [] else [.fpA]) ++ (if s.fpState .b = t.fpState .b then [] else [.fpB])
    ++ (if (t.fpState .a = .calling ∧ s.fpState .a ≠ .calling) ∨ (t.fpState .b = .calling ∧ s.fpState .b ≠ .calling) then [.call] else [])
    ++ (if (s.rdr.get .a).state = (t.rdr.get .a).state then [] else [.readerA])
    ++ (if (s.rdr.get .b).state = (t.rdr.get .b).state then [] else [.readerB])
    ++ (if allRoles.all (fun r => decide ((s.head r).state = (t.head r).state)) then [] else [.display])
    ++ (if s.store.absent = t.store.absent ∧ s.store.fault = t.store.fault ∧ s.store.switchOn = t.store.switchOn
            ∧ (t.store.logFull && !s.store.logFull) = false then [] else [.metrology])

/-- Whether the side of a reader that leaves READY holds an authorization of origin READER in AUTHORIZED: it is then withdrawn (R12, R137). -/
def State.readerHolds (s : State) (d : Side) : Bool :=
  decide ((s.rdr.get d).state = .ready) && decide (s.fpState d = .authorized)
    && decide ((s.fp.get d).auth.map AuthRecord.origin = some .reader)

/-- A fueling point whose authorization is withdrawn while it can go on (R12). -/
def FuelPoint.withdrawn (f : FuelPoint) (now : Word32) : FuelPoint :=
  { f with state := if f.lift1.isSome || f.lift2.isSome then .calling else .idle, auth := none, refused := none, expiry := none
           lastEnd := some { kind := .authEnded, cause := .authWithdrawn, number := 0, time := now } }

/-- The fueling point of side `d` after its reader left its state in the step from `s` to `t` (R12, R137): an authorization of origin READER
that a READY reader stood for is withdrawn; nothing else of it changes. -/
structure State.ReaderLeaves (s t : State) (d : Side) : Prop where
  fp : t.fp = if s.readerHolds d then s.fp.set d ((s.fp.get d).withdrawn s.rtc) else s.fp
  meters : ∀ p, t.meter ⟨d, p⟩ = if s.readerHolds d then (s.meter ⟨d, p⟩).under .unassigned else s.meter ⟨d, p⟩
  otherMet : t.met.get d.other = s.met.get d.other

/-- The flags that go with `State.ReaderLeaves`: FP_A or FP_B, and CALL where the fueling point becomes CALLING. -/
def State.leaveFlags (s : State) (d : Side) : List Attn :=
  if s.readerHolds d then fpFlag d :: (if (s.fp.get d).lift1.isSome || (s.fp.get d).lift2.isSome then [.call] else []) else []

/-- The retained values of a side when its sale `x` completes at the time `now` (R24, R29): discarded at 0 cL; otherwise numbered, entered in the
sale list and added to the totals of its grade. That one with volume whose retained grade reads absent is added to no total is the model's choice
(log 91). -/
def RetSide.closing (r : RetSide) (x : Sale) (now : Word32) : RetSide :=
  if x.volume = 0 then { r with sale := { x with endTime := some now, status := .discarded } }
  else
    let number := if r.counter = 65535 then 1 else r.counter + 1
    let done : Sale := { x with endTime := some now, number := number, status := .completed }
    { r with sale := done, counter := number, list := r.list ++ [done]
             grades := match x.grade with
               | some g => r.grades.set g ⟨((r.grades.get g).volume + x.volume) % 10 ^ 10, ((r.grades.get g).amount + x.amount) % 10 ^ 10⟩
               | none => r.grades }

/-- A sale that the RETENTION phase of a wake finalizes: it reads OPEN or INTERRUPTED (R157). -/
def Sale.cutShort (x : Sale) : Bool := decide (x.status = .opened) || decide (x.status = .interrupted)

/-- The cause of the lock that a finalized sale leaves, if it leaves one (R26): its end cause of class LOCK; for HALT, the first cause of class
LOCK, and HALT otherwise. -/
def Sale.leavesLock (x : Sale) : Option Cause :=
  match x.endCause with
  | some e => if e.isLock then some e else if e = .halt then some ((x.firstCause.filter Cause.isLock).getD .halt) else none
  | none => none

/-- A sale with its volume and amount as its product volumes and the price latched in it give them (R44, R45). -/
def Sale.reckoned (x : Sale) : Sale :=
  let volume := (x.products.p1 + x.products.p2 + x.products.p3) / 10
  let amount := (volume * x.price + 500) / 1000
  { x with volume := volume, amount := min 999999 amount, capped := x.capped || decide (999999 < amount) }

/-- The retained values of a side after the RETENTION phase of a wake (R26, R53, R84, R157): a sale that reads OPEN or INTERRUPTED is finalized,
with its amount computed from its product volumes and its latched price and with end cause POWER_LOSS when it holds none, and leaves its lock. -/
def RetSide.finalized (r : RetSide) (now : Word32) : RetSide :=
  if r.sale.cutShort then
    let x : Sale := { r.sale.reckoned with endCause := some (r.sale.endCause.getD .powerLoss) }
    let q := r.closing x now
    match x.leavesLock with
    | some c => { q with locked := true, lockCause := some c }
    | none => q
  else r

/-- A fueling point after the RETENTION phase of a wake (R2, R24, R26, R51, R157), `r` and `q` being its side's retained values before and after:
a finalized sale leaves a last-end record and takes the authorization, the grade button record and the settle timer with it. That the flow report of a
lock can be made again under the measure that begins here is the model's choice (log 89). -/
def FuelPoint.finalized (f : FuelPoint) (r q : RetSide) (now : Word32) : FuelPoint :=
  let f := if r.sale.cutShort then
      { f with auth := none, button := none, pressTimer := none, settle := none
               lastEnd := some { kind := if q.sale.volume = 0 then .saleDiscarded else .saleCompleted, cause := q.sale.endCause.getD .powerLoss
                                 number := if q.sale.volume = 0 then 0 else q.sale.number, time := now } }
    else f
  let f := { f with state := if q.locked then .locked else .unavailable }
  if q.locked = true ∧ q.lockCause = some .unauthFlow then { f with lockFlow := some 0, lockFlowMade := false } else f

/-- The flags that the finalization of the sale of side `d` sets (R24, R193). -/
def finalFlags (d : Side) (r : RetSide) : List Attn :=
  if r.sale.cutShort then fpFlag d :: (if r.sale.reckoned.volume = 0 then [] else [saleFlag d]) else []

/-- The state whose slots have the orders in a reader's send list completed READER_DOWN, head first, for the cause that its supply went off
(R120); a reader whose supply is off has none to complete. -/
def State.sendsDropped (s : State) (d : Side) (c : OffCause) : State :=
  if s.supplyOn d then (s.rdr.get d).sends.foldl (fun s o => s.complete o.ref .readerDown (0x600 + c.code)) s else s

/-- The state whose slots have the SHOW_MESSAGE orders in flight completed UNAVAILABLE with detail NOT_SHOWN, side A's first (R111). -/
def State.messagesDropped (s : State) : State :=
  (s.completeOpt (s.disp.lines.get .a).order .unavailable 0x10A).completeOpt (s.disp.lines.get .b).order .unavailable 0x10A

/-- A role that shows a fixed role's content: the role itself and its mirrors (R91). -/
def Display.showsWith (x : Display) (r q : Role) : Prop := q = r ∨ (x.heads.get q).source = some r

/-- Between `x` and `y` the display bus controller took requests for frames and nothing else (R100): the queue keeps its entries in
their order, an entry for each request to a READY or HEATING head stands in it, and every new entry answers a request. -/
structure Display.Asked (x y : Display) (requested : Role → FrameKind → Prop) : Prop where
  frame : y = { x with queue := y.queue, nextAge := y.nextAge }
  kept : x.queue <+: y.queue
  queued : ∀ r k, requested r k → (x.heads.get r).state.shows = true → y.queued r k = true
  only : ∀ e ∈ y.queue, e ∈ x.queue ∨ (requested e.role e.kind ∧ e.retry = false)

/-! ## A sale that opens, its grade, and its entry to FUELING -/

/-- The record of a sale as it opens on side `d` with hose `h` under the authorization `a` (R13): grade, price and times are absent. -/
def openedSale (d : Side) (h : Hose) (a : AuthRecord) (degraded : Bool) : Sale :=
  { status := .opened, number := 0, side := d, hose := h, grade := none, origin := a.origin, level := a.level, price := 0, version := 0
    presetKind := a.presetKind, preset := a.preset, closeTarget := 0, volume := 0, amount := 0, drawn := ⟨false, false, false⟩
    products := ⟨0, 0, 0⟩, startTime := 0, endTime := none, endCause := none, firstCause := none, clamped := a.clamped, capped := false
    degraded := degraded }

/-- Whether a hose meets a grade mask (R10): hose 1 with any of G1 to G4 in it, hose 2 with G5. -/
def HoseMeets (mask : Five Bool) : Hose → Prop
  | .h1 => mask.g1 = true ∨ mask.g2 = true ∨ mask.g3 = true ∨ mask.g4 = true
  | .h2 => mask.g5 = true

/-- The close target and the close reason of R46 and R47 for a preset of a kind and value, at a price and an overrun limit. -/
def CloseRule (kind : PresetKind) (preset price limit target : Nat) (reason : CloseReason) : Prop :=
  let cap := min 999999 (999999499 / price) - limit
  let term := if kind = .volume then preset else (1000 * preset - 500 + (price - 1)) / price
  (kind ≠ .none ∧ term ≤ cap → target = term ∧ reason = .preset) ∧ (kind = .none ∨ cap < term → target = cap ∧ reason = .cap)

/-- The grade `g` of the sale `x` of side `d`, which is in STARTING, was fixed under the price set `p` in the step from `s` to `t`, `f` being
the fueling point as the fixing found it (R14, R36, R46, R47, R67, R68, R84): the sale record takes the grade, its product set, the price, the
version, the time and the close target; gate 1 is met, gate 3 tested; the limits are latched, the sale accumulators stand at 0, and the
side demands the motors of the product set. -/
structure State.GradeFixed (s t : State) (d : Side) (f : FuelPoint) (x : Sale) (g : Grade) (p : PriceSet) : Prop where
  close : ∃ reason, CloseRule x.presetKind x.preset (p.price x.level g) s.overrunLimit (t.sale d).closeTarget reason
    ∧ t.fp = s.fp.set d { f with gate1 := true, gate3 := t.runningAll (s.gradeProducts d g), closeReason := some reason
                                 limit := s.overrunLimit, slowMargin := s.slowMarginSetting }
  ret : t.ret = { s.ret with sides := s.ret.sides.set d { s.ret.sides.get d with sale :=
    { x with grade := some g, startTime := s.rtc, drawn := s.gradeProducts d g, products := ⟨0, 0, 0⟩, price := p.price x.level g
             version := p.version, closeTarget := (t.sale d).closeTarget } } }
  demand : ∀ m, (t.motor m).demand = if (s.gradeProducts d g).get m then (s.motor m).demand.set d true else (s.motor m).demand
  motors : s.DriveLaw → s.pw.state = .active → s.DemandRaised t d (s.gradeProducts d g)
  meters : ∀ m, m.side = d → (s.meter m).attr = .unassigned ∨ s.fpState d ≠ .starting →
    t.meter m = { (s.meter m).under .unassigned with saleAcc := 0, saleV := 0 }
  otherMet : t.met.get d.other = s.met.get d.other

/-- The grade that hose `h` offers under an authorization at an entry to STARTING (R7, R14): G5 on hose 2, the grade of a press still valid on
hose 1; it must be in the mask and enabled, and draw on no motor in FAULT. -/
def State.offers (s : State) (d : Side) (h : Hose) (a : AuthRecord) (g : Grade) : Prop :=
  (match h with
   | .h1 => (s.fp.get d).pressTimer.isSome = true ∧ (s.fp.get d).button.map Press.grade = some g
   | .h2 => g = .g5)
    ∧ a.mask.get g = true ∧ s.gradeEnabled d g = true ∧ s.faultIn (s.gradeProducts d g) = false

/-- The fueling point `f` as a sale opens on hose `h` (R7, R13). -/
def FuelPoint.opened (f : FuelPoint) (h : Hose) (a : AuthRecord) : FuelPoint :=
  { f with state := .starting, auth := some a, refused := none, expiry := none, start := some 60000, gate1 := false, gate2 := false
           gate3 := false, closeReason := none, base := none, overrun := 0, overrunMade := false, flowMade := false
           saleSerial := f.saleSerial + 1
           button := if h = .h2 then none else f.button
           pressTimer := if h = .h2 then none else f.pressTimer
           pressSelects := decide (h = .h1) && f.pressTimer.isSome && f.button.isSome }

/-- A sale opened on side `d` with hose `h` under the authorization `a` in the step from `s` to `t`, `f` being the fueling point before it
(R13, R57, R63, R107, R108, R109, R111): its record is new; with an applied price set its grade is fixed at once where the hose offers one,
and the zero frame is asked for with it; slow flow is over, the side's message line is cleared and the opening is to be shown. That the
cleared line asks for no MESSAGE frame is the model's choice (log 21). -/
structure State.SaleOpens (s t : State) (d : Side) (f : FuelPoint) (h : Hose) (a : AuthRecord) : Prop where
  waits : (∀ g, ¬ s.offers d h a g) ∨ s.ret.applied.get d = none → t.fp = s.fp.set d (f.opened h a)
    ∧ t.ret = { s.ret with sides := s.ret.sides.set d { s.ret.sides.get d with sale := openedSale d h a s.pw.degraded } }
    ∧ t.mot = s.mot ∧ (∀ m, t.meter m = if m.side = d then (s.meter m).under .unassigned else s.meter m)
  fixes : ∀ g p, s.offers d h a g → s.ret.applied.get d = some p →
    s.GradeFixed t d (f.opened h a) (openedSale d h a s.pw.degraded) g p
  valves : t.vlv = s.vlv.set d { s.vlv.get d with slow := false, blend := { (s.vlv.get d).blend with setUp := false } }
  shows : ({ s.disp with lines := s.disp.lines.set d ⟨List.replicate 16 0x20, none, 0, none⟩ } : Display).Asked t.disp (fun q k =>
    (k = .sale ∧ s.disp.showsWith (saleRole d) q) ∨ (k = .zero ∧ q = saleRole d ∧ (s.ret.applied.get d).isSome = true ∧ ∃ g, s.offers d h a g))

/-- Fueling began on side `d` in the step from `s` to `t`, the sale `x` having the grade `g` (R48, R57, R63): each valve of the product set
opens with its duty, directly into slow flow where the slow condition holds; the blend loop of a blend sale starts, set up at the sale's
first entry. -/
structure State.FlowStarts (s t : State) (d : Side) (x : Sale) (g : Grade) : Prop where
  slow : (t.vlv.get d).slow = ((s.vlv.get d).slow || decide (x.closeTarget ≤ x.volume + (s.fp.get d).slowMargin))
  blend : (t.vlv.get d).blend =
    let b := (s.vlv.get d).blend
    let share := s.gradeShare d g
    let first := (share * 255 + 500) / 1000
    if x.drawn.p1 && x.drawn.p2 then
      { (if b.setUp then b else { b with share := share, dutyH := first, dutyL := 255 - first, lastError := 0, setUp := true }) with
        count := 0, timer := some 200 }
    else b
  opens : ∀ q, x.drawn.get q = true → t.valve ⟨d, q⟩ =
    let duty : Nat := if x.drawn.p1 && x.drawn.p2 then (match q with
      | .p1 => (t.vlv.get d).blend.dutyL
      | .p2 => (t.vlv.get d).blend.dutyH
      | .p3 => 255) else 255
    if 0 < duty then ⟨.pullIn, duty, 0, 4⟩ else ⟨if (t.vlv.get d).slow then .openSlow else .opened, 0, 0, 0⟩
  rest : ∀ q, x.drawn.get q = false → s.valve ⟨d, q⟩ = ⟨.closed, 0, 0, 0⟩ ∨ x.volume + (s.fp.get d).slowMargin < x.closeTarget →
    t.valve ⟨d, q⟩ = s.valve ⟨d, q⟩
  other : t.vlv.get d.other = s.vlv.get d.other

/-! ## Store-writing orders and wakes -/

/-- The tests of R176 that no order's own condition enters, passed: the store is present, the switch is on, the log and the event numbers
have room, no reload is due or in progress, and the store-write list is not full. CLEAR_LOG needs no room in the log. -/
def State.storeOpen (s : State) (clears : Bool) : Prop :=
  s.store.absent = false ∧ s.store.switchOn = true ∧ (clears = true ∨ logCount s.store.image < 32)
    ∧ nextEvent s.store.image ≤ 4294967295 ∧ s.store.reloadDue = false ∧ s.store.reloading = false ∧ s.store.list.length < 16

/-- The pages of `n` bytes of an image from an address on, of 32 bytes each but the last (R181; log 10). -/
def pagesAt (m : Memory) (a n : Nat) : List StorePage :=
  (List.range ((n + 31) / 32)).map (fun i => ⟨a + 32 * i, m.readAll (a + 32 * i) (min 32 (n - 32 * i))⟩)

/-- A part of a store write as it begins on an image: its first page is on the store, the others follow, and the CRC that part 3 will write is
that of the image (R181; log 10). -/
def writeFrom (part : StorePart) (m : Memory) (pages : List StorePage) : Option StoreWrite :=
  pages.head?.map (fun p => { part := part, page := p, rest := pages.tail, crc := crc16 (m.readAll 0 1154) })

/-- Part 1 of an order's write (R181): its entry, then the entry count and the next event number; the whole log part for CLEAR_LOG and
while the rewrite-all mark is set. -/
def logPages (m : Memory) (o : StoreOrder) (rewriteAll : Bool) : List StorePage :=
  if o.wholeLog || rewriteAll then pagesAt m 184 970 else pagesAt m (194 + 30 * o.place) 30 ++ pagesAt m 184 10

/-- The page of part 3 of a write: the CRC of the image (R181). -/
def crcPage (m : Memory) : StorePage := ⟨1154, bytesBE 2 (crc16 (m.readAll 0 1154)).toNat⟩

/-- Part 2 of an order's write while no rewrite-all mark is set: the parameter block the order changed, if it changed one (R181; file 11, the
image's layout). -/
def blockPages (m : Memory) : ParamBlock → List StorePage
  | .none => []
  | .meter k => pagesAt m (meterAddr k) 20
  | .settings => pagesAt m 2 40 ++ pagesAt m 162 22

/-- The write with which the next order of the store-write list begins once one has ended: none is begun in POWER_FAIL (R181). -/
def State.nextWrite (s : State) (more : List StoreOrder) (rewriteAll : Bool) : Option StoreWrite :=
  match more with
  | [] => none
  | o :: _ => if s.pw.state = .powerFail then none else writeFrom .log s.store.image (logPages s.store.image o rewriteAll)

/-- The store-writing order in slot `n` took effect in the step from `s` to `t` (R176, R180, R181): the working copy is `image` with the
entry `e` added, the mirror and LOG_FULL follow it, the order stands at the tail of the store-write list, and a write in progress goes on; on an
empty list the order's own write begins with its log part. -/
structure State.StoreTakes (s t : State) (n : Nat) (image : Memory) (block : ParamBlock) (wholeLog : Bool) (e : LogEntry) : Prop where
  copy : t.store.copy = some (addEntry image e)
  mirror : t.store.mirror = logEntries (addEntry image e)
  full : t.store.logFull = decide (32 ≤ logCount (addEntry image e))
  list : t.store.list = s.store.list ++ [{ ref := ⟨n, (s.takeNumber n + 1) % 65536, s.rtc⟩, block := block, wholeLog := wholeLog,
                                           event := e.event, place := logCount image }]
  write : s.store.write.isSome = true → t.store.write = s.store.write
  starts : s.store.list = [] → s.store.write = none → t.store.write = writeFrom .log (addEntry image e)
    (logPages (addEntry image e) ⟨⟨n, (s.takeNumber n + 1) % 65536, s.rtc⟩, block, wholeLog, e.event, logCount image⟩ s.store.rewriteAll)
  others : t.store = { s.store with copy := t.store.copy, mirror := t.store.mirror, logFull := t.store.logFull, list := t.store.list,
                                    write := t.store.write }

/-- A wake from CLOCK began with cause `c` in the step from `s` to `t` (R153, R154): the power sequencer, the wake time, the display bus
controller (R112), the store-write list and the working copy (R171, R181) and decoding (R31) stand as at its first event, POWER is set and
the port is awake. Orders that were in flight on the bus or in the store-write list complete, so slots may change. That the bus status shows
FREE, what stays of a meter channel and what stays of a head record are the model's choices (log 15, log 47, log 59), and so is that the mark of a
lock's flow report made falls with the lock-flow measure (R51; log 89). -/
structure State.WakeBegins (s t : State) (c : WakeCause) : Prop where
  pw : t.pw = { s.pw with
    state := .waking, phase := .clock, pll := false, lastWake := c, osc := true, drives := false, cold := false, crystalWatch := some 20, lockWait := none
    pllRetried := false, resetPending := false, hold := none, resetHold := none, resetMax := none, standbyOrder := none
    wakeRequest := none, blanked := false, decoding := false }
  ret : t.ret = { s.ret with wakeTime := 0 }
  disp : t.disp = { Display.powerUp with
    heads := Eight.ofFun (fun r => Head.unconfigured (s.head r).lastDone), nextAge := s.disp.nextAge, clears := s.disp.clears }
  store : t.store = { s.store with
    list := [], write := none, copy := none, rewriteAll := false, check := none, reloadDue := false, reloading := false }
  met : ∀ m, t.meter m = { Channel.powerUp with
    rate := (s.meter m).rate, band := (s.meter m).band, k := (s.meter m).k, cal := (s.meter m).cal }
  fp : ∀ d, t.fp.get d = { s.fp.get d with lockFlow := none, lockFlowMade := false }
  power : t.port.attn ||| Attn.power.mask = t.port.attn
  awake : t.port.asleep = false
  others : t = { s with pw := t.pw, ret := t.ret, disp := t.disp, store := t.store, met := t.met, fp := t.fp, mem := t.mem, port := t.port,
                        rev := t.rev }

end Sys2Proof.Machine
end

