-- ==== Sys2Proof/Certificates/Slice0/Obligations.lean ====
section
/-! DEFINITION. The statements for the provers. Each says in its docstring which rules it takes from the spec. -/

open Sys2Proof Sys2Proof.Machine

/-! ## The block as a whole -/

/-- The task's form of a block, file 10 (post queue) and log 2: the front command runs on the queue's rest. -/
def Obligations.StepRunsTheFrontCommand : Prop :=
  (∀ (c : Instr) (rest : List Instr) (s : State), step { s with pending := c :: rest } = exec c { s with pending := rest })
    ∧ ∀ s : State, s.pending = [] → step s = .next s

/-- No command stops the block, and none touches the commands that wait (log 2) or the choice of what reads back good (log 7). Each closes the
list of the retention writes that it reads back, if it found that list closed (R170; log 7). -/
def Obligations.EveryCommandCompletesAndLeavesTheQueue : Prop :=
  ∀ (c : Instr) (s : State), ∃ t, exec c s = .next t ∧ t.pending = s.pending ∧ t.readBack = s.readBack
    ∧ (s.rev.wrote = [] → t.rev.wrote = [])

/-- What the mains power-up has written when the wake begins (R2, R55, R66, R92, R117, R152, R183, R195). The values of log 3 and log 4,
which the spec does not give, are not named here.
That reset is this moment is the model's choice (log 3). -/
def Obligations.ResetStandsAtTheStartOfTheWake : Prop :=
  let s := State.reset
  (s.pw.state = .waking ∧ s.pw.phase = .clock ∧ s.pw.lastWake = .mains ∧ s.pw.drives = false)
    ∧ (s.port.enable = 0 ∧ s.port.awake = false ∧ s.port.posts = [] ∧ s.port.takes = List.replicate 16 0)
    ∧ (∀ n, n < 16 → s.slotState n = 0)
    ∧ (∀ d, (s.rdr.get d).cells.length = 8 ∧ (∀ c ∈ (s.rdr.get d).cells, c.stateWord = 0) ∧ (s.rdr.get d).state = .off)
    ∧ (∀ d, s.fpState d = .unavailable ∧ (s.fp.get d).auth = none)
    ∧ (∀ v, s.valve v = ⟨.closed, 0, 0, 0⟩) ∧ (∀ m, (s.motor m).state = .off ∧ (s.motor m).demand = ⟨false, false⟩)
    ∧ (∀ r, (s.head r).state = .absent) ∧ s.halt.halted = false

/-- R186, R187, R55, R66, R152: the law of what the block holds as data and the law of the drives hold after reset.
That reset is the start of a wake is the model's choice (log 3). -/
def Obligations.TheLawsHoldAtReset : Prop := State.reset.DataLaw ∧ State.reset.DriveLaw

/-- R32, R34, R35, R37, R42, R186, R187, and the canonical form of memories (log 35): every step keeps the law of what the block holds as
data: the post queue and the sixteen take numbers, each within 16 bits, the counts of the six meter channels, exchange memory and the working
copy. That an accumulator stays within its 64 bits by wrapping is the model's reading of R39 (log 29). -/
def Obligations.DataLawKeptByEveryStep : Prop :=
  ∀ s t : State, s.DataLaw → step s = .next t → t.DataLaw

/-- R57, R61, R67, R69, R76, R152: every step keeps the law of the drives, from every state. R3, R4, R12, R26, R144, R159: among it, that a
fueling point is AUTHORIZED, STARTING, FUELING or PAUSED only while the device is ACTIVE. -/
def Obligations.DriveLawKeptByEveryStep : Prop :=
  ∀ s t : State, s.DriveLaw → step s = .next t → t.DriveLaw

/-- R152, R162, R168: with mains absent only the real-time counter, the loss of the retention supply and the return of mains act.
That a command whose event cannot happen changes nothing is the model's choice (log 5). -/
def Obligations.NothingElseActsWithoutMains : Prop :=
  ∀ (c : Instr) (s : State), s.pw.mains = false → c ≠ .rtcSecond → c ≠ .retentionSupplyLow → (∀ w, c ≠ .mainsReturn w) →
    exec c s = .next s

/-- R190: the write of a completion, and its discard.
How the done time counts across a change of the counter is the model's choice (log 31). -/
def Obligations.CompletionIsWrittenOrDiscarded : Prop :=
  ∀ (s : State) (r : OrderRef) (code : ResultCode) (detail : Nat),
    (s.slotState r.slot ≠ 2 ∨ s.takeNumber r.slot ≠ r.take → s.complete r code detail = s)
    ∧ (s.slotState r.slot = 2 → s.takeNumber r.slot = r.take → s.mem.wf = true →
        (s.complete r code detail).slotState r.slot = 3
        ∧ (s.complete r code detail).mem.read (slotAddr r.slot + 1) = BitVec.ofNat 8 code.code
        ∧ (s.complete r code detail).mem.readAll (slotAddr r.slot + 6) 2 = bytesBE 2 (min 65535 (s.rtc - r.time).toNat)
        ∧ (s.complete r code detail).mem.readAll (slotAddr r.slot + 8) 4 = bytesBE 4 detail
        ∧ (∀ a, keptBySlot r.slot a ∨ (slotAddr r.slot + 12 ≤ a ∧ a < slotAddr r.slot + 16) →
            (s.complete r code detail).mem.read a = s.mem.read a)
        ∧ (s.complete r code detail).port = { s.port with attn := s.port.attn ||| flagsOf [.order] }
        ∧ s.complete r code detail =
            { s with mem := (s.complete r code detail).mem, port := (s.complete r code detail).port })

/-! ## Fueling points and sales -/

/-- R9, R10: AUTHORIZE in IDLE, every test passed; in CALLING, every test passed: the sale opens on the first lifted hose that meets the mask,
its grade being fixed at once where it can be (R13, R14), a message of the side that is in flight being superseded (R111), or the calling hose
is refused.
R9, R1: a field outside its coded values, and then the first test that fails, gives the result, and the fueling point is left as it was.
The preset value that the record holds under preset kind NONE is a free value (log 53). That the opening asks for no MESSAGE frame is the
model's choice (log 21). -/
def Obligations.AuthorizeTestsThenGrants : Prop :=
  (∀ (s : State) (n : Nat) (d : Side) (b : AuthBody), s.Offers .authorize n (sideCode d) → s.pw.state = .active →
    (s.ret.sides.get d).list.length < 3 → s.authBody n = .ok b → (b.origin = .reader → (s.rdr.get d).state = .ready) →
    maskCode (s.liveMask d b.mask) ≠ 0 → (b.kind = .none ∨ 100 ≤ b.preset) →
    let mask := s.liveMask d b.mask
    let a : AuthRecord := { origin := b.origin, level := b.level, mask := mask, presetKind := b.kind
                            preset := if b.kind = .none then b.preset else min 999999 b.preset
                            clamped := decide (b.kind ≠ .none ∧ 999999 < b.preset), takeTime := s.rtc }
    let granted (t : State) : Prop := exec .authorize s = .next t
      ∧ s.Answered t n (if b.kind ≠ .none ∧ 999999 < b.preset then .okClamped else .ok) 0 [fpFlag d]
    let authorized (refused : Option Hose) : Prop := ∃ t, granted t
      ∧ t.fp = s.fp.set d { s.fp.get d with state := .authorized, expiry := some 120000, auth := some a, refused := refused }
      ∧ (∀ m, m.side ≠ d ∨ (s.meter m).attr = .unassigned → t.meter m = s.meter m)
      ∧ t = { s with free := t.free, fp := t.fp, met := t.met, mem := t.mem, port := t.port, rev := t.rev }
    (s.fpState d = .idle → authorized (s.fp.get d).refused)
    ∧ (∀ c, s.fpState d = .calling → (s.fp.get d).calling = some c →
        let other : Prop := ((s.fp.get d).lift (otherHose c)).isSome = true ∧ HoseMeets mask (otherHose c)
        let code : ResultCode := if b.kind ≠ .none ∧ 999999 < b.preset then .okClamped else .ok
        let told := ((s.takeSlot n).1.completeOpt (s.disp.lines.get d).order .superseded 0x10C).complete
          ⟨n, (s.takeNumber n + 1) % 65536, s.rtc⟩ code 0
        (∀ h, (h = c ∧ HoseMeets mask c) ∨ (h = otherHose c ∧ ¬ HoseMeets mask c ∧ other) →
          ∃ t, exec .authorize s = .next t ∧ s.SaleOpens t d (s.fp.get d) h a
            ∧ t.mem = told.mem ∧ t.port = { told.port with attn := told.port.attn ||| flagsOf [fpFlag d] }
            ∧ ((s.disp.lines.get d).order = none → s.Answered t n code 0 [fpFlag d])
            ∧ t = { s with free := t.free, fp := t.fp, ret := t.ret, met := t.met, vlv := t.vlv, mot := t.mot, disp := t.disp, mem := t.mem,
                           port := t.port, rev := t.rev })
        ∧ (¬ HoseMeets mask c → ¬ other → authorized (some c))))
  ∧ (∀ (s : State) (n : Nat) (d : Side) (b : AuthBody) (code : ResultCode) (detail : Nat), s.Offers .authorize n (sideCode d) →
    s.authBody n = .ok b →
    ((code = .unavailable ∧ detail = 0x100 ∧ s.pw.state = .halted)
      ∨ (code = .unavailable ∧ detail = 0x101 ∧ s.pw.state = .active ∧ s.fpState d = .locked)
      ∨ (code = .unavailable ∧ s.pw.state = .active ∧ s.fpState d = .unavailable
          ∧ ((detail = 0x102 ∧ s.meets d .display = false)
            ∨ (detail = 0x103 ∧ s.meets d .display = true ∧ s.meets d .metrology = false)
            ∨ (detail = 0x104 ∧ s.meets d .display = true ∧ s.meets d .metrology = true ∧ s.meets d .noPrices = false)))
      ∨ (code = .wrongState ∧ detail = 0x100 + (s.fpState d).code ∧ s.pw.state = .active ∧ s.fpState d ≠ .locked
          ∧ s.fpState d ≠ .unavailable ∧ s.fpState d ≠ .idle ∧ s.fpState d ≠ .calling)
      ∨ (s.pw.state = .active ∧ (s.fpState d = .idle ∨ s.fpState d = .calling)
          ∧ ((code = .stackFull ∧ detail = 0 ∧ 3 ≤ (s.ret.sides.get d).list.length)
            ∨ ((s.ret.sides.get d).list.length < 3
              ∧ ((code = .readerNotReady ∧ detail = 0x600 + (s.rdr.get d).state.code ∧ b.origin = .reader ∧ (s.rdr.get d).state ≠ .ready)
                ∨ ((b.origin = .reader → (s.rdr.get d).state = .ready)
                  ∧ ((code = .badOrder ∧ detail = 0x110 ∧ maskCode (s.liveMask d b.mask) = 0)
                    ∨ (code = .badOrder ∧ detail = 0x111 ∧ maskCode (s.liveMask d b.mask) ≠ 0 ∧ b.kind ≠ .none ∧ b.preset < 100)))))))) →
    ∃ t, exec .authorize s = .next t ∧ s.Answered t n code detail [] ∧ t = { s with mem := t.mem, port := t.port, rev := t.rev })
  ∧ (∀ (s : State) (n : Nat) (d : Side) (field : Nat), s.Offers .authorize n (sideCode d) →
    let origin := s.bodyField n 0 1
    let level := s.bodyField n 1 1
    let kind := s.bodyField n 3 1
    let good (v : Nat) : Prop := v = 1 ∨ v = 2
    (field = 0 ∧ ¬ good origin ∧ good level ∧ kind ≤ 2) ∨ (field = 1 ∧ good origin ∧ ¬ good level ∧ kind ≤ 2)
      ∨ (field = 3 ∧ good origin ∧ good level ∧ 2 < kind) →
    ∃ t, exec .authorize s = .next t ∧ s.Answered t n .badOrder field [] ∧ t = { s with mem := t.mem, port := t.port, rev := t.rev })

/-- R12: DEAUTHORIZE and the authorization expiry end an authorization.
That the sale number of the last-end record then reads 0 is the model's choice (log 72). -/
def Obligations.AnAuthorizationEnds : Prop :=
  ∀ (s : State) (d : Side), s.fpState d = .authorized →
    let lifted := (s.fp.get d).lift1.isSome || (s.fp.get d).lift2.isSome
    let flags := if lifted then [fpFlag d, .call] else [fpFlag d]
    let left (c : Cause) : FuelPoint := { s.fp.get d with
      state := if lifted then .calling else .idle, auth := none, refused := none, expiry := none,
      lastEnd := some { kind := .authEnded, cause := c, number := 0, time := s.rtc } }
    (∀ n, s.Offers .deauthorize n (sideCode d) → s.pw.state = .active →
      ∃ t, exec .deauthorize s = .next t ∧ s.Answered t n .ok 0 flags ∧ t.fp = s.fp.set d (left .deauthorized)
        ∧ (∀ m, m.side ≠ d ∨ (s.meter m).attr = .unassigned → t.meter m = s.meter m)
        ∧ t = { s with fp := t.fp, met := t.met, mem := t.mem, port := t.port, rev := t.rev })
    ∧ (s.steady → (s.fp.get d).expiry.isSome = true →
      ∃ t, exec (.authExpiry d) s = .next t ∧ t.port = { s.port with attn := s.port.attn ||| flagsOf flags }
        ∧ t.fp = s.fp.set d (left .authExpired)
        ∧ (∀ m, m.side ≠ d ∨ (s.meter m).attr = .unassigned → t.meter m = s.meter m)
        ∧ t = { s with fp := t.fp, met := t.met, port := t.port, rev := t.rev })

/-- R22: STOP in every state of the fueling point; R21, R36, R49, R61, R63, R67 to R71: the end of the sale that it makes.
How the marks of a passed overrun limit follow the base is the model's reading (log 17). -/
def Obligations.StopFollowsTheState : Prop :=
  ∀ (s : State) (n : Nat) (d : Side), s.Offers .stop n (sideCode d) →
    (s.pw.state = .halted → ∃ t, exec .stop s = .next t ∧ s.Answered t n .unavailable 0x100 []
        ∧ t = { s with mem := t.mem, port := t.port, rev := t.rev })
    ∧ (s.pw.state = .active → s.fpState d = .settling → ∃ t, exec .stop s = .next t ∧ s.Answered t n .ok 0x106 []
        ∧ t = { s with mem := t.mem, port := t.port, rev := t.rev })
    ∧ (s.pw.state = .active → (s.fpState d).inSale = false → ∃ t, exec .stop s = .next t ∧ s.Answered t n .ok 0x105 []
        ∧ t = { s with mem := t.mem, port := t.port, rev := t.rev })
    ∧ (s.pw.state = .active → (s.fpState d).endable = true →
        ∃ t, exec .stop s = .next t ∧ s.Answered t n .ok 0 [fpFlag d] ∧ s.SaleEnds t d (s.fp.get d) .hostStop
          ∧ t = { s with fp := t.fp, ret := t.ret, vlv := t.vlv, mot := t.mot, met := t.met, mem := t.mem, port := t.port, rev := t.rev })

/-- R6, R16, R17, R19, R21: the hang of the active hose and the three sale timers end the sale with their causes.
How the marks of a passed overrun limit follow the base is the model's reading (log 17). -/
def Obligations.HangAndTimersEndASale : Prop :=
  ∀ (s : State) (d : Side), s.steady →
    let frame (t : State) : Prop := t.port = { s.port with attn := s.port.attn ||| flagsOf [fpFlag d] }
      ∧ t = { s with fp := t.fp, ret := t.ret, vlv := t.vlv, mot := t.mot, met := t.met, port := t.port, rev := t.rev }
    ((s.fpState d).endable = true → ((s.fp.get d).lift (s.sale d).hose).isSome = true →
      ∃ t, exec (.hoseHang d (s.sale d).hose) s = .next t ∧ frame t
        ∧ s.SaleEnds t d { (s.fp.get d).setLift (s.sale d).hose none with
            calling := if ((s.fp.get d).lift (otherHose (s.sale d).hose)).isSome then some (otherHose (s.sale d).hose) else none }
            .nozzleHung)
    ∧ (s.fpState d = .starting → (s.fp.get d).start.isSome = true →
        ∃ t, exec (.startTimeout d) s = .next t ∧ frame t ∧ s.SaleEnds t d (s.fp.get d) .startTimeout)
    ∧ (s.fpState d = .fueling → (s.fp.get d).noFlow.isSome = true →
        ∃ t, exec (.noFlowTimeout d) s = .next t ∧ frame t ∧ s.SaleEnds t d (s.fp.get d) .noFlow)
    ∧ (s.fpState d = .paused → (s.fp.get d).pause.isSome = true →
        ∃ t, exec (.pauseTimeout d) s = .next t ∧ frame t ∧ s.SaleEnds t d (s.fp.get d) .pauseTimeout)

/-- R18, R36, R49, R63, R67, R68, R71: PAUSE in STARTING and FUELING.
R19, R7, R15, R36, R49, R67, R68: RESUME of a sale whose grade is fixed: it waits in STARTING for its zero frame and its motors, or, with the zero frame
acknowledged and its motors running on, goes back to FUELING at once (R48, R57, R63), its volume below its close target. Of a sale whose grade
is not fixed: it waits for a grade, or one is fixed at once (R14).
R108, R109: the grade that RESUME fixes asks for SALE frames and for the ZERO frame.
That the overrun measure reads 0 once RESUME has dropped the base is the model's choice (log 17). -/
def Obligations.PauseAndResumeMoveTheSale : Prop :=
  (∀ (s : State) (n : Nat) (d : Side), s.Offers .pause n (sideCode d) → s.pw.state = .active →
    (s.fpState d = .starting ∨ s.fpState d = .fueling) →
    ∃ t, exec .pause s = .next t ∧ s.Answered t n .ok 0 [fpFlag d]
      ∧ t.fp = s.fp.set d { s.fp.get d with state := .paused, start := none, noFlow := none, pause := some 300000,
                                            base := some (s.sale d).volume, overrun := 0, overrunMade := false, flowMade := false }
      ∧ t.vlv = s.vlv.set d { s.vlv.get d with valves := ⟨.shut, .shut, .shut⟩, blend := { (s.vlv.get d).blend with timer := none } }
      ∧ (∀ m, (t.motor m).demand = (s.motor m).demand.set d false) ∧ (s.DriveLaw → s.DemandDropped t d)
      ∧ (∀ p, t.meter ⟨d, p⟩ = (s.meter ⟨d, p⟩).under ((s.sale d).claims p)) ∧ t.met.get d.other = s.met.get d.other
      ∧ t = { s with fp := t.fp, vlv := t.vlv, mot := t.mot, met := t.met, mem := t.mem, port := t.port, rev := t.rev })
  ∧ (∀ (s : State) (n : Nat) (d : Side), s.Offers .resume n (sideCode d) → s.pw.state = .active → s.fpState d = .paused →
    let x := s.sale d
    let hose2 : Bool := decide (x.hose = .h2)
    let entered : FuelPoint := { s.fp.get d with
      state := .starting, pause := none, start := some 60000, base := none, overrun := 0, overrunMade := false, flowMade := false, gate3 := false
      button := if hose2 then none else (s.fp.get d).button
      pressTimer := if hose2 then none else (s.fp.get d).pressTimer
      pressSelects := !hose2 && (s.fp.get d).pressTimer.isSome && (s.fp.get d).button.isSome }
    let resumed (t : State) : Prop := exec .resume s = .next t ∧ s.Answered t n .ok 0 [fpFlag d] ∧ t.met.get d.other = s.met.get d.other
    let raised (t : State) : Prop :=
      (∀ m, (t.motor m).demand = if x.drawn.get m then (s.motor m).demand.set d true else (s.motor m).demand)
        ∧ (s.DriveLaw → s.DemandRaised t d x.drawn)
    let unassigned (t : State) : Prop := ∀ p, t.meter ⟨d, p⟩ = (s.meter ⟨d, p⟩).under .unassigned
    let runs (m : Product) : Prop := (s.motor m).state = .running ∨ ((s.motor m).state = .runOn ∧ (s.motor m).demand = ⟨false, false⟩)
    (x.grade.isSome = true → (s.fp.get d).gate2 = false ∨ (∃ m, x.drawn.get m = true ∧ ¬ runs m) →
      ∃ t, resumed t ∧ raised t ∧ unassigned t ∧ t.fp = s.fp.set d { entered with gate3 := t.runningAll x.drawn }
        ∧ t = { s with fp := t.fp, mot := t.mot, met := t.met, mem := t.mem, port := t.port, rev := t.rev })
    ∧ (∀ g, x.grade = some g → (s.fp.get d).gate1 = true → (s.fp.get d).gate2 = true → (∀ m, x.drawn.get m = true → runs m) →
        x.volume < x.closeTarget →
      ∃ t, resumed t ∧ raised t ∧ t.fp = s.fp.set d { entered with state := .fueling, start := none, noFlow := some 60000, gate3 := true }
        ∧ s.FlowStarts t d x g ∧ (∀ p, t.meter ⟨d, p⟩ = ((s.meter ⟨d, p⟩).under .unassigned).under (x.claims p))
        ∧ t = { s with fp := t.fp, vlv := t.vlv, mot := t.mot, met := t.met, mem := t.mem, port := t.port, rev := t.rev })
    ∧ (∀ a, x.grade = none → (s.fp.get d).gate2 = false → (s.fp.get d).auth = some a →
      ((∀ g, ¬ s.offers d x.hose a g) →
        ∃ t, resumed t ∧ unassigned t ∧ t.fp = s.fp.set d entered ∧ t = { s with fp := t.fp, met := t.met, mem := t.mem, port := t.port, rev := t.rev })
      ∧ (∀ g p, s.offers d x.hose a g → s.ret.applied.get d = some p →
        ∃ t, resumed t ∧ s.GradeFixed t d entered x g p
          ∧ s.disp.Asked t.disp (fun q k => (k = .sale ∧ s.disp.showsWith (saleRole d) q) ∨ (k = .zero ∧ q = saleRole d))
          ∧ t = { s with fp := t.fp, ret := t.ret, mot := t.mot, met := t.met, disp := t.disp, mem := t.mem, port := t.port, rev := t.rev })))

/-- R28: SETTLE, in every state of the fueling point, ACTIVE or HALTED. -/
def Obligations.SettleRemovesTheEntry : Prop :=
  ∀ (s : State) (n : Nat) (d : Side), s.Offers .settle n (sideCode d) →
    let x := s.bodyField n 0 2
    let list := (s.ret.sides.get d).list
    (x = 0 → ∃ t, exec .settle s = .next t ∧ s.Answered t n .badOrder 0 [] ∧ t = { s with mem := t.mem, port := t.port, rev := t.rev })
    ∧ (x ≠ 0 → (∀ y ∈ list, y.number ≠ x) →
        ∃ t, exec .settle s = .next t ∧ s.Answered t n .notFound 0 [] ∧ t = { s with mem := t.mem, port := t.port, rev := t.rev })
    ∧ (∀ before y after, x ≠ 0 → list = before ++ y :: after → (∀ z ∈ before, z.number ≠ x) → y.number = x →
        ∃ t, exec .settle s = .next t ∧ s.Answered t n .ok x []
          ∧ t.ret = { s.ret with sides := s.ret.sides.set d { s.ret.sides.get d with list := before ++ after } }
          ∧ t = { s with ret := t.ret, mem := t.mem, port := t.port, rev := t.rev })

/-- R150, R30, R37, R51: CLEAR_LOCK, its tests in their order and its effect. That the detail of the OK reads 0 where the retained lock cause is
absent is the model's choice (log 86). -/
def Obligations.ClearLockTestsThenUnlocks : Prop :=
  ∀ (s : State) (n : Nat) (d : Side), s.Offers .clearLock n (sideCode d) →
    let answered (code : ResultCode) (detail : Nat) : Prop :=
      ∃ t, exec .clearLock s = .next t ∧ s.Answered t n code detail [] ∧ t = { s with mem := t.mem, port := t.port, rev := t.rev }
    (s.pw.state = .halted → answered .unavailable 0x100)
    ∧ (s.pw.state = .active → s.fpState d ≠ .locked → answered .wrongState (0x100 + (s.fpState d).code))
    ∧ (∀ h, s.pw.state = .active → s.fpState d = .locked → ((s.fp.get d).lift h).isSome = true →
        (s.fp.get d).lift (otherHose h) = none → answered .nozzleOut (hoseCode h))
    ∧ (∀ m : Meter, s.pw.state = .active → s.fpState d = .locked → (s.fp.get d).lift1 = none → (s.fp.get d).lift2 = none →
        m.side = d → (s.meter m).quietUn.isSome = true →
        (∀ p, motorCode p < motorCode m.product → (s.meter ⟨d, p⟩).quietUn = none) → answered .stillFlowing (meterCode m))
    ∧ (s.pw.state = .active → s.fpState d = .locked → (s.fp.get d).lift1 = none → (s.fp.get d).lift2 = none →
        (∀ p, (s.meter ⟨d, p⟩).quietUn = none) →
        ∃ t, exec .clearLock s = .next t
          ∧ s.Answered t n .ok (match (s.ret.sides.get d).lockCause with
                                | some c => 0x200 + c.code
                                | none => 0) [fpFlag d]
          ∧ t.ret = { s.ret with sides := s.ret.sides.set d { s.ret.sides.get d with locked := false, lockCause := none } }
          ∧ t.fp = s.fp.set d { s.fp.get d with state := if s.fuelable d then .idle else .unavailable, lockFlow := none,
                                                lockFlowMade := false }
          ∧ (∀ m, (s.meter m).attr = .unassigned →
              t.meter m = if m.side = d then { s.meter m with tally := 0 } else s.meter m)
          ∧ (∀ m, m.side ≠ d → t.meter m = s.meter m)
          ∧ t = { s with fp := t.fp, ret := t.ret, met := t.met, mem := t.mem, port := t.port, rev := t.rev })

/-- R5, R6, R11: a hose lift outside AUTHORIZED, and a hang that ends no sale, of one of two lifted hoses too.
R11, R13: a hose lift in AUTHORIZED opens a sale on a hose that meets the mask, its grade being fixed at once where it can be (R14), and is
refused otherwise; a message of the side that is in flight is superseded (R111). That the opening asks for no MESSAGE frame is the model's
choice (log 21). R108, R109: the opening asks for SALE frames, and the fixing of a grade for the ZERO frame too.
R7: a press that is accepted outside STARTING, a press that is ignored, and the end of a press's validity.
R7, R14: a press accepted in STARTING fixes the grade of a sale on hose 1, and is recorded for one on hose 2. -/
def Obligations.HosesAndPressesAreRecorded : Prop :=
  (∀ (s : State) (d : Side) (h : Hose), s.steady →
    ((s.fp.get d).lift h = none → s.fpState d ≠ .authorized →
      ∃ t, exec (.hoseLift d h) s = .next t
        ∧ t.fp = s.fp.set d { (s.fp.get d).setLift h (some s.rtc) with
            calling := some ((s.fp.get d).calling.getD h),
            state := if s.fpState d = .idle then .calling else s.fpState d }
        ∧ t.port = { s.port with attn := if s.fpState d = .idle then s.port.attn ||| flagsOf [fpFlag d, .call] else s.port.attn }
        ∧ (∀ m, m.side ≠ d ∨ (s.meter m).attr = .unassigned ∨ s.fpState d ≠ .idle → t.meter m = s.meter m)
        ∧ t = { s with fp := t.fp, met := t.met, port := t.port, rev := t.rev })
    ∧ (((s.fp.get d).lift h).isSome = true → ((s.fpState d).endable = false ∨ (s.sale d).hose ≠ h) →
      let other := ((s.fp.get d).lift (otherHose h)).isSome
      let next : FpState := match s.fpState d with
        | .calling => if other then .calling else .idle
        | .finished => if other = false then .idle else if (s.sale d).hose = h then .calling else .finished
        | st => st
      ∃ t, exec (.hoseHang d h) s = .next t
        ∧ t.fp = s.fp.set d { (s.fp.get d).setLift h none with calling := if other then some (otherHose h) else none, state := next }
        ∧ t.port = { s.port with attn := s.port.attn ||| flagsOf (if next = s.fpState d then []
            else fpFlag d :: (if next = .calling then [.call] else [])) }
        ∧ (∀ m, m.side ≠ d ∨ (s.meter m).attr = .unassigned ∨ next = s.fpState d → t.meter m = s.meter m)
        ∧ t = { s with fp := t.fp, met := t.met, port := t.port, rev := t.rev })
    ∧ (∀ a, (s.fp.get d).lift h = none → s.fpState d = .authorized → s.pw.state = .active → (s.fp.get d).auth = some a →
      let lifted : FuelPoint := { (s.fp.get d).setLift h (some s.rtc) with calling := some ((s.fp.get d).calling.getD h) }
      let told := s.completeOpt (s.disp.lines.get d).order .superseded 0x10C
      (HoseMeets a.mask h →
        ∃ t, exec (.hoseLift d h) s = .next t ∧ s.SaleOpens t d lifted h a ∧ t.mem = told.mem
          ∧ t.port = { told.port with attn := told.port.attn ||| flagsOf [fpFlag d] }
          ∧ t = { s with fp := t.fp, ret := t.ret, met := t.met, vlv := t.vlv, mot := t.mot, disp := t.disp, mem := t.mem, port := t.port,
                         rev := t.rev })
      ∧ (¬ HoseMeets a.mask h →
        ∃ t, exec (.hoseLift d h) s = .next t ∧ t.fp = s.fp.set d { lifted with refused := some h }
          ∧ t.port = { s.port with attn := s.port.attn ||| flagsOf [fpFlag d] } ∧ t = { s with fp := t.fp, port := t.port, rev := t.rev })))
  ∧ (∀ (s : State) (d : Side) (g : Grade), s.steady → g ≠ .g5 →
    let fits : Bool := s.gradeEnabled d g && !s.faultIn (s.gradeProducts d g)
      && (match (s.fp.get d).auth with
          | some a => a.mask.get g
          | none => true)
    (fits = true → (s.fpState d).inSale = false →
      ∃ t, exec (.gradeButtonPress d g) s = .next t
        ∧ t.fp = s.fp.set d { s.fp.get d with button := some ⟨g, s.rtc⟩, pressTimer := some 30000 }
        ∧ t = { s with fp := t.fp, rev := t.rev })
    ∧ (∀ a, fits = true → s.fpState d = .starting → s.pw.state = .active → (s.sale d).grade = none → (s.fp.get d).gate2 = false →
        (s.fp.get d).auth = some a →
      let pressed : FuelPoint := { s.fp.get d with button := some ⟨g, s.rtc⟩, pressTimer := some 30000, pressSelects := true }
      (∀ p, (s.sale d).hose = .h1 → s.ret.applied.get d = some p →
        ∃ t, exec (.gradeButtonPress d g) s = .next t ∧ s.GradeFixed t d pressed (s.sale d) g p
          ∧ s.disp.Asked t.disp (fun q k => (k = .sale ∧ s.disp.showsWith (saleRole d) q) ∨ (k = .zero ∧ q = saleRole d))
          ∧ t = { s with fp := t.fp, ret := t.ret, mot := t.mot, met := t.met, disp := t.disp, rev := t.rev })
      ∧ ((s.sale d).hose = .h2 → ¬ s.offers d .h2 a .g5 →
        ∃ t, exec (.gradeButtonPress d g) s = .next t ∧ t.fp = s.fp.set d { pressed with gate3 := false }
          ∧ t = { s with fp := t.fp, rev := t.rev }))
    ∧ (fits = false ∨ s.fpState d = .fueling ∨ s.fpState d = .paused ∨ s.fpState d = .settling
        ∨ (s.fpState d = .starting ∧ (s.sale d).grade.isSome = true) →
      ∃ t, exec (.gradeButtonPress d g) s = .next t ∧ t = { s with rev := t.rev })
    ∧ (∃ t, exec (.gradePressValidityExpiry d) s = .next t
        ∧ t.fp = s.fp.set d { s.fp.get d with pressTimer := none } ∧ t = { s with fp := t.fp, rev := t.rev }))

/-- R23, R24, R25, R29, R36: the settle timer completes a sale, or discards one of volume 0, and the fueling point goes on: LOCKED while the device
is HALTED or after an end cause of class LOCK (R30, R51), UNAVAILABLE where it lacks a prerequisite, and otherwise by its hoses.
R108: its change of status asks for SALE frames at the head that shows the side's sale and at its mirrors; the requests join the frame queue (R100).
R60: the side's slow mark is cleared. R1, R3: the prerequisites, without which it is UNAVAILABLE.
R81, R82, R86: a price set pending for the side is applied at that moment, which asks for BOARD frames (R90), and its order completes once both
sides have applied it.
That the overrun base, its measure and its marks stand through the completion, that the last-end record of a discarded sale gives the number 0, and
that a sale with volume whose retained grade reads absent is added to no grade total, are the model's choices (log 17, log 72, log 91). -/
def Obligations.SettleTimerCompletesTheSale : Prop :=
  ∀ (s : State) (d : Side) (e : Cause), s.steady → s.fpState d = .settling → (s.fp.get d).settle.isSome = true → (s.sale d).endCause = some e →
    let x := s.sale d
    let side := s.ret.sides.get d
    let zero : Prop := x.volume = 0
    let number := if side.counter = 65535 then 1 else side.counter + 1
    let done : Sale := if zero then { x with endTime := some s.rtc, status := .discarded }
      else { x with endTime := some s.rtc, number := number, status := .completed }
    let totals : Five GradeTotal := match x.grade with
      | some g => side.grades.set g
          ⟨((side.grades.get g).volume + x.volume) % 10 ^ 10, ((side.grades.get g).amount + x.amount) % 10 ^ 10⟩
      | none => side.grades
    let locks : Prop := s.pw.state = .halted ∨ e.isLock = true
    let cause : Cause := if e.isLock then e else if x.firstCause.any Cause.isLock then x.firstCause.getD .halt else .halt
    let next : FpState := if locks then .locked
      else if s.fuelable d = false then .unavailable
      else if ((s.fp.get d).lift x.hose).isSome then .finished
      else if (s.fp.get d).lift1.isSome || (s.fp.get d).lift2.isSome then .calling else .idle
    let flags := (if next = .calling then [Attn.call] else []) ++ (if zero then [] else [saleFlag d]) ++ [fpFlag d]
    let starts : Prop := locks ∧ cause = .unauthFlow
    let closed : RetSide := { side with
      sale := done, counter := if zero then side.counter else number, list := if zero then side.list else side.list ++ [done]
      grades := if zero then side.grades else totals
      locked := if locks then true else side.locked, lockCause := if locks then some cause else side.lockCause }
    let completed (t : State) : Prop := exec (.settleTimerExpiry d) s = .next t
      ∧ t.fp = s.fp.set d { s.fp.get d with
          state := next, auth := none, button := none, pressTimer := none, settle := none
          lockFlow := if starts then some 0 else (s.fp.get d).lockFlow, lockFlowMade := if starts then false else (s.fp.get d).lockFlowMade
          lastEnd := some { kind := if zero then .saleDiscarded else .saleCompleted, cause := e, number := if zero then 0 else number
                            time := s.rtc } }
      ∧ t.vlv = s.vlv.set d { s.vlv.get d with slow := false } ∧ t.met.get d.other = s.met.get d.other
      ∧ (∀ p, t.meter ⟨d, p⟩ = (s.meter ⟨d, p⟩).under .unassigned)
    ((∀ p, s.ret.pendingSet = some p → (p.marks.get d = true ∨ s.pw.state ≠ .active) ∧ (p.marks.a && p.marks.b) = false) →
      ∃ t, completed t ∧ t.ret = { s.ret with sides := s.ret.sides.set d closed }
        ∧ t.port = { s.port with attn := s.port.attn ||| flagsOf flags }
        ∧ s.disp.Asked t.disp (fun q k => k = .sale ∧ s.disp.showsWith (saleRole d) q)
        ∧ t = { s with ret := t.ret, fp := t.fp, vlv := t.vlv, met := t.met, disp := t.disp, port := t.port, rev := t.rev })
    ∧ (∀ p, s.ret.pendingSet = some p → p.marks.get d = false → s.pw.state = .active → (s.ret.applied.get d).isSome = true →
      let both := p.marks.get d.other
      let told := if both then s.completeOpt s.price.order .ok p.prices.version else s
      ∃ t, completed t
        ∧ t.ret = { s.ret with
            sides := s.ret.sides.set d closed, appliedArea := s.ret.appliedArea.set d ⟨true, p.prices⟩
            pendingArea := { s.ret.pendingArea with present := !both }, marks := if both then ⟨false, false⟩ else p.marks.set d true }
        ∧ t.price = (if both then ⟨none⟩ else s.price) ∧ t.mem = told.mem
        ∧ t.port = { told.port with attn := told.port.attn ||| flagsOf (.price :: flags) }
        ∧ s.disp.Asked t.disp (fun q k =>
            (k = .sale ∧ s.disp.showsWith (saleRole d) q) ∨ (k = .board ∧ s.disp.showsWith (priceRole d) q))
        ∧ t = { s with ret := t.ret, fp := t.fp, vlv := t.vlv, met := t.met, price := t.price, disp := t.disp, mem := t.mem, port := t.port,
                       rev := t.rev })

/-! ## Prices and the halt condition -/

/-- R78, R79, R81, R82: PRICE_SET with the device ACTIVE and no side refused by a prerequisite: with no set pending, applied at once where no
side has a sale in progress; pending with both marks clear where both have, applied by the side that has none where one has, and turned away
for its first field out of range. R80: a set that was pending is superseded: its order completes SUPERSEDED with the new version and the marks
as they stood. R90: an application asks for BOARD frames. R82, R86: a set that is cleared keeps its version and prices in retention memory, its
present flag and its marks being cleared. -/
def Obligations.PriceSetIsAppliedOrWaits : Prop :=
  ∀ (s : State) (n : Nat), s.Offers .priceSet n 0 → s.pw.state = .active →
    let p := s.bodySet n
    (s.bodyField n 0 2 ≠ 0 → (∀ i, 1 ≤ i → i ≤ 10 → 1 ≤ s.bodyPrice n i ∧ s.bodyPrice n i ≤ 99999) →
      (∀ d, s.fpState d ≠ .unavailable) → (∀ d, s.meets d .display = true ∧ s.meets d .metrology = true) →
      ((∀ d, s.inSale d = false) → s.ret.pendingSet = none →
        ∃ t, exec .priceSet s = .next t ∧ s.Answered t n .ok (s.bodyField n 0 2) [.price]
          ∧ t.ret = { s.ret with appliedArea := ⟨⟨true, p⟩, ⟨true, p⟩⟩, pendingArea := ⟨false, p⟩, marks := ⟨false, false⟩ } ∧ t.price.order = none
          ∧ s.disp.Asked t.disp (fun q k => k = .board ∧ (s.disp.showsWith .priceA q ∨ s.disp.showsWith .priceB q))
          ∧ t = { s with ret := t.ret, price := t.price, disp := t.disp, mem := t.mem, port := t.port, rev := t.rev })
      ∧ ((∀ d, s.inSale d = true) → s.ret.pendingSet = none →
        ∃ t, exec .priceSet s = .next t ∧ s.HeldTaken t n [.price]
          ∧ t.ret = { s.ret with pendingArea := ⟨true, p⟩, marks := ⟨false, false⟩ }
          ∧ t.price.order = some ⟨n, (s.takeNumber n + 1) % 65536, s.rtc⟩
          ∧ t = { s with ret := t.ret, price := t.price, mem := t.mem, port := t.port, rev := t.rev })
      ∧ (∀ d, s.inSale d = true →
        let free := !s.inSale d.other
        let told := match s.ret.pendingSet with
          | some q => (s.takeSlot n).1.completeOpt s.price.order .superseded
              (p.version + (if q.marks.a then 0x10000 else 0) + (if q.marks.b then 0x20000 else 0))
          | none => (s.takeSlot n).1
        ∃ t, exec .priceSet s = .next t ∧ t.mem = told.mem
          ∧ t.port = { told.port with attn := told.port.attn ||| flagsOf [.price] }
          ∧ t.ret = { s.ret with
              appliedArea := if free then s.ret.appliedArea.set d.other ⟨true, p⟩ else s.ret.appliedArea
              pendingArea := ⟨true, p⟩, marks := (⟨false, false⟩ : Sides Bool).set d.other free }
          ∧ t.price.order = some ⟨n, (s.takeNumber n + 1) % 65536, s.rtc⟩
          ∧ s.disp.Asked t.disp (fun q k => free = true ∧ k = .board ∧ s.disp.showsWith (priceRole d.other) q)
          ∧ t = { s with ret := t.ret, price := t.price, disp := t.disp, mem := t.mem, port := t.port, rev := t.rev }))
    ∧ (∀ f, ((s.bodyField n 0 2 = 0 ∧ f = 0)
          ∨ (s.bodyField n 0 2 ≠ 0 ∧ ∃ i, 1 ≤ i ∧ i ≤ 10 ∧ f = 4 * i ∧ (s.bodyPrice n i = 0 ∨ 99999 < s.bodyPrice n i)
              ∧ ∀ j, 1 ≤ j → j < i → 1 ≤ s.bodyPrice n j ∧ s.bodyPrice n j ≤ 99999)) →
        ∃ t, exec .priceSet s = .next t ∧ s.Answered t n .badOrder f [] ∧ t = { s with mem := t.mem, port := t.port, rev := t.rev })

/-- R147, R148: the tests of CLEAR_HALT in their order, and the return to ACTIVE with no demand, no pending price set and both fueling
points LOCKED. That the detail names side A where both are SETTLING is the model's choice (log 74). -/
def Obligations.ClearHaltTestsThenReturnsToActive : Prop :=
  ∀ (s : State) (n : Nat), s.Offers .clearHalt n 0 →
    let answered (code : ResultCode) (detail : Nat) : Prop :=
      ∃ t, exec .clearHalt s = .next t ∧ s.Answered t n code detail [] ∧ t = { s with mem := t.mem, port := t.port, rev := t.rev }
    (s.pw.state = .active → answered .wrongState 0x503)
    ∧ (s.pw.state = .halted → s.fpState .a = .settling → answered .wrongState 0x01000108)
    ∧ (s.pw.state = .halted → s.fpState .a ≠ .settling → s.fpState .b = .settling → answered .wrongState 0x02000108)
    ∧ (s.pw.state = .halted → (∀ d, s.fpState d ≠ .settling) → s.halt.reload = true → answered .causePresent 0x107)
    ∧ (∀ m : Meter, s.pw.state = .halted → (∀ d, s.fpState d ≠ .settling) → s.halt.reload = false → (s.meter m).quietAny.isSome = true →
        (∀ x : Meter, meterCode x < meterCode m → (s.meter x).quietAny = none) → answered .stillFlowing (meterCode m))
    ∧ (s.pw.state = .halted → (∀ d, s.fpState d = .locked) → s.halt.reload = false → (∀ m : Meter, (s.meter m).quietAny = none) →
        s.ret.pendingSet = none → (∀ m, (s.motor m).demand = ⟨false, false⟩) →
        ∃ t, exec .clearHalt s = .next t
          ∧ s.Answered t n .ok (match s.halt.code with
                                | some c => c.code
                                | none => 0) [.halt]
          ∧ t.pw = { s.pw with state := .active } ∧ t.halt = { s.halt with halted := false }
          ∧ t = { s with pw := t.pw, halt := t.halt, mem := t.mem, port := t.port, rev := t.rev })

/-! ## Metering -/

/-- R32: a quarter step moves the position by one and takes the new pair; at +4 it takes a forward pulse and at −4 a reverse pulse.
R34: a reverse pulse is pending, and a forward pulse cancels one that is pending; neither adds to an accumulator.
R33: an illegal transition below the limit of R35.
That a pulse's row is the quarter step that takes it is the model's choice (log 32). -/
def Obligations.QuarterStepsAndPulsesAreDecoded : Prop :=
  (∀ (s : State) (m : Meter) (i : MeterInput), s.steady → s.pw.decoding = true →
    let c := s.meter m
    let p := pairFlip c.phase i
    let position := if p = pairAfter c.phase then c.position + 1 else c.position - 1
    (position ≠ 4 → position ≠ -4 →
      ∃ t, exec (.quarterStep m i) s = .next t ∧ t.meter m = { c with phase := p, position := position }
        ∧ (∀ x, x ≠ m → t.meter x = s.meter x) ∧ t = { s with met := t.met, rev := t.rev })
    ∧ (p = pairAfter c.phase → c.position = 3 → exec (.quarterStep m i) s = exec (.forwardPulse m) s)
    ∧ (p ≠ pairAfter c.phase → c.position = -3 → exec (.quarterStep m i) s = exec (.reversePulse m) s))
  ∧ (∀ (s : State) (m : Meter), s.steady → s.pw.decoding = true →
    let c := s.meter m
    let quiet := if c.attr = .unassigned then some 2000 else c.quietUn
    (c.pendingRev < 50 →
      ∃ t, exec (.reversePulse m) s = .next t
        ∧ t.meter m = { c with phase := pairBefore c.phase, position := 0, pendingRev := c.pendingRev + 1, quietAny := some 2000, quietUn := quiet }
        ∧ (∀ x, x ≠ m → t.meter x = s.meter x) ∧ t = { s with met := t.met, rev := t.rev })
    ∧ (0 < c.pendingRev →
      ∃ t, exec (.forwardPulse m) s = .next t
        ∧ t.meter m = { c with phase := pairAfter c.phase, position := 0, pendingRev := c.pendingRev - 1, quietAny := some 2000, quietUn := quiet }
        ∧ (∀ x, x ≠ m → t.meter x = s.meter x) ∧ t = { s with met := t.met, rev := t.rev }))
  ∧ (∀ (s : State) (m : Meter), s.steady → s.pw.decoding = true → (s.meter m).illegal < 3 →
    let c := s.meter m
    ∃ t, exec (.illegalTransition m) s = .next t
      ∧ t.meter m = { c with phase := ⟨!c.phase.chA, !c.phase.chB⟩, position := 0,
                             illegal := if c.attr = .sale then c.illegal + 1 else c.illegal }
      ∧ (∀ x, x ≠ m → t.meter x = s.meter x) ∧ t = { s with met := t.met, rev := t.rev })

/-- R34, R36, R37, R39, R41, R166: a counted pulse of an UNASSIGNED meter, below the twentieth of its tally, no lock-flow measure running.
R30, R37, R51: the twentieth counted pulse of an unassigned meter locks a ready fueling point with UNAUTH_FLOW, the other side being
neither LOCKED nor SETTLING.
The order of the twentieth pulse's volume and its report is the model's choice (log 30); that an accumulator wraps at 64 bits is its reading of
R39 (log 29). -/
def Obligations.UnassignedPulsesAddAndLock : Prop :=
  (∀ (s : State) (m : Meter), s.steady → s.pw.decoding = true → (s.meter m).attr = .unassigned → (s.meter m).pendingRev = 0 →
    (s.meter m).k ≠ 0 → (s.meter m).tally < 19 → (s.fp.get m.side).lockFlow = none →
    let c := s.meter m
    let acc := (c.unAcc + (1000000 + c.correction).toNat) % 2 ^ 64
    let rise := acc / c.k - c.unV
    let r := (s.ret.meters.get m.side).get m.product
    ∃ t, exec (.forwardPulse m) s = .next t
      ∧ t.meter m = { c with phase := pairAfter c.phase, position := 0, quietAny := some 2000, quietUn := some 2000,
                             unAcc := acc, unV := acc / c.k, w0 := c.w0 + rise, tally := c.tally + 1 }
      ∧ (∀ x, x ≠ m → t.meter x = s.meter x)
      ∧ t.ret = (if 0 < rise then { s.ret with meters := s.ret.meters.set m.side ((s.ret.meters.get m.side).set m.product
                    ⟨(r.total + rise) % 10 ^ 12, (r.unassigned + rise) % 10 ^ 12⟩) } else s.ret)
      ∧ t.pw = { s.pw with resetHold := s.pw.resetHold.map (fun _ => 500) }
      ∧ t = { s with met := t.met, ret := t.ret, pw := t.pw, rev := t.rev })
  ∧ (∀ (s : State) (m : Meter), s.steady → s.pw.decoding = true → (s.meter m).attr = .unassigned → (s.meter m).pendingRev = 0 →
    (s.meter m).k ≠ 0 → (s.meter m).tally = 19 → (s.fp.get m.side).lockFlow = none → s.pw.state ≠ .halted → s.pw.state ≠ .powerFail →
    (s.fpState m.side = .unavailable ∨ s.fpState m.side = .idle ∨ s.fpState m.side = .calling ∨ s.fpState m.side = .finished) →
    s.fpState m.side.other ≠ .locked → s.fpState m.side.other ≠ .settling →
    let c := s.meter m
    let acc := (c.unAcc + (1000000 + c.correction).toNat) % 2 ^ 64
    let rise := acc / c.k - c.unV
    let r := (s.ret.meters.get m.side).get m.product
    ∃ t, exec (.forwardPulse m) s = .next t
      ∧ t.fp = s.fp.set m.side { s.fp.get m.side with state := .locked, lockFlow := some 0, lockFlowMade := false }
      ∧ t.ret = { s.ret with
          sides := s.ret.sides.set m.side { s.ret.sides.get m.side with locked := true, lockCause := some .unauthFlow }
          meters := if 0 < rise then s.ret.meters.set m.side ((s.ret.meters.get m.side).set m.product
                      ⟨(r.total + rise) % 10 ^ 12, (r.unassigned + rise) % 10 ^ 12⟩) else s.ret.meters }
      ∧ t.pw = { s.pw with resetHold := s.pw.resetHold.map (fun _ => 500) }
      ∧ t.meter m = { c with phase := pairAfter c.phase, position := 0, quietAny := some 2000, quietUn := some 2000,
                             unAcc := acc, unV := acc / c.k, w0 := c.w0 + rise, tally := 20 }
      ∧ (∀ x, x ≠ m → t.meter x = if x.side = m.side then (s.meter x).under .unassigned else s.meter x)
      ∧ t.port = { s.port with attn := s.port.attn ||| flagsOf [fpFlag m.side] }
      ∧ t = { s with met := t.met, ret := t.ret, fp := t.fp, pw := t.pw, port := t.port, rev := t.rev })

/-- R17, R36, R39, R41, R44, R48, R49: a counted pulse of a meter of a sale in FUELING that raises its volume: below the close target the sale
goes on, in slow flow once the slow condition holds; at the close target it ends with the cause of its close reason.
R108: the change of volume asks for SALE frames at the head that shows the side's sale and at its mirrors. A pulse in a reset hold restarts its
500 ms (R166; its section, DEVICE RESET of file 08, stands beyond the twelve that are cited).
R20, R21, R23, R26, R49, R50, R53, R139, R140, R142, R143: in PAUSED and SETTLING the volume beyond the overrun base is measured. The
pulse that first takes it past the overrun limit reports OVERRUN: a PAUSED sale ends with it, the other side being neither LOCKED nor SETTLING;
in SETTLING it replaces an END or STOP cause, and against a LOCK-class cause it is a second fault and the device halts. One that first takes it
past twice the limit halts the device with FLOW_AFTER_CLOSE. Where no report is made, only the pulse is counted.
How the marks of a passed overrun limit follow the base, and that the last-end record of an authorization ended by the halt gives the number 0, are
the model's choices (log 17, log 72); that an accumulator wraps at 64 bits is its reading of R39 (log 29). -/
def Obligations.SalePulsesMeterTheSale : Prop :=
  ∀ (s : State) (m : Meter), s.steady → s.pw.decoding = true → (s.meter m).attr = .sale → (s.meter m).pendingRev = 0 → (s.meter m).k ≠ 0 →
    let d := m.side
    let c := s.meter m
    let acc := (c.saleAcc + (1000000 + c.correction).toNat) % 2 ^ 64
    let rise := acc / c.k - c.saleV
    let x := s.sale d
    let products := x.products.set m.product (x.products.get m.product + rise)
    let volume := (products.p1 + products.p2 + products.p3) / 10
    let amount := (volume * x.price + 500) / 1000
    let y : Sale := { x with products := products, volume := volume, amount := min 999999 amount, capped := x.capped || decide (999999 < amount) }
    let r := (s.ret.meters.get d).get m.product
    let meters := s.ret.meters.set d ((s.ret.meters.get d).set m.product { r with total := (r.total + rise) % 10 ^ 12 })
    let side := s.ret.sides.get d
    let slow := (s.vlv.get d).slow
    let pw : Power := { s.pw with resetHold := s.pw.resetHold.map (fun _ => 500) }
    let counted : Channel := { c with phase := pairAfter c.phase, position := 0, quietAny := some 2000, saleAcc := acc,
                                       saleV := acc / c.k, w0 := c.w0 + rise }
    let asked (t : State) : Prop := s.disp.Asked t.disp (fun q k => k = .sale ∧ s.disp.showsWith (saleRole d) q)
    0 < rise → volume ≠ x.volume →
    (s.fpState d = .fueling → (s.fp.get d).base = none →
      let f : FuelPoint := { s.fp.get d with noFlow := some 60000 }
      ∃ t, exec (.forwardPulse m) s = .next t ∧ t.pw = pw ∧ asked t
      ∧ t.met.get d.other = s.met.get d.other
      ∧ (volume < x.closeTarget →
          t.ret = { s.ret with meters := meters, sides := s.ret.sides.set d { side with sale := y } } ∧ t.fp = s.fp.set d f
          ∧ t.vlv = (if x.closeTarget ≤ volume + f.slowMargin ∧ slow = false
              then s.vlv.set d { s.vlv.get d with slow := true, valves := (s.vlv.get d).valves.map ValveDrive.slowed } else s.vlv)
          ∧ t.meter m = counted ∧ (∀ x, x ≠ m → t.meter x = s.meter x)
          ∧ t = { s with met := t.met, ret := t.ret, fp := t.fp, vlv := t.vlv, pw := t.pw, disp := t.disp, rev := t.rev })
      ∧ (x.closeTarget ≤ volume →
          t.ret = { s.ret with
              meters := meters
              sides := s.ret.sides.set d { side with sale := { y with
                endCause := some (if f.closeReason = some .preset then .presetReached else .amountLimit) } } }
          ∧ t.fp = s.fp.set d (f.ended volume)
          ∧ t.vlv = s.vlv.set d { s.vlv.get d with slow := true, valves := ⟨.shut, .shut, .shut⟩, blend := { (s.vlv.get d).blend with timer := none } }
          ∧ (∀ q, (t.motor q).demand = (s.motor q).demand.set d false)
          ∧ (s.DriveLaw → s.DemandDropped t d)
          ∧ t.meter m = counted.under (x.claims m.product)
          ∧ (∀ p, p ≠ m.product → t.meter ⟨d, p⟩ = (s.meter ⟨d, p⟩).under (x.claims p))
          ∧ t.port = { s.port with attn := s.port.attn ||| flagsOf [fpFlag d] }
          ∧ t = { s with met := t.met, ret := t.ret, fp := t.fp, vlv := t.vlv, mot := t.mot, pw := t.pw, disp := t.disp, port := t.port, rev := t.rev }))
    ∧ (∀ b, s.fpState d = .paused ∨ s.fpState d = .settling → (s.fp.get d).base = some b →
      let beyond := volume - b
      let limit := (s.fp.get d).limit
      let passes : Prop := limit < beyond ∧ (s.fp.get d).overrunMade = false
      let floods : Prop := 2 * limit < beyond ∧ (s.fp.get d).flowMade = false
      let settle := (s.fp.get d).settle
      let f : FuelPoint := { s.fp.get d with
        settle := if s.fpState d = .settling then settle.map (fun _ => 500) else settle, overrun := beyond }
      let w (g : FuelPoint) : State := { s with
        pw := pw, met := s.met.set d ((s.met.get d).set m.product counted), fp := s.fp.set d g
        ret := { s.ret with meters := meters, sides := s.ret.sides.set d { side with sale := y } } }
      (¬ passes → ¬ floods →
        ∃ t, exec (.forwardPulse m) s = .next t ∧ asked t ∧ t = { w f with disp := t.disp, rev := t.rev })
      ∧ (s.pw.state = .halted ∨ s.pw.state = .powerFail →
        ∃ t, exec (.forwardPulse m) s = .next t ∧ asked t
          ∧ (t.fp.get d).overrunMade = (f.overrunMade || decide (limit < beyond)) ∧ (t.fp.get d).flowMade = (f.flowMade || decide (2 * limit < beyond))
          ∧ t = { w { f with overrunMade := (t.fp.get d).overrunMade, flowMade := (t.fp.get d).flowMade } with disp := t.disp, rev := t.rev })
      ∧ (passes → ¬ floods → s.pw.state = .active → s.fpState d = .paused → s.fpState d.other ≠ .locked → s.fpState d.other ≠ .settling →
        ∃ t, exec (.forwardPulse m) s = .next t ∧ asked t
          ∧ (w { f with overrunMade := true }).SaleEnds t d { f with overrunMade := true } .overrun
          ∧ t.port = { s.port with attn := s.port.attn ||| flagsOf [fpFlag d] }
          ∧ t = { s with pw := pw, met := t.met, ret := t.ret, fp := t.fp, vlv := t.vlv, mot := t.mot, disp := t.disp, port := t.port, rev := t.rev })
      ∧ (∀ e, passes → ¬ floods → s.pw.state = .active → s.fpState d = .settling → x.endCause = some e →
        (e.isLock = false → s.fpState d.other ≠ .locked → s.fpState d.other ≠ .settling →
          ∃ t, exec (.forwardPulse m) s = .next t ∧ asked t
            ∧ t.ret = { s.ret with
                meters := meters, sides := s.ret.sides.set d { side with sale := { y with endCause := some .overrun, firstCause := some e } } }
            ∧ t = { w { f with overrunMade := true } with ret := t.ret, disp := t.disp, rev := t.rev })
        ∧ (e.isLock = true →
          ∃ t, exec (.forwardPulse m) s = .next t ∧ asked t
            ∧ ({ w { f with overrunMade := true } with disp := t.disp } : State).Halts t ⟨.secondFault, some ⟨d, e⟩, some ⟨d, .overrun⟩, 0⟩))
      ∧ (¬ passes → floods → s.pw.state = .active →
        ∃ t, exec (.forwardPulse m) s = .next t ∧ asked t
          ∧ ({ w { f with flowMade := true } with disp := t.disp } : State).Halts t ⟨.flowAfterClose, some ⟨d, .overrun⟩, none, beyond⟩))

/-- R21, R35: the reverse pulse that makes pending reverse 51 and the illegal transition that makes the count 4 end the sale the meter is
attributed to with PULSER_FAULT, the other side being neither LOCKED nor SETTLING.
R23, R139, R140, R141, R142, R143, R144, R145: in SETTLING it replaces an END or STOP cause; against a LOCK-class cause it is a second fault, and
with the other side LOCKED, or SETTLING for a LOCK-class cause, both sides have faulted: the device halts with SECOND_FAULT or BOTH_SIDES.
How the marks of a passed overrun limit follow the base, and that the last-end record of an authorization ended by the halt gives the number 0, are
the model's choices (log 17, log 72). -/
def Obligations.PulserFaultEndsTheSale : Prop :=
  ∀ (s : State) (m : Meter) (c : Instr), s.steady → s.pw.decoding = true → (s.meter m).attr = .sale → (s.meter m).pulserMade = false →
    s.pw.state = .active →
    (c = .reversePulse m ∧ (s.meter m).pendingRev = 50) ∨ (c = .illegalTransition m ∧ (s.meter m).illegal = 3) →
    let d := m.side
    let o := d.other
    let x := s.meter m
    let counted : Channel :=
      if c = .reversePulse m then
        { x with phase := pairBefore x.phase, position := 0, pendingRev := 51, quietAny := some 2000, pulserMade := true }
      else { x with phase := ⟨!x.phase.chA, !x.phase.chB⟩, position := 0, illegal := 4, pulserMade := true }
    let w : State := { s with met := s.met.set d ((s.met.get d).set m.product counted) }
    let side := s.ret.sides.get d
    ((s.fpState d).endable = true → s.fpState o ≠ .locked → s.fpState o ≠ .settling →
      ∃ t, exec c s = .next t ∧ w.SaleEnds t d (s.fp.get d) .pulserFault
        ∧ t.port = { s.port with attn := s.port.attn ||| flagsOf [fpFlag d] }
        ∧ t = { s with fp := t.fp, ret := t.ret, vlv := t.vlv, mot := t.mot, met := t.met, port := t.port, rev := t.rev })
    ∧ (∀ e, s.fpState d = .settling → (s.sale d).endCause = some e →
      (e.isLock = false → s.fpState o ≠ .locked → s.fpState o ≠ .settling →
        ∃ t, exec c s = .next t
          ∧ t = { w with
              ret := { s.ret with sides := s.ret.sides.set d { side with sale := { s.sale d with endCause := some .pulserFault, firstCause := some e } } }
              rev := t.rev })
      ∧ (e.isLock = true → ∃ t, exec c s = .next t ∧ w.Halts t ⟨.secondFault, some ⟨d, e⟩, some ⟨d, .pulserFault⟩, 0⟩))
    ∧ (∀ k, (s.fpState d).endable = true →
      ((s.fpState o = .locked ∧ (s.ret.sides.get o).lockCause = some k)
        ∨ (s.fpState o = .settling ∧ (s.sale o).endCause = some k ∧ k.isLock = true)) →
      ∃ t, exec c s = .next t ∧ t.pw = { s.pw with state := .halted }
        ∧ t.halt = { s.halt with code := some .bothSides, time := s.rtc, first := some ⟨o, k⟩, second := some ⟨d, .pulserFault⟩, flow := 0
                                 halted := true }
        ∧ t.fp = s.fp.set d ((s.fp.get d).ended (s.sale d).volume)
        ∧ t.sale d = { s.sale d with endCause := some .halt, firstCause := some .pulserFault }
        ∧ t.sale o = (if s.fpState o = .settling then { s.sale o with endCause := some .halt, firstCause := some k } else s.sale o)
        ∧ (∀ v, t.valve v = ⟨.closed, 0, 0, 0⟩) ∧ (∀ q, (t.motor q).state = .off ∨ (t.motor q).state = .fault) ∧ t.mot.queue = []
        ∧ (∀ p, t.meter ⟨d, p⟩ = (w.meter ⟨d, p⟩).under ((s.sale d).claims p)) ∧ t.met.get o = s.met.get o
        ∧ t.port = { s.port with attn := s.port.attn ||| flagsOf [.halt, fpFlag d] }
        ∧ t = { s with pw := t.pw, halt := t.halt, fp := t.fp, vlv := t.vlv, mot := t.mot, met := t.met, port := t.port, rev := t.rev
                       ret := { s.ret with sides := ⟨{ s.ret.sides.a with sale := t.sale .a }, { s.ret.sides.b with sale := t.sale .b }⟩ } })

/-- R34, R42, R43: the rate and band at a sub-window expiry of a channel with band limits, and the end of a quiet timer. -/
def Obligations.RatesBandsAndQuietTimers : Prop :=
  ∀ (s : State) (m : Meter), s.steady → s.pw.decoding = true →
    let c := s.meter m
    let rate := min 2000 (c.w0 + c.w1 + c.w2 + c.w3)
    (∀ x : Calibration, c.cal = some x →
      ∃ t, exec (.subwindowExpiry m) s = .next t
        ∧ t.meter m = { c with
            rate := rate, w0 := 0, w1 := c.w0, w2 := c.w1, w3 := c.w2
            band := if x.b3 ≤ rate then .b4 else if x.b2 ≤ rate then .b3 else if x.b1 ≤ rate then .b2 else .b1 }
        ∧ (∀ x, x ≠ m → t.meter x = s.meter x) ∧ t = { s with met := t.met, rev := t.rev })
    ∧ (∀ k, ∃ t, exec (.quietTimerExpiry m k) s = .next t
        ∧ t.meter m = { c with quietAny := if k = .anyPulse then none else c.quietAny, quietUn := if k = .unassigned then none else c.quietUn }
        ∧ (∀ x, x ≠ m → t.meter x = s.meter x) ∧ t = { s with met := t.met, rev := t.rev })

/-! ## Valves, blend loops and motors -/

/-- R55, R56, R58: a period boundary while the outputs are enabled, at every valve; and the end of a pull-in at a boundary that finds its
count at 0.
That the period boundary's row also ends the pull-ins that are due is the model's choice (log 33). -/
def Obligations.PeriodBoundariesApplyTheDuty : Prop :=
  ∀ s : State, s.steady → s.pw.drives = true →
    let low (duty : Nat) : Nat := if duty = 0 then 0 else max 8 (duty / 4)
    (∃ t, exec .pwmPeriodBoundary s = .next t
      ∧ (∀ v : Meter, t.valve v =
          let x := s.valve v
          let slow := (s.vlv.get v.side).slow
          match x.state, x.pullIn with
          | .closed, _ => { x with applied := 0 }
          | .pullIn, k + 1 => { x with applied := 255, pullIn := k }
          | .pullIn, 0 =>
            if slow then { x with state := .openSlow, applied := low x.commanded } else { x with state := .opened, applied := x.commanded }
          | .opened, _ => { x with applied := x.commanded }
          | .openSlow, _ => { x with applied := low x.commanded })
      ∧ (∀ d, (t.vlv.get d).slow = (s.vlv.get d).slow ∧ (t.vlv.get d).blend = (s.vlv.get d).blend)
      ∧ t = { s with vlv := t.vlv, rev := t.rev })
    ∧ (∀ v : Meter, (s.valve v).state = .pullIn → (s.valve v).pullIn = 0 →
      ∃ t, exec (.pullInEnd v) s = .next t
        ∧ t.valve v = (if (s.vlv.get v.side).slow then { s.valve v with state := .openSlow, applied := low (s.valve v).commanded }
                       else { s.valve v with state := .opened, applied := (s.valve v).commanded })
        ∧ (∀ w, w ≠ v → t.valve w = s.valve w)
        ∧ (∀ d, (t.vlv.get d).slow = (s.vlv.get d).slow ∧ (t.vlv.get d).blend = (s.vlv.get d).blend)
        ∧ t = { s with vlv := t.vlv, rev := t.rev })

/-- R59, R64, R65: an expiry of the blend interval timer in FUELING. In slow flow and below 50 cL the loop is left as it is; otherwise the
error, the count and the duties follow, and a count of 5 ends the sale with BLEND_FAULT, the other side being neither LOCKED nor SETTLING.
How the marks of a passed overrun limit follow the base is the model's reading (log 17). -/
def Obligations.BlendLoopsCorrectTheShare : Prop :=
  ∀ (s : State) (d : Side), s.steady → s.fpState d = .fueling → (s.vlv.get d).blend.timer.isSome = true →
    let v := s.vlv.get d
    let b := v.blend
    let x := s.sale d
    let error : Int := (b.share : Int) - ((x.products.p2 * 1000 / (x.products.p1 + x.products.p2) : Nat) : Int)
    let count := if x.volume < 300 then 0 else if 30 < error.natAbs then b.count + 1 else 0
    let step : Int := max (-16) (min 16 (error.tdiv 4))
    let high := (max 0 (min 255 ((b.dutyH : Int) + step))).toNat
    let write (y : ValveDrive) (duty : Nat) : ValveDrive :=
      if y.state = .opened ∧ y.commanded = 0 ∧ 0 < duty then { y with state := .pullIn, commanded := duty, pullIn := 4 }
      else { y with commanded := duty }
    (v.slow = true ∨ x.volume < 50 →
      ∃ t, exec (.blendIntervalExpiry d) s = .next t ∧ t.vlv = s.vlv.set d { v with blend := { b with timer := some 200 } }
        ∧ t = { s with vlv := t.vlv, rev := t.rev })
    ∧ (v.slow = false → 50 ≤ x.volume → count < 5 →
      ∃ t, exec (.blendIntervalExpiry d) s = .next t
        ∧ t.vlv = s.vlv.set d { v with
            blend := { b with timer := some 200, lastError := error, count := count, dutyH := high, dutyL := 255 - high }
            valves := { v.valves with p1 := write v.valves.p1 (255 - high), p2 := write v.valves.p2 high } }
        ∧ t = { s with vlv := t.vlv, rev := t.rev })
    ∧ (v.slow = false → 50 ≤ x.volume → 5 ≤ count → s.pw.state = .active → s.fpState d.other ≠ .locked → s.fpState d.other ≠ .settling →
      let w : State := { s with vlv := s.vlv.set d { v with blend := { b with lastError := error, count := count } } }
      ∃ t, exec (.blendIntervalExpiry d) s = .next t ∧ w.SaleEnds t d (s.fp.get d) .blendFault
        ∧ t.port = { s.port with attn := s.port.attn ||| flagsOf [fpFlag d] }
        ∧ t = { s with fp := t.fp, ret := t.ret, vlv := t.vlv, mot := t.mot, met := t.met, port := t.port, rev := t.rev })

/-- R69, R70: a motor's start timer runs out while no sale waits in STARTING: the motor is RUNNING and the head of the start queue starts.
R71, R72, R75, R147: the end of a run-on, the release of a trip input, and MOTOR_CLEAR with its tests in their order.
The detail 0 of a HALTED answer and the test of the target before it are the model's choices (log 43, log 44). -/
def Obligations.MotorsStartAndStop : Prop :=
  (∀ (s : State) (m : Product), s.steady → (s.motor m).state = .starting → (s.motor m).timer.isSome = true →
    (∀ q, q ≠ m → (s.motor q).state ≠ .starting) → (∀ d, s.fpState d ≠ .starting) → m ∉ s.mot.queue →
    ∃ t, exec (.motorStartExpiry m) s = .next t
      ∧ t.motor m = { s.motor m with state := .running, timer := none }
      ∧ (∀ q, q ≠ m → t.motor q = if s.mot.queue.head? = some q then { s.motor q with state := .starting, timer := some s.startTime }
                                   else s.motor q)
      ∧ t.mot.queue = s.mot.queue.tail
      ∧ t = { s with mot := t.mot, rev := t.rev })
  ∧ (∀ (s : State) (m : Product),
    (s.steady → (s.motor m).state = .runOn → (s.motor m).timer.isSome = true →
      ∃ t, exec (.runOnExpiry m) s = .next t ∧ t.motor m = { s.motor m with state := .off, timer := none }
        ∧ (∀ q, q ≠ m → t.motor q = s.motor q) ∧ t.mot.queue = s.mot.queue ∧ t = { s with mot := t.mot, rev := t.rev })
    ∧ (s.steady → ∃ t, exec (.motorTripRelease m) s = .next t ∧ t.motor m = { s.motor m with trip := false }
        ∧ (∀ q, q ≠ m → t.motor q = s.motor q) ∧ t.mot.queue = s.mot.queue ∧ t = { s with mot := t.mot, rev := t.rev })
    ∧ (∀ n, s.Offers .motorClear n (0x10 + motorCode m) →
        let answered (code : ResultCode) (detail : Nat) : Prop :=
          ∃ t, exec .motorClear s = .next t ∧ s.Answered t n code detail [] ∧ t = { s with mem := t.mem, port := t.port, rev := t.rev }
        (s.pw.state = .halted → answered .unavailable 0)
        ∧ (s.pw.state = .active → (s.motor m).state ≠ .fault → answered .wrongState (0x700 + (s.motor m).state.code))
        ∧ (s.pw.state = .active → (s.motor m).state = .fault → (s.motor m).trip = true → answered .causePresent 0)
        ∧ (s.pw.state = .active → (s.motor m).state = .fault → (s.motor m).trip = false → (∀ d, s.fpState d ≠ .starting) →
            ∃ t, exec .motorClear s = .next t ∧ s.Answered t n .ok 0 [.motor]
              ∧ ((s.motor m).demand = ⟨false, false⟩ → t.motor m = { s.motor m with state := .off } ∧ t.mot.queue = s.mot.queue
                  ∧ ∀ q, q ≠ m → t.motor q = s.motor q)
              ∧ ((s.motor m).demand ≠ ⟨false, false⟩ → s.arbiterFree = false →
                  t.motor m = { s.motor m with state := .queued } ∧ t.mot.queue = s.mot.queue ++ [m] ∧ ∀ q, q ≠ m → t.motor q = s.motor q)
              ∧ ((s.motor m).demand ≠ ⟨false, false⟩ → s.arbiterFree = true → s.mot.queue = [] →
                  t.motor m = { s.motor m with state := .starting, timer := some s.startTime } ∧ t.mot.queue = []
                  ∧ ∀ q, q ≠ m → t.motor q = s.motor q)
              ∧ t = { s with mot := t.mot, mem := t.mem, port := t.port, rev := t.rev })))

/-- R15, R36, R48, R57, R63, R69, R70: the motor that a sale in STARTING waits for runs, its grade being fixed and its zero frame acknowledged: all gates
are met, the sale enters FUELING, its volume below its close target, and the valves of its product set open. -/
def Obligations.TheLastGateOpensTheValves : Prop :=
  ∀ (s : State) (m : Product) (d : Side) (g : Grade), s.steady → s.pw.state = .active → (s.motor m).state = .starting →
    (s.motor m).timer.isSome = true → m ∉ s.mot.queue → s.fpState d = .starting → s.fpState d.other ≠ .starting → (s.sale d).grade = some g →
    (s.fp.get d).gate1 = true → (s.fp.get d).gate2 = true →
    (∀ q, (s.sale d).drawn.get q = true → q = m ∨ (s.motor q).state = .running) →
    (s.sale d).volume < (s.sale d).closeTarget →
    ∃ t, exec (.motorStartExpiry m) s = .next t
      ∧ t.fp = s.fp.set d { s.fp.get d with state := .fueling, start := none, noFlow := some 60000, gate3 := true }
      ∧ s.FlowStarts t d (s.sale d) g
      ∧ t.motor m = { s.motor m with state := .running, timer := none } ∧ (∀ q, (t.motor q).demand = (s.motor q).demand)
      ∧ ((∀ q, q ≠ m → (s.motor q).state ≠ .starting) → t.mot.queue = s.mot.queue.tail
          ∧ ∀ q, q ≠ m → t.motor q = if s.mot.queue.head? = some q then { s.motor q with state := .starting, timer := some s.startTime }
                                      else s.motor q)
      ∧ (∀ p, t.meter ⟨d, p⟩ = (s.meter ⟨d, p⟩).under ((s.sale d).claims p)) ∧ t.met.get d.other = s.met.get d.other
      ∧ t.port = { s.port with attn := s.port.attn ||| flagsOf [fpFlag d] }
      ∧ t = { s with fp := t.fp, vlv := t.vlv, mot := t.mot, met := t.met, port := t.port, rev := t.rev }

/-- R61, R67, R72, R73, R74: a trip of a motor no sale draws on puts it into FAULT and touches no sale; one that a sale in FUELING draws on
also closes the side's valves and ends the sale with MOTOR_TRIP; with the outputs disabled, or in FAULT, the level alone is recorded.
How the marks of a passed overrun limit follow the base is the model's reading (log 17). -/
def Obligations.MotorTripsFaultTheMotor : Prop :=
  ∀ (s : State) (m : Product), s.steady →
    let down (r : MotorRec) : MotorRec := { r with trip := true, state := .fault, faultTime := some s.rtc, timer := none }
    (s.pw.drives = true → (s.motor m).state ≠ .fault → (s.motor m).state ≠ .starting → s.DriveLaw → (∀ d, s.drawsOn d m = false) →
      ∃ t, exec (.motorTripAssert m) s = .next t ∧ t.motor m = down (s.motor m) ∧ (∀ q, q ≠ m → t.motor q = s.motor q)
        ∧ t.mot.queue = s.mot.queue.filter (fun q => decide (q ≠ m))
        ∧ t.port = { s.port with attn := s.port.attn ||| flagsOf [.motor] }
        ∧ t = { s with mot := t.mot, port := t.port, rev := t.rev })
    ∧ (∀ d : Side, s.pw.drives = true → (s.motor m).state ≠ .fault → s.drawsOn d m = true → s.fpState d = .fueling →
      s.drawsOn d.other m = false →
      let w : State := { s with mot := ⟨s.mot.recs.set m (down (s.motor m)), s.mot.queue.filter (fun q => decide (q ≠ m))⟩ }
      ∃ t, exec (.motorTripAssert m) s = .next t ∧ w.SaleEnds t d (s.fp.get d) .motorTrip
        ∧ (t.motor m).state = .fault ∧ (t.motor m).faultTime = some s.rtc ∧ (t.motor m).trip = true
        ∧ t.port = { s.port with attn := s.port.attn ||| flagsOf [.motor, fpFlag d] }
        ∧ t = { s with fp := t.fp, ret := t.ret, vlv := t.vlv, mot := t.mot, met := t.met, port := t.port, rev := t.rev })
    ∧ (s.pw.drives = false ∨ (s.motor m).state = .fault →
      ∃ t, exec (.motorTripAssert m) s = .next t ∧ t.motor m = { s.motor m with trip := true } ∧ (∀ q, q ≠ m → t.motor q = s.motor q)
        ∧ t.mot.queue = s.mot.queue ∧ t = { s with mot := t.mot, rev := t.rev })

/-! ## The display bus -/

/-- R110, R111: SHOW_MESSAGE is held in flight and becomes the side's message line; it is turned away for its first field out of range, and
for a sale head that is not READY. -/
def Obligations.MessagesBecomeTheLine : Prop :=
  ∀ (s : State) (n : Nat) (d : Side), s.Offers .showMessage n (sideCode d) →
    let length := s.bodyField n 0 1
    let allowed (b : Byte) : Prop := b.toNat = 0x20 ∨ (0x2D ≤ b.toNat ∧ b.toNat ≤ 0x3A) ∨ (0x41 ≤ b.toNat ∧ b.toNat ≤ 0x5A)
    let char (i : Nat) : Byte := s.mem.read (slotAddr n + 20 + i)
    let answered (code : ResultCode) (detail : Nat) : Prop :=
      ∃ t, exec .showMessage s = .next t ∧ s.Answered t n code detail [] ∧ t = { s with mem := t.mem, port := t.port, rev := t.rev }
    (16 < length → answered .badOrder 0)
    ∧ (∀ i, length ≤ 16 → i < length → ¬ allowed (char i) → answered .badOrder 4)
    ∧ (length ≤ 16 → (∀ i, i < length → allowed (char i)) → 600 < s.bodyField n 2 2 → answered .badOrder 2)
    ∧ (length ≤ 16 → (∀ i, i < length → allowed (char i)) → s.bodyField n 2 2 ≤ 600 →
        ((s.head (saleRole d)).state ≠ .ready → answered .unavailable (0x700 + (s.head (saleRole d)).state.code))
        ∧ ((s.head (saleRole d)).state = .ready → (s.disp.lines.get d).order = none →
            let line : MessageLine := { text := s.bodyBytes n 4 length ++ List.replicate (16 - length) 0x20,
                                        order := some ⟨n, (s.takeNumber n + 1) % 65536, s.rtc⟩, duration := s.bodyField n 2 2, timer := none }
            ∃ t, exec .showMessage s = .next t ∧ s.HeldTaken t n []
              ∧ ({ s.disp with lines := s.disp.lines.set d line } : Display).Asked t.disp
                  (fun q k => k = .message ∧ s.disp.showsWith (saleRole d) q)
              ∧ t = { s with disp := t.disp, mem := t.mem, port := t.port, rev := t.rev }))

/-- R93, R98, R100, R108, R112: with the bus free and no frame in flight, the due entry of the lowest class goes on the bus, the oldest of
its class, its content formed as it is taken; with nothing due the bus stays free.
R94, R98: what the frame puts on the bus, from its address byte on.
That the entry leaves the queue as its frame starts, which sale a ZERO frame serves (the one whose grade is fixed as it is taken, and none before),
what of the bus the model shows, and, in the content, the marks byte above 999,999 cL, the board without a working copy, and the price and grade of
a cut sale whose grade was never fixed, are the model's choices (log 12, log 16, log 36, log 50, log 58, log 81). -/
def Obligations.FramesStartByClassAndAge : Prop :=
  ∀ s : State, s.steady → s.disp.rail = true → s.disp.bus = .free → s.disp.awaitHigh = false → s.disp.abandoned = false →
    s.disp.flight = none → s.disp.call = none → s.disp.step ≠ .testing → s.disp.step ≠ .blanking →
    let due (e : Entry) : Prop := e.kind ≠ .sale ∨ e.retry = true ∨ (s.head e.role).spacing = none
    ((∀ e ∈ s.disp.queue, ¬ due e) → ∃ t, exec .displayFrameStart s = .next t ∧ t = { s with rev := t.rev })
    ∧ ((∃ e ∈ s.disp.queue, due e) →
      ∃ t e f, exec .displayFrameStart s = .next t ∧ e ∈ s.disp.queue ∧ due e
        ∧ (∀ q ∈ s.disp.queue, due q → e.kind.cls < q.kind.cls ∨ (e.kind.cls = q.kind.cls ∧ e.age ≤ q.age))
        ∧ f.entry = e ∧ f.onBus = true ∧ f.dropped = false ∧ s.transfers e = f.now :: f.rest
        ∧ (∀ field, f.now = .shows field → f.bytes = s.fieldBytes e.role field
            ∧ t.disp.wire = BitVec.ofNat 8 (2 * (s.head e.role).addr) :: 0x01 :: (match field with
                                                                                  | .sale => 0x01
                                                                                  | .message => 0x02
                                                                                  | .board => 0x03) :: f.bytes)
        ∧ (f.now = .status → t.disp.wire = [BitVec.ofNat 8 (2 * (s.head e.role).addr + 1)])
        ∧ (∀ d, e.kind = .zero → e.role = saleRole d → f.serial = if (s.fp.get d).gate1 then some (s.fp.get d).saleSerial else none)
        ∧ t = { s with
            disp := { s.disp with
              flight := some f, bus := .own, wire := t.disp.wire, queue := s.disp.queue.filter (fun q => decide (q ≠ e)) }
            rev := t.rev })

/-- R15, R99, R101, R102, R108, R109: a SALE frame that completes; a ZERO frame that completes while its sale waits for a motor; a PROBE
that a head without a sale answers READY or HEATING.
R111: a MESSAGE frame that completes: where it carried the line's text, the order completes OK and the duration timer starts.
R99, R101, R104: a transfer of a REFRESH that completes, and its STATUS read: with the content check as expected the head goes on, READY or
HEATING as it reports, and otherwise it is a failed attempt.
How an entry goes back into the queue, which sale a ZERO frame serves, that the duration timer starts once, at the sale head's acknowledgement,
that the spacing timer starts after every SALE or ZERO attempt, and that it runs on over a change between READY and HEATING, are the model's choices
(log 12, log 16, log 38, log 46, log 90). -/
def Obligations.CompletedFramesAct : Prop :=
  ∀ (s : State) (f : Flight) (b check : Byte), s.steady → s.disp.flight = some f → f.onBus = true → f.dropped = false →
    s.disp.call = none → s.disp.step ≠ .probing →
    let r := f.entry.role
    let h := s.head r
    let done : Head := { h with sale := f.bytes, fails := 0, lastDone := s.rtc, stale := h.stale.map (fun _ => 2500), spacing := some 100 }
    let shown : Display := { s.disp with heads := s.disp.heads.set r done, flight := none, bus := .free, awaitHigh := false, abandoned := false }
    (f.entry.kind = .sale → f.now = .shows .sale → f.rest = [] →
      ∃ t, exec (.displayFrameComplete b check) s = .next t ∧ t = { s with disp := shown, rev := t.rev })
    ∧ (∀ d : Side, f.entry.kind = .message → f.now = .shows .message → f.rest = [] → r = saleRole d →
      let line := s.disp.lines.get d
      let hit := decide (f.bytes = line.text)
      let told := if hit then s.completeOpt line.order .ok 0 else s
      let line' : MessageLine := if hit then { line with
        order := none, timer := if line.timer = none ∧ 0 < line.duration then some (1000 * line.duration) else line.timer } else line
      ∃ t, exec (.displayFrameComplete b check) s = .next t
        ∧ t = { s with
            mem := told.mem, port := told.port, rev := t.rev
            disp := { s.disp with
              heads := s.disp.heads.set r { h with message := f.bytes, fails := 0, lastDone := s.rtc, stale := h.stale.map (fun _ => 2500) }
              lines := s.disp.lines.set d line', flight := none, bus := .free, awaitHigh := false, abandoned := false } })
    ∧ (∀ field next rest, f.now = .shows field → f.rest = next :: rest → field ≠ .message →
      ∃ t, exec (.displayFrameComplete b check) s = .next t
        ∧ t = { s with
            rev := t.rev
            disp := { s.disp with
              heads := s.disp.heads.set r (match field with
                | .sale => { h with sale := f.bytes }
                | .message => h
                | .board => { h with board := f.bytes })
              flight := some { f with now := next, rest := rest, onBus := false, bytes := [] }
              bus := .free, awaitHigh := false, abandoned := false } })
    ∧ (∀ st : HeadState, f.entry.kind = .refresh → f.now = .status → (h.state = st ∨ (r ≠ .saleA ∧ r ≠ .saleB)) → (b = 1 ∧ st = .ready) ∨ (b = 2 ∧ st = .heating) →
      let agrees := decide (check.toNat = ((h.sale ++ h.message ++ h.board).map BitVec.toNat).sum % 256)
      agrees = true ∨ h.fails < 2 →
      let kept := s.disp.queue.filter (fun q => !(decide (q.role = r) && decide (q.kind = .refresh)))
      ∃ t, exec (.displayFrameComplete b check) s = .next t
        ∧ t = { s with
            rev := t.rev
            port := { s.port with attn := s.port.attn ||| flagsOf (if st = h.state then [] else [.display]) }
            disp := { s.disp with
              heads := s.disp.heads.set r (if agrees then
                  { h with state := st, fails := 0, lastDone := s.rtc, stale := h.stale.map (fun _ => 2500) }
                else { h with state := st, fails := h.fails + 1, reason := some .check })
              queue := if agrees then s.disp.queue else kept ++ [{ f.entry with retry := true }]
              flight := none, bus := .free, awaitHigh := false, abandoned := false } })
    ∧ (∀ d : Side, f.entry.kind = .zero → f.now = .shows .sale → f.rest = [] → r = saleRole d → s.fpState d = .starting →
      f.serial = some (s.fp.get d).saleSerial → s.pw.state = .active → (s.sale d).grade.isSome = true →
      s.runningAll (s.sale d).drawn = false →
      ∃ t, exec (.displayFrameComplete b check) s = .next t
        ∧ t = { s with disp := shown, fp := s.fp.set d { s.fp.get d with gate2 := true, gate3 := false }, rev := t.rev })
    ∧ (∀ st : HeadState, f.entry.kind = .probe → f.now = .status → r ≠ .saleA → r ≠ .saleB → (h.state = .probing ∨ h.state = .failed) →
      (b = 1 ∧ st = .ready) ∨ (b = 2 ∧ st = .heating) →
      let up : Head := { h with state := st, fails := 0, lastDone := s.rtc, refresh := some 1000, probe := none, spacing := none, stale := none }
      let asked := s.disp.queued r .refresh
      let kept := s.disp.queue.filter (fun e => !(decide (e.role = r) && decide (e.kind = .probe)))
      ∃ t, exec (.displayFrameComplete b check) s = .next t
        ∧ t.disp = { s.disp with
            heads := s.disp.heads.set r up, flight := none, bus := .free, awaitHigh := false, abandoned := false
            queue := if asked then kept else kept ++ [⟨r, .refresh, s.disp.nextAge, false⟩]
            nextAge := if asked then s.disp.nextAge else s.disp.nextAge + 1 }
        ∧ t.port = { s.port with attn := s.port.attn ||| flagsOf [.display] }
        ∧ t = { s with disp := t.disp, port := t.port, rev := t.rev })

/-- R94, R95, R96, R101, R102: a frame that is not acknowledged or held by the clock line counts as a failed attempt and is retried; one
that loses arbitration goes back uncounted; the third failed attempt of a head without a sale makes it FAILED and drops its entries.
How an entry goes back into the queue, and the spacing after a failed attempt, are the model's choices (log 12, log 46). -/
def Obligations.FailedAttemptsAreRetried : Prop :=
  ∀ (s : State) (f : Flight), s.steady → s.disp.flight = some f → f.onBus = true → f.dropped = false → s.disp.call = none →
    s.disp.step ≠ .probing →
    let e := f.entry
    let h := s.head e.role
    let spaced := if e.kind = .sale ∨ e.kind = .zero then some 100 else h.spacing
    let back (e : Entry) : List Entry := s.disp.queue.filter (fun q => !(decide (q.role = e.role) && decide (q.kind = e.kind))) ++ [e]
    let failed (why : FailReason) : Display := { s.disp with
      heads := s.disp.heads.set e.role { h with fails := h.fails + 1, reason := some why, spacing := spaced }
      queue := back { e with retry := true }, flight := none }
    (e.kind ≠ .probe → h.fails < 2 →
      (∃ t, exec .displayFrameNack s = .next t
        ∧ t = { s with disp := { failed .noAck with bus := .free, awaitHigh := false, abandoned := false }, rev := t.rev })
      ∧ ∃ t, exec .clockStretchTimeout s = .next t
        ∧ t = { s with disp := { failed .stretch with bus := .own, abandoned := true }, rev := t.rev })
    ∧ (∃ t, exec .arbitrationLost s = .next t
        ∧ t = { s with disp := { s.disp with queue := back e, flight := none, bus := .other }, rev := t.rev })
    ∧ (e.kind ≠ .probe → h.fails = 2 → h.state.shows = true → e.role ≠ .saleA → e.role ≠ .saleB →
      ∃ t, exec .displayFrameNack s = .next t
        ∧ t.disp = { s.disp with
            heads := s.disp.heads.set e.role { h with state := .failed, fails := 3, reason := some .noAck, refresh := none, stale := none,
                                                      spacing := none, probe := some 2000 }
            queue := s.disp.queue.filter (fun q => decide (q.role ≠ e.role)), flight := none
            bus := .free, awaitHigh := false, abandoned := false }
        ∧ t.port = { s.port with attn := s.port.attn ||| flagsOf [.display] }
        ∧ t = { s with disp := t.disp, port := t.port, rev := t.rev })

/-- R21, R101, R105, R106: a sale head that becomes FAILED, by its third failed attempt or by its stale deadline, ends its side's sale with
DISPLAY_FAIL. R1, R3, R4, R12: where the side has no sale it loses a prerequisite: from IDLE, CALLING, FINISHED and AUTHORIZED it becomes
UNAVAILABLE, an authorization being withdrawn.
How the marks of a passed overrun limit follow the base, and that the last-end record of the withdrawn authorization gives the number 0, are the
model's choices (log 17, log 72). -/
def Obligations.AFailedSaleHeadEndsTheSale : Prop :=
  ∀ (s : State) (d : Side) (c : Instr) (why : FailReason), s.steady → (s.disp.lines.get d).order = none →
    s.disp.step ≠ .probing → (s.head (saleRole d)).state = .ready →
    ((c = .staleDeadlineExpiry d ∧ why = .stale ∧ (s.head (saleRole d)).stale.isSome = true)
      ∨ (c = .displayFrameNack ∧ why = .noAck ∧ (s.head (saleRole d)).fails = 2 ∧ s.disp.call = none
          ∧ ∃ f, s.disp.flight = some f ∧ f.onBus = true ∧ f.dropped = false ∧ f.entry.role = saleRole d ∧ f.entry.kind ≠ .probe)) →
    let down (t : State) : Prop := exec c s = .next t
      ∧ (t.head (saleRole d)).state = .failed ∧ (t.head (saleRole d)).reason = some why ∧ (t.head (saleRole d)).probe = some 2000
      ∧ (∀ e ∈ t.disp.queue, e.role ≠ saleRole d) ∧ (∀ q, q ≠ saleRole d → t.head q = s.head q)
      ∧ t.port = { s.port with attn := s.port.attn ||| flagsOf [.display, fpFlag d] }
    ((s.fpState d).endable = true →
      ∃ t, down t ∧ s.SaleEnds t d (s.fp.get d) .displayFail
        ∧ t = { s with fp := t.fp, ret := t.ret, vlv := t.vlv, mot := t.mot, met := t.met, disp := t.disp, port := t.port, rev := t.rev })
    ∧ (s.fpState d = .idle ∨ s.fpState d = .calling ∨ s.fpState d = .finished ∨ s.fpState d = .authorized →
      ∃ t, down t
        ∧ t.fp = s.fp.set d (if s.fpState d = .authorized then { (s.fp.get d).withdrawn s.rtc with state := .unavailable }
            else { s.fp.get d with state := .unavailable })
        ∧ (∀ p, t.meter ⟨d, p⟩ = (s.meter ⟨d, p⟩).under .unassigned) ∧ t.met.get d.other = s.met.get d.other
        ∧ t = { s with fp := t.fp, met := t.met, disp := t.disp, port := t.port, rev := t.rev })

/-- R93, R95, R97: how the bus becomes busy, stuck and free, no general call waiting.
What the status shows while both lines are awaited is the model's choice (log 15). -/
def Obligations.TheBusIsWatched : Prop :=
  ∀ s : State, s.steady → s.disp.call = none →
    let x := s.disp
    let free : Display := { x with bus := .free, awaitHigh := false, abandoned := false }
    let becomes (c : Instr) (y : Display) : Prop := ∃ t, exec c s = .next t ∧ t = { s with disp := y, rev := t.rev }
    (x.rail = true → x.bus = .free ∨ x.awaitHigh = true → becomes .busStart { x with bus := .other })
    ∧ (x.rail = true → x.bus = .other → becomes .busStop free)
    ∧ (x.rail = true → x.flight = none → x.abandoned = false → x.bus ≠ .clear ∨ x.awaitHigh = true →
        becomes .busStuckTimeout { x with bus := .clear, awaitHigh := false, clears := (x.clears + 1) % 65536 })
    ∧ (x.bus = .clear → x.awaitHigh = false →
        becomes (.busClearDone true) free ∧ becomes (.busClearDone false) { x with awaitHigh := true })
    ∧ (x.rail = true → x.awaitHigh = true → x.bus ≠ .other → becomes .bothLinesHigh free)
    ∧ (x.abandoned = true → becomes .abandonedFrameStop free)

/-- R91, R98, R99, R105, R112: the DISPLAY phase of a wake up to the segment test's end: the map is read and each configured head is probed,
the TEST is sent, and the BLANK is asked for.
That a general call starts by itself, and how its bytes are seen, are the model's choices (log 14, log 36). -/
def Obligations.TheDisplayPhaseProbesAndTests : Prop :=
  ∀ s : State, s.steady → s.pw.state = .waking →
    (s.disp.settle.isSome = true → s.disp.step = .settling → (∀ r, (s.head r).state = .absent) → s.disp.queue = [] → s.disp.flight = none →
      (∀ d, s.fpState d = .unavailable ∨ s.fpState d = .locked) → (∃ r, s.mapConfigures r = true) →
      ∃ t, exec .displaySettleEnd s = .next t
        ∧ (∀ r, t.head r = if s.mapConfigures r = true then
              { Head.unconfigured (s.head r).lastDone with addr := (s.mapEntry r).1, source := (s.mapEntry r).2, state := .probing }
            else s.head r)
        ∧ (∀ r k, t.disp.queued r k = (s.mapConfigures r && decide (k = .probe)))
        ∧ t.disp = { s.disp with heads := t.disp.heads, queue := t.disp.queue, nextAge := t.disp.nextAge, settle := none, step := .probing }
        ∧ t.port = { s.port with attn := s.port.attn ||| flagsOf [.display] }
        ∧ t = { s with disp := t.disp, port := t.port, rev := t.rev })
    ∧ (s.disp.step = .probing → s.disp.call = some ⟨.test, true⟩ →
      ∃ t, exec .generalCallComplete s = .next t
        ∧ t = { s with
            disp := { s.disp with
              call := none, bus := .free, awaitHigh := false, abandoned := false, segTest := some 2000, step := .testing
              heads := Eight.ofFun (fun r => { s.head r with stale := none }) }
            rev := t.rev })
    ∧ (s.disp.step = .testing → s.disp.segTest.isSome = true → s.disp.bus = .free → s.disp.awaitHigh = false → s.disp.abandoned = false →
      s.disp.flight = none →
      ∃ t, exec .segmentTestEnd s = .next t
        ∧ t = { s with
            disp := { s.disp with segTest := none, step := .blanking, call := some ⟨.blank, true⟩, bus := .own, wire := [0x00, 0x03] }
            rev := t.rev })

/-- R66, R105, R112, R118, R158: the BLANK of a wake has been sent, no reader is fitted, no trip input asserted, no motor demanded and no
halt code held: the outputs are enabled and the device is ACTIVE. R151, R193: POWER is set, and FP_A, FP_B and CALL as the sides become ready.
R55, R76, R99, R113: the BLANK of a shutdown has been sent: the heads are parked, the rail is off and the outputs are disabled.
R99, R105: a BLANK that outlasts its wake or shutdown has been sent in POWER_FAIL: every field is nothing, and a stale deadline that the segment
test had stopped runs again.
That a general call starts by itself, that such a BLANK is sent to its end, and when those deadlines run again, are the model's choices (log 14,
log 18, log 78). -/
def Obligations.TheBlankEndsTheWakeOrTheShutdown : Prop :=
  (∀ s : State, s.steady → s.pw.state = .waking → s.disp.step = .blanking → s.disp.call = some ⟨.blank, true⟩ → s.halt.held = none →
    (∀ d, s.readerFitted d = false) → (∀ m, (s.motor m).trip = false ∧ (s.motor m).demand = ⟨false, false⟩) →
    (∀ d, s.fpState d = .unavailable ∨ s.fpState d = .locked) →
    ∃ t, exec .generalCallComplete s = .next t
      ∧ t.pw = { s.pw with state := .active, phase := .none, drives := true, devReset := false }
      ∧ (∀ d, t.rdr.get d = { s.rdr.get d with fitted := false, cycles := 0 })
      ∧ (∀ r, t.head r = { s.head r with
            sale := [], message := [], board := []
            stale := if (r = .saleA ∨ r = .saleB) ∧ (s.head r).state.shows = true then some 2500 else (s.head r).stale })
      ∧ (∀ r, (s.head r).state.shows = true → t.disp.queued r .refresh = true) ∧ s.disp.queue <+: t.disp.queue
      ∧ t.disp = { s.disp with heads := t.disp.heads, queue := t.disp.queue, nextAge := t.disp.nextAge, call := none, bus := .free,
                               awaitHigh := false, abandoned := false, step := .idle }
      ∧ (∀ d, t.fp.get d = { s.fp.get d with
            state := if s.fpState d = .unavailable ∧ (s.head (saleRole d)).state = .ready ∧ s.meets d .metrology = true
                        ∧ s.meets d .noPrices = true then (s.fp.get d).readyState else s.fpState d })
      ∧ t.port = { s.port with attn := s.port.attn ||| flagsOf (.power :: s.changeFlags t) }
      ∧ t = { s with pw := t.pw, fp := t.fp, met := t.met, disp := t.disp, rdr := t.rdr, port := t.port, rev := t.rev })
  ∧ (∀ s : State, s.steady → s.pw.state = .shuttingDown → s.disp.call = some ⟨.blank, true⟩ →
    ∃ t, exec .generalCallComplete s = .next t
      ∧ t.pw = { s.pw with blanked := true, drives := false }
      ∧ t.disp = { s.disp with
          queue := [], flight := none, call := none, bus := .free, awaitHigh := false, abandoned := false, rail := false
          settle := none, segTest := none, step := .idle
          heads := Eight.ofFun (fun r => { s.head r with
            state := if (s.head r).state = .absent then .absent else .probing, sale := [], message := [], board := []
            refresh := none, probe := none, stale := none, spacing := none }) }
      ∧ (∀ v, t.valve v = ⟨.closed, 0, 0, 0⟩) ∧ (∀ d, (t.vlv.get d).slow = false)
      ∧ (∀ m, t.motor m = if (s.motor m).state = .fault then s.motor m else { s.motor m with state := .off, timer := none })
      ∧ t.mot.queue = []
      ∧ (∀ r, (s.head r).state ≠ .absent → (s.head r).state ≠ .probing → t.port = { s.port with attn := s.port.attn ||| flagsOf [.display] })
      ∧ ((∀ r, (s.head r).state = .absent ∨ (s.head r).state = .probing) → t.port = s.port)
      ∧ t = { s with pw := t.pw, vlv := t.vlv, mot := t.mot, disp := t.disp, port := t.port, rev := t.rev })
  ∧ (∀ s : State, s.steady → s.pw.state = .powerFail → s.disp.call = some ⟨.blank, true⟩ →
    ∃ t, exec .generalCallComplete s = .next t
      ∧ t = { s with
          disp := { s.disp with
            call := none, bus := .free, awaitHigh := false, abandoned := false
            heads := Eight.ofFun (fun r => { s.head r with
              sale := [], message := [], board := []
              stale := if (r = .saleA ∨ r = .saleB) ∧ (s.head r).state.shows = true ∧ (s.head r).stale = none then some 2500
                else (s.head r).stale }) }
          rev := t.rev })

/-- R103, R104, R108, R111: the timers of the heads and of the message lines. -/
def Obligations.HeadTimersAskForFrames : Prop :=
  ∀ s : State, s.steady →
    (∀ r, (s.head r).refresh.isSome = true →
      ∃ t, exec (.refreshTimerExpiry r) s = .next t
        ∧ ({ s.disp with heads := s.disp.heads.set r { s.head r with refresh := some 1000 } } : Display).Asked t.disp
            (fun q k => q = r ∧ k = .refresh)
        ∧ t = { s with disp := t.disp, rev := t.rev })
    ∧ (∀ r, (s.head r).probe.isSome = true → (s.head r).state = .failed →
      ∃ t, exec (.probeTimerExpiry r) s = .next t
        ∧ t.disp = { s.disp with
            heads := s.disp.heads.set r { s.head r with probe := some 2000 }
            queue := if s.disp.queued r .probe then s.disp.queue else s.disp.queue ++ [⟨r, .probe, s.disp.nextAge, false⟩]
            nextAge := if s.disp.queued r .probe then s.disp.nextAge else s.disp.nextAge + 1 }
        ∧ t = { s with disp := t.disp, rev := t.rev })
    ∧ (∀ d, (s.disp.lines.get d).timer.isSome = true →
      ∃ t, exec (.messageDurationExpiry d) s = .next t
        ∧ ({ s.disp with lines := s.disp.lines.set d ⟨List.replicate 16 0x20, none, 0, none⟩ } : Display).Asked t.disp
            (fun q k => k = .message ∧ s.disp.showsWith (saleRole d) q)
        ∧ t = { s with disp := t.disp, rev := t.rev })
    ∧ (∀ r, ∃ t, exec (.saleSpacingExpiry r) s = .next t
        ∧ t = { s with disp := { s.disp with heads := s.disp.heads.set r { s.head r with spacing := none } }, rev := t.rev })

/-! ## Card readers -/

/-- R119, R129, R136: READER_SEND and READER_RESTART, their tests in their order and what they do.
Whether the tamper input of a TAMPERED reader that is restarted reads asserted afresh is a free value (log 54). -/
def Obligations.ReaderOrdersFollowTheState : Prop :=
  ∀ (s : State) (n : Nat) (d : Side),
    let r := s.rdr.get d
    let answered (c : Instr) (code : ResultCode) (detail : Nat) : Prop :=
      ∃ t, exec c s = .next t ∧ s.Answered t n code detail [] ∧ t = { s with mem := t.mem, port := t.port, rev := t.rev }
    let length := s.bodyField n 0 1
    (s.Offers .readerSend n (sideCode d) →
      (length = 0 ∨ 64 < length → answered .readerSend .badOrder 0)
      ∧ (1 ≤ length → length ≤ 64 → r.state ≠ .warming → r.state ≠ .ready →
          answered .readerSend .readerDown (0x600 + r.state.code + 0x10000 * (match r.cause with
                                                                              | some c => c.code
                                                                              | none => 0)))
      ∧ (1 ≤ length → length ≤ 64 → (r.state = .warming ∨ r.state = .ready) →
          (16 ≤ r.sends.length → answered .readerSend .unavailable 0x113)
          ∧ (r.sends.length < 16 →
              ∃ t, exec .readerSend s = .next t ∧ s.HeldTaken t n []
                ∧ t.rdr = s.rdr.set d { r with sends := r.sends ++
                    [⟨⟨n, (s.takeNumber n + 1) % 65536, s.rtc⟩, s.bodyBytes n 4 length, 0, 0⟩] }
                ∧ t = { s with rdr := t.rdr, mem := t.mem, port := t.port, rev := t.rev })))
    ∧ (s.Offers .readerRestart n (sideCode d) →
      (r.state = .warming ∨ r.state = .ready ∨ r.state = .lost → answered .readerRestart .wrongState (0x600 + r.state.code))
      ∧ (r.state = .off → r.fitted = false → answered .readerRestart .unavailable 0x10D)
      ∧ ((r.state = .tampered ∧ r.tamperReleased = false) ∨ (r.state = .supplyFault ∧ r.supplyReleased = false) →
          answered .readerRestart .causePresent 0)
      ∧ (r.state = .tampered → r.tamperReleased = true → r.fitted = true → Config.tamperAfresh s.free d = true →
          ∃ t, exec .readerRestart s = .next t ∧ s.Answered t n .ok 0 []
            ∧ t = { s with free := t.free, rdr := s.rdr.set d { r with cycles := 0, tamperReleased := false }, mem := t.mem, port := t.port,
                           rev := t.rev })
      ∧ (r.state = .failed ∨ (r.state = .tampered ∧ r.tamperReleased = true ∧ Config.tamperAfresh s.free d = false)
            ∨ (r.state = .supplyFault ∧ r.supplyReleased = true) →
          r.fitted = true → r.tamper = false →
          ∃ t, exec .readerRestart s = .next t ∧ s.Answered t n .ok 0 [readerFlag d]
            ∧ t.rdr = s.rdr.set d { r with
                state := .warming, changed := s.rtc, cycles := 0, miss := 0, warmUp := some 10000, poll := some 20, powerOff := none
                acceptNext := false, waitHold := false }
            ∧ t = { s with free := t.free, rdr := t.rdr, mem := t.mem, port := t.port, rev := t.rev }))

/-- R122, R123, R124: what a reader link unit sends at a poll timer expiry, that it holds a frame while a reply is awaited, and the start
of the wait for a reply. R121: the bytes of the frame, from its marker to its CRC.
How those bytes are seen is the model's field (log 36). -/
def Obligations.PollsSendTheChosenFrame : Prop :=
  ∀ (s : State) (d : Side), s.steady →
    let r := s.rdr.get d
    let becomes (c : Instr) (q : Reader) : Prop := ∃ t, exec c s = .next t ∧ t = { s with rdr := s.rdr.set d q, rev := t.rev }
    let sent (kind : LinkKind) (payload : List Byte) : Reader :=
      let covered : List Byte := (match kind with
          | .ask => 0x01
          | .stay => 0x02
          | .give => 0x03) :: (if r.acceptNext then 0x01 else 0x00) :: BitVec.ofNat 8 payload.length :: payload
      { r with frame := some ⟨kind, r.acceptNext, payload, 0x7E :: (covered ++ bytesBE 2 (crc16 covered).toNat)⟩, link := .sending
               held := false, waitHold := false, acceptNext := false, poll := some 20, response := none }
    ((r.state = .warming ∨ r.state = .ready) → r.poll.isSome = true →
      (r.link ≠ .idle → becomes (.readerPollExpiry d) { r with poll := none, held := true })
      ∧ (∀ o rest, r.link = .idle → r.state = .ready → r.sends = o :: rest → r.waitHold = false →
          becomes (.readerPollExpiry d) { sent .give o.payload with sends := { o with gives := o.gives + 1 } :: rest })
      ∧ (r.link = .idle → r.state = .ready → (r.sends = [] ∨ r.waitHold = true) → (∃ c ∈ r.cells, c.stateWord = 0) →
          becomes (.readerPollExpiry d) (sent .ask []))
      ∧ (r.link = .idle → r.state = .warming ∨ ((r.sends = [] ∨ r.waitHold = true) ∧ ∀ c ∈ r.cells, c.stateWord ≠ 0) →
          becomes (.readerPollExpiry d) (sent .stay [])))
    ∧ (r.link = .sending → becomes (.readerFrameEnd d) { r with link := .awaiting, response := some 50 })

/-- R121, R122, R125, R127, R131, R132: a reply while it is awaited, no frame being held, with bytes before its marker and after its CRC: a TAKE
fills the lowest-numbered FREE cell, a GOT completes the order at the head of the send list, a ready mark makes a WARMING reader READY, its
absence makes a READY reader WARMING and withdraws an authorization of origin READER (R12, R137), a frame that is not valid is a miss, and one
whose length is above 64 is never whole.
That bytes which hold no whole reply have no effect, and that the last-end record of the withdrawn authorization gives the number 0, are the
model's choices (log 61, log 72). -/
def Obligations.RepliesAreTaken : Prop :=
  ∀ (s : State) (d : Side) (f : LinkFrame) (flags : Byte) (payload noise tail : List Byte), s.steady → (s.rdr.get d).link = .awaiting →
    (s.rdr.get d).frame = some f → (s.rdr.get d).held = false → payload.length ≤ 64 → 0x7E ∉ noise →
    let r := s.rdr.get d
    let ended (q : Reader) : Reader := { q with link := .idle, response := none, frame := none }
    let check (kind : Byte) : Word16 := crc16 (kind :: flags :: BitVec.ofNat 8 payload.length :: payload)
    let reply (kind : Byte) (crc : Word16) : Instr :=
      .readerReply d noise kind flags (BitVec.ofNat 8 payload.length :: (payload ++ bytesBE 2 crc.toNat ++ tail))
    (∀ before c after, f.kind = .ask → r.state = .ready → flags.toNat % 2 = 1 → 1 ≤ payload.length → r.cells = before ++ c :: after →
      (∀ x ∈ before, x.stateWord ≠ 0) → c.stateWord = 0 →
      ∃ t, exec (reply 0x82 (check 0x82)) s = .next t
        ∧ t.rdr = s.rdr.set d (ended { r with
            miss := 0, acceptNext := true, nextMail := if r.nextMail = 255 then 1 else r.nextMail + 1
            cells := before ++ ⟨(c.rev + 2) % 65536, 1, r.nextMail, payload.length, payload⟩ :: after })
        ∧ t.port = { s.port with attn := s.port.attn ||| flagsOf [mailFlag d] }
        ∧ t = { s with rdr := t.rdr, port := t.port, rev := t.rev })
    ∧ (∀ o rest, f.kind = .give → r.state = .ready → flags.toNat % 2 = 1 → payload = [] → r.sends = o :: rest →
      ∃ t, exec (reply 0x83 (check 0x83)) s = .next t
        ∧ t.rdr = s.rdr.set d (ended { r with miss := 0, sends := rest })
        ∧ t.mem = (s.complete o.ref .ok o.gives).mem ∧ t.port = (s.complete o.ref .ok o.gives).port
        ∧ t = { s with rdr := t.rdr, mem := t.mem, port := t.port, rev := t.rev })
    ∧ (r.state = .warming → flags.toNat % 2 = 1 → payload = [] →
      ∃ t, exec (reply 0x81 (check 0x81)) s = .next t
        ∧ t.rdr = s.rdr.set d (ended { r with state := .ready, changed := s.rtc, warmUp := none, miss := 0, cycles := 0 })
        ∧ t.port = { s.port with attn := s.port.attn ||| flagsOf [readerFlag d] }
        ∧ t = { s with rdr := t.rdr, port := t.port, rev := t.rev })
    ∧ (r.state = .ready → flags.toNat % 2 = 0 → payload = [] →
      ∃ t, exec (reply 0x81 (check 0x81)) s = .next t
        ∧ t.rdr = s.rdr.set d (ended { r with state := .warming, changed := s.rtc, warmUp := some 10000, miss := 0, cycles := 0 })
        ∧ t.port = { s.port with attn := s.port.attn ||| flagsOf (readerFlag d :: s.leaveFlags d) } ∧ s.ReaderLeaves t d
        ∧ t = { s with rdr := t.rdr, fp := t.fp, met := t.met, port := t.port, rev := t.rev })
    ∧ (∀ kind crc, crc ≠ check kind → r.state = .ready → r.miss < 2 →
      ∃ t, exec (reply kind crc) s = .next t
        ∧ t = { s with rdr := s.rdr.set d (ended { r with miss := r.miss + 1 }), rev := t.rev })
    ∧ (∀ kind length : Byte, 64 < length.toNat →
      ∃ t, exec (.readerReply d noise kind flags (length :: tail)) s = .next t ∧ t = { s with rev := t.rev })

/-- R120, R122, R131, R132, R133: misses and the timers of a reader. Where its supply goes off, the orders of its send list complete READER_DOWN,
head first, and its mail cells are cleared. R12, R137: an authorization of origin READER is withdrawn as the reader leaves READY.
That its last-end record gives the number 0 is the model's choice (log 72). -/
def Obligations.ReadersAreLostAndRepowered : Prop :=
  ∀ (s : State) (d : Side), s.steady →
    let r := s.rdr.get d
    let off (q : Reader) (c : OffCause) (st : ReaderState) : Reader :=
      { q with
        state := st, changed := s.rtc, cause := some c, poll := none, response := none, warmUp := none, waitHold := false
        acceptNext := false, link := .idle, frame := none, held := false
        sends := [], cells := q.cells.map (fun x => ⟨(x.rev + 2) % 65536, 0, 0, 0, []⟩) }
    let changes (c : Instr) (q : Reader) : Prop :=
      ∃ t, exec c s = .next t
        ∧ t = { s with rdr := s.rdr.set d q, port := { s.port with attn := s.port.attn ||| flagsOf [readerFlag d] }, rev := t.rev }
    let cut (c : Instr) (why : OffCause) (q : Reader) : Prop :=
      let u := s.sendsDropped d why
      ∃ t, exec c s = .next t ∧ t.rdr = s.rdr.set d q ∧ s.ReaderLeaves t d
        ∧ t.port = { u.port with attn := u.port.attn ||| flagsOf (readerFlag d :: s.leaveFlags d) }
        ∧ t = { s with rdr := t.rdr, fp := t.fp, met := t.met, mem := u.mem, port := t.port, rev := t.rev }
    (r.link = .awaiting → r.state = .ready → r.held = false →
      (r.miss < 2 → ∃ t, exec (.readerResponseTimeout d) s = .next t
        ∧ t = { s with rdr := s.rdr.set d { r with miss := r.miss + 1, link := .idle, response := none, frame := none }, rev := t.rev })
      ∧ (r.miss = 2 → cut (.readerResponseTimeout d) .misses { off { r with miss := 3 } .misses .lost with powerOff := some 500 }))
    ∧ (r.state = .warming → r.warmUp.isSome = true →
      (r.cycles < 2 → cut (.warmUpExpiry d) .warmUpLimit { off r .warmUpLimit .lost with powerOff := some 500 })
      ∧ (2 ≤ r.cycles → cut (.warmUpExpiry d) .warmUpLimit (off r .warmUpLimit .failed)))
    ∧ (r.state = .lost → r.powerOff.isSome = true →
      changes (.powerOffTimerExpiry d) { r with
        state := .warming, changed := s.rtc, cycles := r.cycles + 1, miss := 0, warmUp := some 10000, poll := some 20
        powerOff := none, acceptNext := false, waitHold := false })

/-- R12, R120, R134, R135, R137: the tamper and overcurrent inputs of a reader: their effect on the reader, on the orders of its send list, which
complete READER_DOWN, head first, where the supply goes off, on a sale of origin READER, and on an authorization of origin READER, which is
withdrawn as the reader leaves READY. That its last-end record gives the number 0 is the model's choice (log 72), and how the marks of a passed
overrun limit follow the base of the sale that ends is its reading (log 17). -/
def Obligations.ReaderInputsCutTheSupply : Prop :=
  ∀ (s : State) (d : Side), s.steady →
    let r := s.rdr.get d
    let off (q : Reader) (c : OffCause) (st : ReaderState) : Reader :=
      { q with
        state := st, changed := s.rtc, cause := some c, poll := none, response := none, warmUp := none, waitHold := false
        acceptNext := false, link := .idle, frame := none, held := false
        sends := [], cells := q.cells.map (fun x => ⟨(x.rev + 2) % 65536, 0, 0, 0, []⟩) }
    let becomes (c : Instr) (q : Reader) : Prop := ∃ t, exec c s = .next t ∧ t = { s with rdr := s.rdr.set d q, rev := t.rev }
    let changes (c : Instr) (q : Reader) : Prop :=
      ∃ t, exec c s = .next t
        ∧ t = { s with rdr := s.rdr.set d q, port := { s.port with attn := s.port.attn ||| flagsOf [readerFlag d] }, rev := t.rev }
    let cut (c : Instr) (why : OffCause) (q : Reader) : Prop :=
      let u := s.sendsDropped d why
      ∃ t, exec c s = .next t ∧ t.rdr = s.rdr.set d q ∧ s.ReaderLeaves t d
        ∧ t.port = { u.port with attn := u.port.attn ||| flagsOf (readerFlag d :: s.leaveFlags d) }
        ∧ t = { s with rdr := t.rdr, fp := t.fp, met := t.met, mem := u.mem, port := t.port, rev := t.rev }
    let marked : Reader := { r with tamper := true, tamperReleased := false }
    let readerSale : Prop := (s.fpState d).endable = true ∧ (s.sale d).origin = .reader
    (r.state = .off ∨ r.state = .tampered → becomes (.tamperAssert d) marked)
    ∧ (¬ readerSale → (r.state = .warming ∨ r.state = .ready) → cut (.tamperAssert d) .tamper (off marked .tamper .tampered))
    ∧ (¬ readerSale → (r.state = .lost ∨ r.state = .failed ∨ r.state = .supplyFault) →
        changes (.tamperAssert d) { marked with state := .tampered, changed := s.rtc, cause := some .tamper, powerOff := none })
    ∧ (readerSale → (r.state = .warming ∨ r.state = .ready) →
        ∃ t, exec (.tamperAssert d) s = .next t ∧ s.SaleEnds t d (s.fp.get d) .readerTamper
          ∧ t.rdr = s.rdr.set d (off marked .tamper .tampered) ∧ t.mem = (s.sendsDropped d .tamper).mem
          ∧ t.port = { (s.sendsDropped d .tamper).port with
                attn := (s.sendsDropped d .tamper).port.attn ||| flagsOf [readerFlag d, fpFlag d] }
          ∧ t = { s with fp := t.fp, ret := t.ret, vlv := t.vlv, mot := t.mot, met := t.met, rdr := t.rdr, mem := t.mem, port := t.port,
                         rev := t.rev })
    ∧ becomes (.tamperRelease d) { r with tamper := false, tamperReleased := true }
    ∧ (r.state = .warming ∨ r.state = .ready →
        cut (.overcurrent d) .overcurrent (off { r with overcurrent := true, supplyReleased := false } .overcurrent .supplyFault))
    ∧ becomes (.supplyFaultRelease d) { r with overcurrent := false, supplyReleased := true }

/-! ## The metrology store and log -/

/-- R180, R196: an entry added to a log with room stands in the next place, is counted, and advances the next event number; the pad byte beside
the count is written 0, and every other byte of the image stands. -/
def Obligations.AnEntryIsAddedInTheNextPlace : Prop :=
  ∀ (m : Memory) (e : LogEntry), m.wf = true → logCount m < 32 → e.event < 2 ^ 32 → e.kind < 256 → e.param < 256 → e.old < 2 ^ 64 →
    e.new < 2 ^ 64 → e.oldCheck < 65536 → e.newCheck < 65536 → e.time < 2 ^ 32 →
    logCount (addEntry m e) = logCount m + 1 ∧ nextEvent (addEntry m e) = e.event + 1 ∧ logEntryAt (addEntry m e) (logCount m) = e
      ∧ (addEntry m e).wf = true
      ∧ (addEntry m e).read 185 = 0
      ∧ ∀ a, (a < 184 ∨ 194 ≤ a) → (a < 194 + 30 * logCount m ∨ 194 + 30 * (logCount m + 1) ≤ a) → (addEntry m e).read a = m.read a

/-- R38, R176, R177, R179, R180, R181: CALIBRATE with its body in range, and CLEAR_LOG, every test passed: the working copy, the log and the list
at the take, the start of the order's own write on an empty list, and the meter's new calibration.
Where a part's pages begin, that a next event number of 0 reads as 1, and that CLEAR_LOG records a count byte above 32 as it stands, are the
model's choices (log 10, log 28, log 69). -/
def Obligations.CalibrateAndClearLogTakeEffect : Prop :=
  ∀ (s : State) (n : Nat), s.store.image.wf = true →
    let image := s.store.image
    let f (off len : Nat) : Nat := s.bodyField n off len
    (∀ m : Meter, s.Offers .calibrate n (meterCode m) → s.storeOpen false → s.inSale m.side = false →
      200000 ≤ f 0 4 → f 0 4 ≤ 2000000 → 1 ≤ f 4 2 → f 4 2 < f 6 2 → f 6 2 < f 8 2 → f 8 2 ≤ 2000 →
      (∀ i, i < 4 → -20000 ≤ signedOf 16 (f (10 + 2 * i) 2) ∧ signedOf 16 (f (10 + 2 * i) 2) ≤ 20000) →
      let new := image.writeAll (meterAddr m) (s.bodyBytes n 0 18 ++ [0, 0])
      ∃ t, exec .calibrate s = .next t ∧ s.HeldTaken t n (if t.store.logFull && !s.store.logFull then [.metrology] else [])
        ∧ s.StoreTakes t n new (.meter m) false
            { event := nextEvent image, kind := 1, param := meterCode m, old := image.field (meterAddr m) 4, new := f 0 4
              oldCheck := blockCheck image (.meter m), newCheck := blockCheck new (.meter m), time := s.rtc.toNat }
        ∧ t.meter m = { s.meter m with
            k := f 0 4, unAcc := 0, unV := 0
            cal := some { b1 := f 4 2, b2 := f 6 2, b3 := f 8 2, c1 := signedOf 16 (f 10 2), c2 := signedOf 16 (f 12 2)
                          c3 := signedOf 16 (f 14 2), c4 := signedOf 16 (f 16 2) } }
        ∧ (∀ x, x ≠ m → t.meter x = s.meter x)
        ∧ t = { s with met := t.met, store := t.store, mem := t.mem, port := t.port, rev := t.rev })
    ∧ (s.Offers .clearLog n 0 → s.storeOpen true →
      ∃ t, exec .clearLog s = .next t ∧ s.HeldTaken t n []
        ∧ s.StoreTakes t n ((image.writeAll 184 [0]).writeAll 194 (List.replicate 960 0)) .none true
            { event := nextEvent image, kind := 4, param := 0x82, old := logCount image, new := 0, oldCheck := 0, newCheck := 0
              time := s.rtc.toNat }
        ∧ t.store.logFull = false
        ∧ t = { s with store := t.store, mem := t.mem, port := t.port, rev := t.rev })

/-- R176, R178, R180, R181: SET_SETTINGS with its body in range and every test passed, no reader holding an order and no message in flight.
Where a part's pages begin, which bits of the fitted flags count, what counts as a field in the log entry's new value, and that a next event number
of 0 reads as 1, are the model's choices (log 10, log 22, log 26, log 28). The flags are stated where no reader's loss withdraws an authorization in
the same event. -/
def Obligations.SetSettingsReplacesTheBlock : Prop :=
  ∀ (s : State) (n : Nat), s.Offers .setSettings n 0 → s.storeOpen false → s.store.image.wf = true → (∀ d, s.inSale d = false) →
    (∀ d, (s.rdr.get d).sends = [] ∧ (s.disp.lines.get d).order = none) →
    let image := s.store.image
    let f (off len : Nat) : Nat := s.bodyField n off len
    10 ≤ f 0 2 → f 0 2 ≤ 200 → 5 ≤ f 2 2 → f 2 2 ≤ 50 → 200 ≤ f 4 2 → f 4 2 ≤ 3000 → f 6 2 ≤ 10 →
    (∀ i, i < 10 → f (8 + 4 * i) 1 ≤ 1 ∧ f (9 + 4 * i) 1 = (if i % 5 = 4 then 2 else 1) ∧ f (10 + 4 * i) 2 ≤ 1000) →
    (∀ i, i < 8 → f (48 + i) 1 = 0 ∨ (0x08 ≤ f (48 + i) 1 ∧ f (48 + i) 1 ≤ 0x77)) →
    (∀ i, i < 4 → 1 ≤ f (56 + i) 1 ∧ f (56 + i) 1 ≤ 4) →
    let new := ((image.writeAll 2 (s.bodyBytes n 8 40)).writeAll 162 (s.bodyBytes n 0 8)).writeAll 170 (s.bodyBytes n 48 13 ++ [0])
    ∃ t, exec .setSettings s = .next t ∧ t.mem = (s.takeSlot n).1.mem
      ∧ s.StoreTakes t n new .settings false
          { event := nextEvent image, kind := 2, param := 0x80, old := 0, new := settingsDiffer image new
            oldCheck := blockCheck image .settings, newCheck := blockCheck new .settings, time := s.rtc.toNat }
      ∧ (∀ d, (t.rdr.get d).fitted = (f 60 1).testBit (match d with
                                                       | .a => 0
                                                       | .b => 1))
      ∧ t.port = { (s.takeSlot n).1.port with attn := t.port.attn }
      ∧ ((∀ d, s.readerHolds d = false) → t.port.attn = s.port.attn ||| flagsOf (s.changeFlags t))
      ∧ t = { s with fp := t.fp, met := t.met, disp := t.disp, rdr := t.rdr, store := t.store, mem := t.mem, port := t.port, rev := t.rev }

/-- R3, R40, R176, R179, R180, R181: INIT_TOTALS: its tests in their order, and its effect, each side without a sale having the prerequisites its
state needs. Where a part's pages begin, that a next event number of 0 reads as 1, and that the first total out of range is named, are the model's
choices (log 10, log 28, log 63). -/
def Obligations.InitTotalsTestsThenSetsTheTotals : Prop :=
  ∀ (s : State) (n : Nat), s.Offers .initTotals n 0 →
    let image := s.store.image
    let total (i : Nat) : Nat := s.bodyField n (8 * i) 8
    let inRange : Prop := ∀ i, i < 6 → total i ≤ 999999999999
    let answered (code : ResultCode) (detail : Nat) : Prop :=
      ∃ t, exec .initTotals s = .next t ∧ s.Answered t n code detail [] ∧ t = { s with mem := t.mem, port := t.port, rev := t.rev }
    let old (m : Meter) : Nat := ((s.ret.meters.get m.side).get m.product).total
    (∀ i, i < 6 → 999999999999 < total i → (∀ j, j < i → total j ≤ 999999999999) → answered .badOrder (8 * i))
    ∧ (inRange → s.store.absent = true → answered .unavailable 0x112)
    ∧ (inRange → s.store.absent = false → s.store.switchOn = false → answered .switchOff 0)
    ∧ (inRange → s.store.absent = false → s.store.switchOn = true → 32 ≤ logCount image → answered .logFull 0)
    ∧ (inRange → s.store.absent = false → s.store.switchOn = true → logCount image < 32 → 4294967295 < nextEvent image → answered .logFull 0x10E)
    ∧ (inRange → s.store.absent = false → s.store.switchOn = true → logCount image < 32 → nextEvent image ≤ 4294967295 →
        s.store.reloadDue = true ∨ s.store.reloading = true → answered .wrongState 0x107)
    ∧ (inRange → s.store.absent = false → s.store.switchOn = true → logCount image < 32 → nextEvent image ≤ 4294967295 →
        s.store.reloadDue = false → s.store.reloading = false → 16 ≤ s.store.list.length → answered .unavailable 0x113)
    ∧ (inRange → s.storeOpen false →
        (∀ d, (s.fpState d = .idle ∨ s.fpState d = .calling ∨ s.fpState d = .finished ∨ s.fpState d = .authorized) → s.fuelable d = true) →
        let zero (r : RetSide) : RetSide := { r with grades := Five.ofFun (fun _ => ⟨0, 0⟩) }
        ∃ t, exec .initTotals s = .next t ∧ t.mem = (s.takeSlot n).1.mem
          ∧ s.StoreTakes t n image .none false
              { event := nextEvent image, kind := 3, param := 0x81, oldCheck := 0, newCheck := 0, time := s.rtc.toNat
                old := (old ⟨.a, .p1⟩ + old ⟨.a, .p2⟩ + old ⟨.a, .p3⟩ + old ⟨.b, .p1⟩ + old ⟨.b, .p2⟩ + old ⟨.b, .p3⟩) % 10 ^ 12
                new := (total 0 + total 1 + total 2 + total 3 + total 4 + total 5) % 10 ^ 12 }
          ∧ t.ret = { s.ret with
              totalsInvalid := false, sides := ⟨zero s.ret.sides.a, zero s.ret.sides.b⟩
              meters := ⟨⟨⟨total 0, 0⟩, ⟨total 1, 0⟩, ⟨total 2, 0⟩⟩, ⟨⟨total 3, 0⟩, ⟨total 4, 0⟩, ⟨total 5, 0⟩⟩⟩ }
          ∧ t.pw = { s.pw with totalsInvalid := false }
          ∧ (∀ d, t.fp.get d = { s.fp.get d with
                state := if s.fpState d = .unavailable ∧ s.pw.state = .active ∧ (s.head (saleRole d)).state = .ready
                            ∧ s.store.fault = false ∧ (s.ret.applied.get d).isSome = true then (s.fp.get d).readyState else s.fpState d })
          ∧ (∀ m, (s.meter m).attr = .unassigned → t.meter m = { s.meter m with unAcc := 0, unV := 0 })
          ∧ t.port = { (s.takeSlot n).1.port with attn := s.port.attn ||| flagsOf (s.changeFlags t) }
          ∧ t = { s with ret := t.ret, pw := t.pw, fp := t.fp, met := t.met, store := t.store, mem := t.mem, port := t.port, rev := t.rev })

/-- R175: a taken change of the metrology switch, in every device power state.
R142, R143, R144, R172, R173, R174: the periodic check, the mismatch it can find while ACTIVE, and a reload of a store that is present,
no sale being open, no reader holding an order and no message in flight.
What a reload changes beside the working copy, that the rewrite-all mark outlasts it, what LOG_FULL and the mirror show of any image, and that the
last-end record of an authorization ended by the halt gives the number 0, are the model's choices (log 28, log 34, log 68, log 69, log 72); how the
marks of a passed overrun limit follow the base of a sale that the halt ends is its reading (log 17). A reload's flags are stated where no reader's
loss withdraws an authorization in the same event. -/
def Obligations.SwitchChecksAndReloads : Prop :=
  (∀ (s : State) (on : Bool), s.steady →
    (s.store.switchOn ≠ on → ∃ t, exec (.metrologySwitchChange on) s = .next t
      ∧ t = { s with
          store := { s.store with switchOn := on }, port := { s.port with attn := s.port.attn ||| flagsOf [.metrology] }, rev := t.rev })
    ∧ (s.store.switchOn = on → ∃ t, exec (.metrologySwitchChange on) s = .next t ∧ t = { s with rev := t.rev }))
  ∧ (∀ (s : State), s.steady →
    let x := s.store
    let free : Prop := x.absent = false ∧ x.fault = false ∧ x.list = [] ∧ x.write = none ∧ x.reloadDue = false ∧ x.reloading = false
    (∀ stored, x.check.isSome = true → (¬ free ∨ (imageCrc x.image = x.refCrc ∧ stored = x.refCrc)) →
      ∃ t, exec (.checkTimerExpiry stored) s = .next t ∧ t = { s with store := { x with check := some 10000 }, rev := t.rev })
    ∧ (∀ stored, x.check.isSome = true → free → (imageCrc x.image ≠ x.refCrc ∨ stored ≠ x.refCrc) → s.pw.state = .active →
      ∃ t, exec (.checkTimerExpiry stored) s = .next t
        ∧ ({ s with store := { x with check := some 10000, reloadDue := true } } : State).Halts t ⟨.calibrationMismatch, none, none, 0⟩
        ∧ t.store = { x with check := some 10000, reloadDue := true } ∧ t.pw = { s.pw with state := .halted }
        ∧ t.halt = { s.halt with code := some .calibrationMismatch, time := s.rtc, first := none, second := none, flow := 0, reload := true,
                                 halted := true }
        ∧ (∀ v, t.valve v = ⟨.closed, 0, 0, 0⟩) ∧ (∀ m, (t.motor m).state = .off ∨ (t.motor m).state = .fault)
        ∧ (∀ d, t.fpState d = if s.inSale d then .settling else .locked)
        ∧ t = { s with store := t.store, pw := t.pw, halt := t.halt, fp := t.fp, ret := t.ret, vlv := t.vlv, mot := t.mot, met := t.met,
                       port := t.port, rev := t.rev })
    ∧ (x.reloadDue = true → x.list = [] → (∀ d, s.inSale d = false) →
      (s.pw.state = .waking ∨ s.pw.state = .active ∨ s.pw.state = .halted ∨ s.pw.state = .shuttingDown) →
      ∃ t, exec .reloadStart s = .next t ∧ t = { s with store := { x with reloadDue := false, reloading := true }, rev := t.rev })
    ∧ (∀ image : List Host.Cell, x.reloading = true → (∀ d, s.inSale d = false) →
      (∀ d, (s.rdr.get d).sends = [] ∧ (s.disp.lines.get d).order = none) →
      let whole := Memory.ofCells 1156 image
      let body := Memory.ofCells 1154 image
      whole.read 0 ≠ 0 → whole.read 0 ≠ 0xFF →
      ∃ t, exec (.reloadDone image) s = .next t
        ∧ t.store = { x with
            copy := some body, refCrc := BitVec.ofNat 16 (whole.field 1154 2), absent := false
            fault := decide ((crc16 (body.readAll 0 1154)).toNat ≠ whole.field 1154 2), mirror := logEntries body
            logFull := decide (32 ≤ logCount body), reloading := false }
        ∧ t.halt = { s.halt with reload := false }
        ∧ (∀ m, (t.meter m).k = clampNat 200000 2000000 (body.field (meterAddr m) 4) ∧ (t.meter m).cal = some (calibrationIn body m)
            ∧ (t.meter m).unAcc = 0 ∧ (t.meter m).unV = 0)
        ∧ t.port = { s.port with attn := t.port.attn }
        ∧ ((∀ d, s.readerHolds d = false) → t.port.attn = s.port.attn ||| flagsOf (s.changeFlags t))
        ∧ t = { s with store := t.store, halt := t.halt, fp := t.fp, met := t.met, disp := t.disp, rdr := t.rdr, port := t.port, rev := t.rev }))

/-- R171, R181, R196: a page read back good leads to the next page, and at the end of a part to the next part, the block part being passed over
where no block changed, and being all parameter blocks, pad bytes written 0, while the rewrite-all mark is set; the CRC read back good
completes the order OK with its event number; a page that differs or a cycle that does not end completes it UNAVAILABLE with detail
STORE_WRITE and sets the rewrite-all mark; then the next order's write begins.
Where a part's pages begin, and that no further part is written from a discarded working copy, are the model's choices (log 10, log 55). -/
def Obligations.StorePagesEndInACompletion : Prop :=
  ∀ (s : State) (w : StoreWrite) (o : StoreOrder) (more : List StoreOrder), s.steady → s.store.write = some w → s.store.list = o :: more →
    (∀ p rest, w.rest = p :: rest →
      ∃ t, exec (.storePageDone w.page.bytes) s = .next t
        ∧ t = { s with store := { s.store with write := some { w with page := p, rest := rest } }, rev := t.rev })
    ∧ (w.rest = [] → w.part ≠ .crc →
      let moves (x : StorePort) : Prop := ∃ t, exec (.storePageDone w.page.bytes) s = .next t ∧ t = { s with store := x, rev := t.rev }
      (s.store.copy = none → moves { s.store with write := none })
      ∧ ∀ m, s.store.copy = some m →
        let crc := writeFrom .crc m [crcPage m]
        let block := if blockPages m o.block = [] then crc else writeFrom .block m (blockPages m o.block)
        (w.part = .log → s.store.rewriteAll = false → moves { s.store with write := block })
        ∧ (w.part = .log → s.store.rewriteAll = true → m.wf = true →
          ∃ q : Memory, (∀ a, q.read a = if a = 183 ∨ (∃ k ∈ allMeters, a = meterAddr k + 18 ∨ a = meterAddr k + 19) then 0 else m.read a)
            ∧ moves { s.store with copy := some q, write := writeFrom .block q (pagesAt q 2 182) })
        ∧ (w.part = .block → moves { s.store with write := crc }))
    ∧ (w.part = .crc → w.rest = [] →
      ∃ t, exec (.storePageDone w.page.bytes) s = .next t
        ∧ t.store = { s.store with
            write := s.nextWrite more false, list := more, refCrc := w.crc, fault := false, rewriteAll := false }
        ∧ t.mem = (s.complete o.ref .ok o.event).mem
        ∧ t.port = { s.port with attn := (s.complete o.ref .ok o.event).port.attn ||| flagsOf (s.changeFlags t) }
        ∧ t = { s with store := t.store, fp := t.fp, met := t.met, mem := t.mem, port := t.port, rev := t.rev })
    ∧ (∀ c readBack, c = .storeCycleTimeout ∨ (c = .storePageDone readBack ∧ readBack ≠ w.page.bytes) →
      ∃ t, exec c s = .next t
        ∧ t.store = { s.store with write := s.nextWrite more true, list := more, rewriteAll := true }
        ∧ t.mem = (s.complete o.ref .unavailable 0x108).mem
        ∧ t.port = { s.port with attn := (s.complete o.ref .unavailable 0x108).port.attn ||| flagsOf [.metrology] }
        ∧ t = { s with store := t.store, mem := t.mem, port := t.port, rev := t.rev })

/-! ## Clock, wake, standby, supply and reset -/

/-- R151, R154: the CLOCK phase; and R155: a crystal that stops while the main clock runs from the PLL marks the sales in progress.
That a stop while the main clock does not run from the PLL, in the CLOCK phase or after a wake cut in it, does nothing is the model's
reading (log 52). -/
def Obligations.TheClockPhaseChoosesTheSource : Prop :=
  ∀ s : State, s.steady →
    let power : Port := { s.port with attn := s.port.attn ||| flagsOf [.power] }
    let stored (p : Power) : Power := { p with phase := .store, crystalWatch := none, lockWait := none }
    let becomes (c : Instr) (p : Power) (q : Port) : Prop := ∃ t, exec c s = .next t ∧ t = { s with pw := p, port := q, rev := t.rev }
    (s.pw.state = .waking → s.pw.phase = .clock → s.pw.crystalWatch.isSome = true →
      becomes .crystalDetected { s.pw with crystalWatch := none, lockWait := some 5, pllRetried := false } s.port
      ∧ becomes .crystalWatchTimeout (stored { s.pw with clock := .internal, clockFail := some .noCrystal, pll := false, degraded := true }) power)
    ∧ (s.pw.state = .waking → s.pw.phase = .clock → s.pw.lockWait.isSome = true →
      becomes .pllLock (stored { s.pw with clock := .crystal, clockFail := none, pll := true, degraded := false }) power
      ∧ (s.pw.pllRetried = false → becomes .pllLockTimeout { s.pw with lockWait := some 5, pllRetried := true } s.port)
      ∧ (s.pw.pllRetried = true →
          becomes .pllLockTimeout (stored { s.pw with clock := .internal, clockFail := some .noLock, pll := false, degraded := true }) power))
    ∧ (s.pw.pll = false ∨ s.pw.osc = false → becomes .crystalStop s.pw s.port)
    ∧ (s.pw.pll = true → s.pw.osc = true →
      let mark (d : Side) : RetSide := if s.inSale d then { s.ret.sides.get d with sale := { s.sale d with degraded := true } }
        else s.ret.sides.get d
      ∃ t, exec .crystalStop s = .next t
        ∧ t = { s with pw := { s.pw with clock := .internal, clockFail := some .noCrystal, pll := false, degraded := true }, port := power
                       ret := { s.ret with sides := ⟨mark .a, mark .b⟩ }, rev := t.rev })

/-- R26, R31, R87, R88, R156, R157, R158, R169, R172, R174: the load of the STORE phase with a store present: the working copy, decoding and
the DISPLAY phase; with nothing to finalize and no price set pending, retention memory is initialized when its flag is clear; with its flag
set and the heads ABSENT, an interrupted or open sale of each side is finalized and a pending price set is applied to both and cleared.
R44, R45, R53, R84: the volume and the amount of a finalized sale are those that its product volumes and its latched price give.
The operands that carry the store's bytes and the meter inputs, what LOG_FULL and the mirror show of any image, that the overrun base and its
measure stand after the finalized completion, that the last-end record of a discarded sale gives the number 0, the end cause of an INTERRUPTED
sale that holds none, the price with which the amount of a sale without a grade is computed, that such a sale is added to no grade total, and that
the flow report of a lock can be made again under the measure that begins here (R51), are the model's choices (log 9, log 17, log 28, log 37,
log 69, log 72, log 75, log 88, log 89, log 91). R82, R86: the version and the prices of a set that is cleared stand in retention memory. -/
def Obligations.TheStorePhaseLoadsAndDecodes : Prop :=
  ∀ (s : State) (image : List Host.Cell) (levels : Sides (Three LevelPair)), s.steady → s.pw.state = .waking → s.pw.phase = .store →
    let whole := Memory.ofCells 1156 image
    let body := Memory.ofCells 1154 image
    let intact := s.ret.intact
    let loaded : StorePort := { s.store with
      copy := some body, refCrc := BitVec.ofNat 16 (whole.field 1154 2), absent := false
      fault := decide ((crc16 (body.readAll 0 1154)).toNat ≠ whole.field 1154 2), mirror := logEntries body
      logFull := decide (32 ≤ logCount body), check := some 10000 }
    let counting (m : Meter) : Channel := { Channel.powerUp with
      phase := (levels.get m.side).get m.product, k := clampNat 200000 2000000 (body.field (meterAddr m) 4), cal := some (calibrationIn body m) }
    let railOn : Display := { s.disp with rail := true, awaitHigh := true, settle := some 100, step := .settling }
    whole.read 0 ≠ 0 → whole.read 0 ≠ 0xFF →
    ((∀ d, s.fpState d = if (s.ret.sides.get d).locked then .locked else .unavailable) →
     (intact = true → s.ret.pendingSet = none ∧ ∀ d, (s.sale d).status ≠ .opened ∧ (s.sale d).status ≠ .interrupted) →
    ∃ t, exec (.storeLoadDone image levels) s = .next t
      ∧ t.store = loaded
      ∧ t.halt = { s.halt with reload := false }
      ∧ t.pw = { s.pw with phase := .display, decoding := true, totalsInvalid := if intact then s.ret.totalsInvalid else true }
      ∧ t.disp = railOn
      ∧ t.ret = (if intact then s.ret else
          { intact := true, totalsInvalid := true, wakeTime := 0, marks := ⟨false, false⟩
            appliedArea := ⟨{ s.ret.appliedArea.a with present := false }, { s.ret.appliedArea.b with present := false }⟩
            pendingArea := { s.ret.pendingArea with present := false }
            sides := ⟨⟨Sale.empty .a, [], 0, false, none, Five.ofFun (fun _ => ⟨0, 0⟩)⟩, ⟨Sale.empty .b, [], 0, false, none, Five.ofFun (fun _ => ⟨0, 0⟩)⟩⟩
            meters := ⟨⟨⟨0, 0⟩, ⟨0, 0⟩, ⟨0, 0⟩⟩, ⟨⟨0, 0⟩, ⟨0, 0⟩, ⟨0, 0⟩⟩⟩ })
      ∧ t.rtc = (if intact then s.rtc else 0)
      ∧ (∀ m, t.meter m = counting m)
      ∧ (∀ d, t.fpState d = if intact && (s.ret.sides.get d).locked then .locked else .unavailable)
      ∧ t.port = { s.port with attn := s.port.attn ||| flagsOf (.power :: s.changeFlags t) }
      ∧ t = { s with store := t.store, halt := t.halt, pw := t.pw, disp := t.disp, ret := t.ret, rtc := t.rtc, met := t.met, fp := t.fp
                     price := t.price, port := t.port, rev := t.rev })
    ∧ (intact = true → (∀ r, (s.head r).state.shows = false) →
      let told : State := match s.ret.pendingSet, s.price.order with
        | some p, some r => s.complete r .ok p.prices.version
        | _, _ => s
      ∃ t, exec (.storeLoadDone image levels) s = .next t
        ∧ t.store = loaded ∧ t.halt = { s.halt with reload := false } ∧ t.disp = railOn ∧ (∀ m, t.meter m = counting m)
        ∧ t.pw = { s.pw with phase := .display, decoding := true, totalsInvalid := s.ret.totalsInvalid }
        ∧ t.ret = { s.ret with
            sides := ⟨s.ret.sides.a.finalized s.rtc, s.ret.sides.b.finalized s.rtc⟩
            pendingArea := { s.ret.pendingArea with present := false }
            marks := if s.ret.pendingSet.isSome then ⟨false, false⟩ else s.ret.marks
            appliedArea := match s.ret.pendingSet with
              | some p => ⟨⟨true, p.prices⟩, ⟨true, p.prices⟩⟩
              | none => s.ret.appliedArea }
        ∧ (∀ d, t.fp.get d = (s.fp.get d).finalized (s.ret.sides.get d) (t.ret.sides.get d) s.rtc)
        ∧ (∀ d, t.vlv.get d = { s.vlv.get d with slow := (s.vlv.get d).slow && !(s.sale d).cutShort })
        ∧ t.price = (if s.ret.pendingSet.isSome then ⟨none⟩ else s.price)
        ∧ t.mem = told.mem
        ∧ (let fs := .power :: (finalFlags .a s.ret.sides.a ++ finalFlags .b s.ret.sides.b ++ s.changeFlags t)
           t.port = { s.port with attn := told.port.attn ||| flagsOf fs })
        ∧ t = { s with store := t.store, halt := t.halt, pw := t.pw, disp := t.disp, ret := t.ret, met := t.met, fp := t.fp, vlv := t.vlv
                       price := t.price, mem := t.mem, port := t.port, rev := t.rev })

/-- R111, R120, R138, R159, R160: STANDBY: its tests in their order, the start of the shutdown, where the orders in the send lists complete
READER_DOWN, the messages in flight complete UNAVAILABLE with detail NOT_SHOWN and both lines are cleared, and the entry to STANDBY.
The test of target and wake time before a HALTED answer, the code of that answer's detail, the supply-off cause of a reader, how the bytes of the
BLANK are seen, and that a reload in progress ends as STANDBY is entered, are the model's choices (log 19, log 36, log 43, log 67, log 76). -/
def Obligations.StandbyIsTestedAndEntered : Prop :=
  ∀ s : State,
    (∀ n, s.Offers .standby n 0 →
      let wake := s.bodyField n 0 4
      let good : Prop := wake = 0 ∨ s.rtc.toNat < wake
      let busy (d : Side) : Prop := s.inSale d = true ∨ s.fpState d = .authorized
      let answered (code : ResultCode) (detail : Nat) : Prop :=
        ∃ t, exec .standby s = .next t ∧ s.Answered t n code detail [] ∧ t = { s with mem := t.mem, port := t.port, rev := t.rev }
      (¬ good → answered .badOrder 0x10F)
      ∧ (good → s.pw.state = .halted → answered .wrongState 0x100)
      ∧ (good → s.pw.state = .active → busy .a → answered .wrongState (0x01000100 + (s.fpState .a).code))
      ∧ (good → s.pw.state = .active → ¬ busy .a → busy .b → answered .wrongState (0x02000100 + (s.fpState .b).code))
      ∧ (good → s.pw.state = .active → (∀ d, ¬ busy d) →
          let dropped := (((s.takeSlot n).1.sendsDropped .a .standby).sendsDropped .b .standby).messagesDropped
          ∃ t, exec .standby s = .next t ∧ t.mem = dropped.mem
            ∧ t.pw = { s.pw with
                state := .shuttingDown, blanked := false, standbyOrder := some ⟨n, (s.takeNumber n + 1) % 65536, s.rtc⟩ }
            ∧ t.ret = { s.ret with wakeTime := BitVec.ofNat 32 wake }
            ∧ (∀ v, t.valve v = ⟨.closed, 0, 0, 0⟩)
            ∧ (∀ m, t.motor m = if (s.motor m).state = .fault then s.motor m else { s.motor m with state := .off, timer := none })
            ∧ t.mot.queue = [] ∧ (∀ d, t.fpState d = if s.fpState d = .locked then .locked else .unavailable)
            ∧ (∀ d, (t.rdr.get d).state = .off) ∧ t.store = { s.store with reloadDue := false }
            ∧ t.disp.call.map GeneralCall.kind = some .blank
            ∧ t.disp = { s.disp with lines := ⟨⟨List.replicate 16 0x20, none, 0, none⟩, ⟨List.replicate 16 0x20, none, 0, none⟩⟩
                                     call := t.disp.call, bus := t.disp.bus, wire := t.disp.wire }
            ∧ (t.disp.call = some ⟨.blank, true⟩ → s.disp.call = none → t.disp.wire = [0x00, 0x03])
            ∧ t.port = { dropped.port with attn := dropped.port.attn ||| flagsOf (.power :: s.changeFlags t) }
            ∧ t = { s with pw := t.pw, ret := t.ret, vlv := t.vlv, mot := t.mot, fp := t.fp, met := t.met, rdr := t.rdr, store := t.store,
                           disp := t.disp, mem := t.mem, port := t.port, rev := t.rev }))
    ∧ (∀ r, s.steady → s.pw.state = .shuttingDown → s.pw.blanked = true → s.store.list = [] → s.pw.wakeRequest = none →
      s.pw.standbyOrder = some r →
      ∃ t, exec .standbyEntry s = .next t
        ∧ t.pw = { s.pw with state := .standby, osc := false, pll := false, drives := false, decoding := false, standbyOrder := none }
        ∧ t.mem = (s.complete r .ok 0).mem
        ∧ t.port = { s.port with attn := (s.complete r .ok 0).port.attn ||| flagsOf [.power], posts := [], asleep := !s.port.awake }
        ∧ (∀ v, t.valve v = ⟨.closed, 0, 0, 0⟩) ∧ (∀ m, (t.motor m).state = .off ∨ (t.motor m).state = .fault)
        ∧ t.store = { s.store with check := none, reloading := false, reloadDue := false }
        ∧ t = { s with pw := t.pw, mem := t.mem, port := t.port, vlv := t.vlv, mot := t.mot, store := t.store, met := t.met, fp := t.fp,
                       rev := t.rev })

/-- R161: the three wake sources in STANDBY, what they do while the device shuts down, and a WAKE order in ACTIVE or HALTED.
That the bus status is then FREE, what of a meter channel and what of a head record survives to the wake, and that the mark of a lock's flow report
made falls with the lock-flow measure, are the model's choices (log 15, log 47, log 59, log 89). -/
def Obligations.WakeSourcesBeginAWake : Prop :=
  ∀ s : State,
    let late (c : Instr) (k : WakeCause) : Prop :=
      ∃ t, exec c s = .next t ∧ t = { s with pw := { s.pw with wakeRequest := some (s.pw.wakeRequest.getD k) }, rev := t.rev }
    let passed : Prop := s.ret.wakeTime ≠ 0 ∧ s.ret.wakeTime.toNat ≤ s.rtc.toNat
    (s.steady → s.pw.state = .standby →
      (∃ t, exec .wakePin s = .next t ∧ s.WakeBegins t .wakePin)
      ∧ (passed → ∃ t, exec .wakeTimeReached s = .next t ∧ s.WakeBegins t .wakeTime))
    ∧ (s.steady → s.pw.state = .shuttingDown → late .wakePin .wakePin ∧ (passed → late .wakeTimeReached .wakeTime))
    ∧ (∀ n, s.Offers .wake n 0 →
      (s.pw.state = .active ∨ s.pw.state = .halted →
        ∃ t, exec .wake s = .next t ∧ s.Answered t n .ok (0x500 + s.pw.state.code) [] ∧ t = { s with mem := t.mem, port := t.port, rev := t.rev })
      ∧ (s.pw.state = .standby → s.store.list = [] → (∀ d, (s.disp.lines.get d).order = none) → s.port.asleep = false →
        ∃ t, exec .wake s = .next t ∧ s.Answered t n .ok 0x501 [.power] ∧ s.WakeBegins t .wakeOrder))

/-- R163: SET_CLOCK.
The test of the target before a HALTED answer, the code of that answer's detail, the done time under the new counter, and in a wake that begins at
once the bus status FREE, what of a meter channel and a head record survives, and that the mark of a lock's flow report made falls with the lock-flow
measure, are the model's choices (log 31, log 43, log 76; log 15, log 47, log 59, log 89). -/
def Obligations.SetClockSetsTheCounter : Prop :=
  ∀ (s : State) (n target : Nat), s.Offers .setClock n target →
    let value := BitVec.ofNat 32 (s.bodyField n 0 4)
    let passed : Prop := s.ret.wakeTime ≠ 0 ∧ s.ret.wakeTime.toNat ≤ value.toNat
    let answered (code : ResultCode) (detail : Nat) : Prop :=
      ∃ t, exec .setClock s = .next t ∧ s.Answered t n code detail [] ∧ t = { s with mem := t.mem, port := t.port, rev := t.rev }
    (target ≠ 0 → answered .badOrder 0xFFFF)
    ∧ (target = 0 → s.pw.state = .halted → answered .wrongState 0x100)
    ∧ (target = 0 → (s.pw.state = .active ∨ (s.pw.state = .standby ∧ ¬ passed)) →
        ∃ t, exec .setClock s = .next t ∧ s.Answered t n .ok s.rtc.toNat [] ∧ t.rev.device = (s.rev.device + 2) % 65536
          ∧ t = { s with rtc := value, mem := t.mem, port := t.port, rev := t.rev })
    ∧ (target = 0 → s.pw.state = .standby → passed → s.store.list = [] → (∀ d, (s.disp.lines.get d).order = none) → s.port.asleep = false →
        ∃ t, exec .setClock s = .next t ∧ s.Answered t n .ok s.rtc.toNat [.power] ∧ t.rev.device = (s.rev.device + 2) % 65536
          ∧ ({ s with rtc := value } : State).WakeBegins t .wakeTime)

/-- R4, R26, R55, R76, R120, R138, R149, R164: a power-fail warning taken outside POWER_FAIL with no reset hold; and, with the cause DEVICE_RESET
and the reset hold started, R166: a device reset by the pin or by the register.
R105: the stale deadlines that the segment test of a cut wake had stopped run again.
The wake phase of a cut wake, the cause of a reader that was off, the order of the effects, that a device reset too completes the orders of the
send lists, and when those deadlines start, are the model's choices (log 18, log 19, log 45, log 71, log 78). -/
def Obligations.WarningsAndResetsStopTheDevice : Prop :=
  ∀ (s : State) (c : Instr) (cause : Cause) (off : OffCause), s.steady → s.pw.state ≠ .powerFail →
    (c = .powerFailWarning ∧ cause = .powerLoss ∧ off = .powerFail ∧ s.pw.resetHold = none)
      ∨ (c = .resetPin ∧ cause = .deviceReset ∧ off = .deviceReset)
      ∨ (c = .deviceReset true ∧ s.portAnswers = true ∧ cause = .deviceReset ∧ off = .deviceReset) →
    let down : Power := { s.pw with state := .powerFail, phase := .none, drives := false, crystalWatch := none, lockWait := none
                                    standbyOrder := none, wakeRequest := none, blanked := false }
    ∃ t, exec c s = .next t
      ∧ t.pw = (if cause = .powerLoss then { down with warning := true, hold := none } else
          { down with devReset := true, resetPending := true, resetHold := some 500, resetMax := some 5000
                      lastWake := if c = .resetPin then .resetPin else .resetRegister })
      ∧ (∀ v, t.valve v = ⟨.closed, 0, 0, 0⟩) ∧ (∀ m, (t.motor m).state = .off ∨ (t.motor m).state = .fault) ∧ t.mot.queue = []
      ∧ (∀ d, (s.fpState d).endable = true → t.fpState d = .settling ∧ (t.sale d).status = .interrupted ∧ (t.sale d).endCause = some cause)
      ∧ (∀ d, s.fpState d = .settling → t.fpState d = .settling ∧ t.sale d = { s.sale d with status := .interrupted })
      ∧ (∀ d, s.inSale d = false → t.fpState d = (if s.fpState d = .locked then .locked else .unavailable) ∧ t.sale d = s.sale d)
      ∧ (∀ d, (t.fp.get d).settle = if s.inSale d then none else (s.fp.get d).settle)
      ∧ (∀ d, (t.rdr.get d).state = .off ∧ ((s.rdr.get d).state ≠ .off → (t.rdr.get d).cause = some off))
      ∧ t.halt = { s.halt with halted := false } ∧ t.store = { s.store with check := none, reloading := false }
      ∧ (let dropped := (s.sendsDropped .a off).sendsDropped .b off
         let told : State := match s.pw.standbyOrder with
           | some r => if cause = .powerLoss then dropped.complete r .wrongState 0x506 else dropped
           | none => dropped
         let fs := .power :: ((if s.halt.halted then [.halt] else []) ++ s.changeFlags t)
         t.mem = told.mem ∧ t.port = { s.port with attn := told.port.attn ||| flagsOf fs })
      ∧ (∀ d, s.disp.call ≠ some ⟨.blank, true⟩ → (s.head (saleRole d)).state.shows = true → (s.head (saleRole d)).stale = none →
          (t.head (saleRole d)).stale = some 2500)
      ∧ t.ret.meters = s.ret.meters ∧ t.ret.appliedArea = s.ret.appliedArea ∧ t.ret.pendingArea = s.ret.pendingArea ∧ t.ret.marks = s.ret.marks
      ∧ t = { s with pw := t.pw, ret := t.ret, fp := t.fp, met := t.met, vlv := t.vlv, mot := t.mot, disp := t.disp, rdr := t.rdr, halt := t.halt,
                     store := t.store, mem := t.mem, port := t.port, rev := t.rev }

/-- R152, R162, R165, R168, R185: the second tick, the release of the warning and the end of its hold, the loss and return of mains, and the
loss of the retention supply.
That the counter and retention memory then hold free values is the model's reading (log 8). The values that mains loss and the start of a wake
leave where the spec gives none are the model's choices: halt, store, motors, valves, meters, display and readers as in `State.reset` (log 3,
log 4, log 15, log 37), the bus status FREE, what of a meter channel and a head record survives to a wake, and that the mark of a lock's flow
report made falls with the lock-flow measure there (log 15, log 47, log 59, log 89). -/
def Obligations.TheSupplyFallsAndReturns : Prop :=
  ∀ s : State,
    (s.pw.mains = true → s.rev.wrote = [] → ∃ t, exec .rtcSecond s = .next t ∧ t.rev.device = (s.rev.device + 2) % 65536
        ∧ t = { s with rtc := s.rtc + 1, rev := t.rev })
    ∧ (s.pw.mains = false → exec .rtcSecond s = .next { s with rtc := s.rtc + 1 })
    ∧ (s.steady → s.pw.state = .powerFail → s.pw.warning = true →
      ∃ t, exec .warningRelease s = .next t ∧ t = { s with pw := { s.pw with warning := false, hold := some 500 }, rev := t.rev })
    ∧ (s.steady → s.pw.state = .powerFail → s.pw.warning = false → s.pw.hold.isSome = true → s.pw.resetHold = none → s.pw.cold = false →
      ∃ t, exec .powerGoodHoldEnd s = .next t ∧ s.WakeBegins t (if s.pw.resetPending then s.pw.lastWake else .warningRelease))
    ∧ (s.pw.mains = true → ∃ t, exec .mainsLoss s = .next t ∧ t.ret = s.ret ∧ t.rtc = s.rtc ∧ t.pw.mains = false ∧ t.pw.state = .powerFail
        ∧ t.mem = [] ∧ t.port.posts = [] ∧ t.port.attn = 0 ∧ t.port.enable = 0 ∧ t.halt = State.reset.halt ∧ t.store = State.reset.store
        ∧ t.mot = State.reset.mot ∧ t.vlv = State.reset.vlv ∧ t.met = State.reset.met ∧ t.disp = State.reset.disp ∧ t.rdr = State.reset.rdr
        ∧ (∀ d, (t.fp.get d).auth = none ∧ (t.fp.get d).settle = none))
    ∧ (∀ warning, s.pw.mains = false → exec (.mainsReturn warning) s = .next { s with pw := { s.pw with
          mains := true, state := .powerFail, cold := true, warning := warning, hold := if warning then none else some 500 } })
    ∧ (s.pw.mains = false → ∃ t, exec .retentionSupplyLow s = .next t ∧ t.ret.intact = false
        ∧ t = { s with ret := t.ret, rtc := t.rtc, free := s.free + 1 })

/-- R152, R153, R166, R167, R195: the end of the reset hold with the supply good, and of the power-good hold of a mains power-up: exchange
memory and the registers are zeroed and a wake begins, the crystal's watch running (R155).
Each owner rewrites its record: a fueling point is LOCKED where retention memory holds its side locked and UNAVAILABLE otherwise, its authorization
absent (R2), its hose levels kept (R5); the valves are CLOSED (R55); the readers are OFF with nothing in their send lists (R117); the heads are
ABSENT (R92, R112); the halt record is as at power-up (R145); the price unit holds no slot number (R77); the working copy is discarded (R171) and
the store-write list is emptied (R181; its section, STORE WRITES of file 09, stands beyond the twelve that are cited). -/
def Obligations.ZeroingPrecedesTheWake : Prop :=
  ∀ (s : State) (c : Instr) (cause : WakeCause), s.steady → s.pw.state = .powerFail → s.pw.warning = false →
    (c = .resetHoldEnd ∧ s.pw.resetHold.isSome = true ∧ s.pw.hold = none ∧ cause = s.pw.lastWake)
      ∨ (c = .powerGoodHoldEnd ∧ s.pw.cold = true ∧ s.pw.hold.isSome = true ∧ s.pw.resetHold = none ∧ s.pw.resetPending = false
          ∧ cause = .mains) →
    ∃ t, exec c s = .next t ∧ t.mem = [] ∧ t.port = State.reset.port ∧ t.halt = State.reset.halt
      ∧ t.pw.state = .waking ∧ t.pw.phase = .clock ∧ t.pw.lastWake = cause ∧ t.pw.crystalWatch = some 20 ∧ t.pw.drives = false
      ∧ t.ret = { s.ret with wakeTime := 0 } ∧ t.price.order = none
      ∧ (∀ d, (t.fp.get d).auth = none ∧ (t.fp.get d).lift1 = (s.fp.get d).lift1 ∧ (t.fp.get d).lift2 = (s.fp.get d).lift2
          ∧ t.fpState d = if (s.ret.sides.get d).locked then .locked else .unavailable)
      ∧ (∀ v, t.valve v = ⟨.closed, 0, 0, 0⟩) ∧ (∀ d, (t.rdr.get d).state = .off ∧ (t.rdr.get d).sends = [])
      ∧ (∀ r, (t.head r).state = .absent) ∧ t.store.copy = none ∧ t.store.list = []
      ∧ t = { s with pw := t.pw, ret := t.ret, fp := t.fp, met := t.met, vlv := t.vlv, disp := t.disp, rdr := t.rdr, halt := t.halt,
                     store := t.store, price := t.price, mem := t.mem, port := t.port, rev := t.rev }

/-! ## The host port -/

/-- R187: a write of a value to ORDER_POST while the port answers, in whatever device power state: the first of the three tests that fails has the
post ignored, the device status record shows it with the value, the reason and the counter, and ORDER is set; where all three pass, the slot number
joins the tail of the queue. So the queue holds slot numbers, each at most once, and sixteen places are enough. A post of a slot that is still
queued fails the third test; once the slot has been taken, it fails the second. That no retention write is open at the start of the event is how
every command leaves it. -/
def Obligations.PostsAreTestedAndQueued : Prop :=
  ∀ s : State, s.portAnswers = true → s.rev.wrote = [] →
    let post (v : Nat) : Instr := .orderPost (BitVec.ofNat 16 v)
    let ignored (v : Nat) (why : IgnoreReason) (code : Byte) : Prop := ∃ t, exec (post v) s = .next t
      ∧ (List.range 8).map (fun i => t.exchangeByte (20 + i)) = [1, BitVec.ofNat 8 v, code, 0] ++ bytesBE 4 s.rtc.toNat
      ∧ t = { s with port := { s.port with lastIgnored := some ⟨v, why, s.rtc⟩, attn := s.port.attn ||| flagsOf [.order] }, rev := t.rev }
    (∀ v, 15 < v → v < 65536 → ignored v .range 1)
    ∧ (∀ v, v ≤ 15 → s.slotState v ≠ 1 → ignored v .notPosted 2)
    ∧ (∀ v, v ≤ 15 → s.slotState v = 1 → v ∈ s.port.posts → ignored v .queued 3)
    ∧ (∀ v, v ≤ 15 → s.slotState v = 1 → v ∉ s.port.posts →
        ∃ t, exec (post v) s = .next t ∧ t = { s with port := { s.port with posts := s.port.posts ++ [v] }, rev := t.rev })
    ∧ (s.port.posts.Nodup → (∀ n ∈ s.port.posts, n < 16) →
        s.port.posts.length ≤ 16
        ∧ ∀ value t, exec (.orderPost value) s = .next t → t.port.posts.Nodup ∧ ∀ n ∈ t.port.posts, n < 16)

/-- R160, R166, R183, R193, R194: writes to the registers while the port answers.
R128, R182, R183, R184: a READ sends exchange memory or registers, a WRITE reaches the order slots, the state word of a mail cell and
the registers alone, and an invalid command is answered with zeros; a port that does not answer takes nothing.
R185, R187: a post that is ignored rewrites the device status record.
How the bytes sent are seen is the model's field (log 36). What a record's bytes read where file 11 gives a field no presence bit, past the length of
a mail cell's payload and in a log of a loaded image with a wrong count, that the first product volume of a sale goes with its grade fields, and that
an ignored post which changes no byte of the record raises its revision word too, are the model's choices (log 35, log 42, log 60, log 69, log 72,
log 77, log 85). -/
def Obligations.RegistersAndTransactionsAct : Prop :=
  ∀ s : State, s.steady →
    let becomes (c : Instr) (p : Port) : Prop := ∃ t, exec c s = .next t ∧ t = { s with port := p, rev := t.rev }
    let registers : List Byte := [0xD4, 0x01] ++ bytesBE 2 s.port.attn.toNat ++ bytesBE 2 s.port.enable.toNat ++ [0, 0]
      ++ bytesBE 2 s.port.posts.length ++ [0, BitVec.ofNat 8 (bit s.pw.devReset + 2 * bit s.port.awake)]
    (s.portAnswers = true →
      (∀ mask, becomes (.attnEnable mask) { s.port with enable := mask })
      ∧ (∀ mask, becomes (.attnClear mask) { s.port with attn := s.port.attn &&& ~~~mask })
      ∧ (∀ value, becomes (.portAwakeInStandby value)
          { s.port with awake := value, asleep := if s.pw.state = .standby ∧ value = false then true else s.port.asleep })
      ∧ becomes (.deviceReset false) s.port
      ∧ (∀ addr value, writeIgnoredAt addr = true → becomes (.registerWriteIgnored addr value) s.port)
      ∧ (∀ value : Word16, 15 < value.toNat ∨ s.slotState value.toNat ≠ 1 ∨ value.toNat ∈ s.port.posts →
        ∃ t, exec (.orderPost value) s = .next t ∧ t.rev.device = (s.rev.device + 2) % 65536)
      ∧ (∀ addr : Word16, ∀ count, addr.toNat + count ≤ 0x4000 →
        becomes (.read (some addr) count) { s.port with hsdo := some ((List.range count).map (fun i => s.exchangeByte (addr.toNat + i))) })
      ∧ becomes (.read (some 0x4000) 12) { s.port with hsdo := some registers }
      ∧ (∀ addr : Word16, ∀ data : List Byte, 0x2000 ≤ addr.toNat → addr.toNat + data.length ≤ 0x4000 →
        ∃ t, exec (.write (some addr) data) s = .next t ∧ t = { s with mem := s.mem.writeAll addr.toNat data, rev := t.rev })
      ∧ (∀ addr : Word16, ∀ data : List Byte, (addr.toNat + data.length ≤ 0x1000 ∨ (0x1800 ≤ addr.toNat ∧ addr.toNat + data.length ≤ 0x2000)) →
        ∃ t, exec (.write (some addr) data) s = .next t ∧ t = { s with rev := t.rev })
      ∧ (∀ n : Nat, ∀ h l : Byte, n < 8 →
        ∃ t, exec (.write (some (BitVec.ofNat 16 (0x1002 + 80 * n))) [h, l]) s = .next t
          ∧ t = { s with
              rdr := s.rdr.set .a { s.rdr.get .a with cells := (s.rdr.get .a).cells.modify n (fun c => { c with stateWord := h ++ l }) }
              rev := t.rev })
      ∧ (∀ h l : Byte, becomes (.write (some 0x4002) [h, l]) { s.port with enable := h ++ l })
      ∧ (∀ command count, command ≠ 0x02 → command ≠ 0x03 →
        becomes (.invalidCommand command count) { s.port with hsdo := some (List.replicate count 0) }))
    ∧ (s.portAnswers = false →
      (∀ addr count, becomes (.read addr count) { s.port with hsdo := none }) ∧ (∀ addr data, becomes (.write addr data) s.port)
      ∧ ∀ value, becomes (.orderPost value) s.port)

/-- R187, R188, R189: takes that reach no owner: an unknown kind, an order turned away in STANDBY, and a withdrawn slot.
R185, R189: a withdrawn slot rewrites the device status record.
That an order for the owner of a side whose target is no side is answered NOT_ACTIVE in STANDBY like every other, and that a slot withdrawn twice
within one second, which changes no byte of the record, raises its revision word too, are the model's choices (log 84, log 35). -/
def Obligations.TakesThatReachNoOwner : Prop :=
  ∀ (s : State) (n : Nat), s.steady → s.PortLaw → s.port.posts.head? = some n →
    (s.pw.state = .active ∨ s.pw.state = .halted ∨ s.pw.state = .standby) →
    let known : Prop := ∃ k : OrderKind, s.slotKind n = k.code
    (s.slotState n = 1 → ¬ known →
      ∃ t, exec .takeUnknownKind s = .next t ∧ s.Answered t n .badOrder 0xFFFE [] ∧ t = { s with mem := t.mem, port := t.port, rev := t.rev })
    ∧ (s.slotState n = 1 → known → s.pw.state = .standby → s.slotKind n ≠ 0x41 → s.slotKind n ≠ 0x42 →
      ∃ t, exec .notActiveTake s = .next t ∧ s.Answered t n .notActive 0 [] ∧ t = { s with mem := t.mem, port := t.port, rev := t.rev })
    ∧ (s.slotState n ≠ 1 →
      ∃ t, exec .takeWithdrawn s = .next t ∧ t.rev.device = (s.rev.device + 2) % 65536
        ∧ t = { s with port := { s.port with posts := s.port.posts.tail, lastIgnored := some ⟨n, .withdrawn, s.rtc⟩
                                             attn := s.port.attn ||| flagsOf [.order] }, rev := t.rev })
end

