-- ==== Sys2Proof/Laws/Memory.lean ====
section
/-! SUPPORT. Byte memory: every write keeps the canonical form, a read after a write gives the byte written, other bytes stand. -/

namespace Sys2Proof.Machine

/-- Every address listed lies above `a`. -/
def Memory.above (a : Nat) (m : Memory) : Prop := ∀ c ∈ m, a < c.1

theorem Memory.wf_cons {k : Nat} {v : Byte} {m : Memory} :
    Memory.wf ((k, v) :: m) = true ↔ v ≠ unlistedByte ∧ Memory.above k m ∧ Memory.wf m = true := by
  induction m generalizing k v with
  | nil => simp [Memory.wf, Memory.above]
  | cons c rest ih =>
    obtain ⟨k', v'⟩ := c
    simp only [Memory.wf, Bool.and_eq_true, decide_eq_true_eq, ih, Memory.above, List.mem_cons, forall_eq_or_imp]
    constructor
    · rintro ⟨⟨h1, h2⟩, h3, h4, h5⟩
      exact ⟨h2, ⟨h1, fun c hc => lt_trans h1 (h4 c hc)⟩, h3, h4, h5⟩
    · rintro ⟨h2, ⟨h1, _⟩, h3, h4, h5⟩
      exact ⟨⟨h1, h2⟩, h3, h4, h5⟩

theorem Memory.read_above {a : Nat} {m : Memory} (h : m.above a) : m.read a = unlistedByte := by
  induction m with
  | nil => rfl
  | cons c rest ih =>
    obtain ⟨k, v⟩ := c
    have hk : a < k := h (k, v) (by simp)
    simp only [Memory.read, Nat.ne_of_gt hk, if_false]
    exact ih (fun c hc => h c (by simp [hc]))

theorem Memory.write_above {b a : Nat} {v : Byte} {m : Memory} (h : m.above b) (hb : b < a) : (m.write a v).above b := by
  induction m with
  | nil => unfold Memory.write; split <;> simp [Memory.above, hb]
  | cons c rest ih =>
    obtain ⟨k, w⟩ := c
    have hk : b < k := h (k, w) (by simp)
    have hr : Memory.above b rest := fun c hc => h c (by simp [hc])
    have hi := ih hr
    unfold Memory.write
    intro c
    split_ifs <;> intro hc
    · exact h c hc
    · rcases List.mem_cons.1 hc with rfl | hc
      · exact hb
      · exact h c hc
    · exact hr c hc
    · rcases List.mem_cons.1 hc with rfl | hc
      · exact hk
      · exact hr c hc
    · rcases List.mem_cons.1 hc with rfl | hc
      · exact hk
      · exact hi c hc

/-- A write keeps the canonical form. -/
theorem Memory.write_wf {m : Memory} (h : m.wf = true) (a : Nat) (v : Byte) : (m.write a v).wf = true := by
  induction m with
  | nil => unfold Memory.write; split <;> simp_all [Memory.wf]
  | cons c rest ih =>
    obtain ⟨k, w⟩ := c
    obtain ⟨h1, h2, h3⟩ := Memory.wf_cons.1 h
    unfold Memory.write
    split_ifs with c1 c2 c3 c4
    · exact h
    · exact Memory.wf_cons.2 ⟨c2, fun c hc => by
        rcases List.mem_cons.1 hc with rfl | hc
        · exact c1
        · exact lt_trans c1 (h2 c hc), h⟩
    · exact h3
    · exact Memory.wf_cons.2 ⟨c4, h2, h3⟩
    · exact Memory.wf_cons.2 ⟨h1, Memory.write_above h2 (by omega), ih h3⟩

/-- A read after a write to the same address gives the byte written. -/
theorem Memory.read_write_same {m : Memory} (h : m.wf = true) (a : Nat) (v : Byte) : (m.write a v).read a = v := by
  induction m with
  | nil => unfold Memory.write; split <;> simp_all [Memory.read]
  | cons c rest ih =>
    obtain ⟨k, w⟩ := c
    obtain ⟨_, h2, h3⟩ := Memory.wf_cons.1 h
    unfold Memory.write
    split_ifs with c1 c2 c3 c4
    · rw [c2]; exact Memory.read_above (fun c hc => by
        rcases List.mem_cons.1 hc with rfl | hc
        · exact c1
        · exact lt_trans c1 (h2 c hc))
    · simp [Memory.read]
    · rw [c4, c3]; exact Memory.read_above h2
    · simp [Memory.read, c3]
    · have : ¬ k = a := fun e => c3 e.symm
      simp only [Memory.read, this, if_false]; exact ih h3

/-- A write leaves every other byte alone. -/
theorem Memory.read_write_ne (m : Memory) {a b : Nat} (v : Byte) (h : b ≠ a) : (m.write a v).read b = m.read b := by
  induction m with
  | nil => unfold Memory.write; split <;> simp [Memory.read, Ne.symm h]
  | cons c rest ih =>
    obtain ⟨k, w⟩ := c
    unfold Memory.write
    split_ifs with c1 c2 c3 c4
    · rfl
    · simp [Memory.read, Ne.symm h]
    · subst c3; simp [Memory.read, Ne.symm h]
    · subst c3; simp [Memory.read, Ne.symm h]
    · simp only [Memory.read, ih]

theorem Memory.writeAll_wf {m : Memory} (h : m.wf = true) (a : Nat) (bs : List Byte) : (m.writeAll a bs).wf = true := by
  induction bs generalizing m a with
  | nil => exact h
  | cons b rest ih => exact ih (Memory.write_wf h a b) (a + 1)

theorem Memory.read_writeAll_out (m : Memory) (a b : Nat) (bs : List Byte) (h : b < a ∨ a + bs.length ≤ b) :
    (m.writeAll a bs).read b = m.read b := by
  induction bs generalizing m a with
  | nil => rfl
  | cons x rest ih =>
    simp only [List.length_cons] at h
    rw [Memory.writeAll, ih _ _ (by omega), Memory.read_write_ne _ _ (by omega)]

theorem Memory.read_writeAll_in {m : Memory} (h : m.wf = true) (a i : Nat) (bs : List Byte) (hi : i < bs.length) :
    (m.writeAll a bs).read (a + i) = bs[i] := by
  induction bs generalizing m a i with
  | nil => simp at hi
  | cons x rest ih =>
    cases i with
    | zero =>
      rw [Memory.writeAll, Memory.read_writeAll_out _ _ _ _ (by omega)]; exact Memory.read_write_same h a x
    | succ j =>
      rw [Memory.writeAll, show a + (j + 1) = a + 1 + j by omega]
      exact ih (Memory.write_wf h a x) (a + 1) j (by simpa using hi)

theorem Memory.ofCells_wf (size : Nat) (cs : List Host.Cell) : (Memory.ofCells size cs).wf = true := by
  induction cs with
  | nil => rfl
  | cons c rest ih => obtain ⟨k, v⟩ := c; unfold Memory.ofCells; split <;> first | exact Memory.write_wf ih _ _ | exact ih

theorem Memory.length_readAll (m : Memory) (a n : Nat) : (m.readAll a n).length = n := by
  induction n generalizing a with
  | zero => rfl
  | succ n ih => simp [Memory.readAll, ih]

theorem Memory.getElem_readAll (m : Memory) (a n i : Nat) (h : i < n) :
    (m.readAll a n)[i]'(by rw [Memory.length_readAll]; exact h) = m.read (a + i) := by
  induction n generalizing a i with
  | zero => omega
  | succ n ih =>
    cases i with
    | zero => rfl
    | succ j => simp only [Memory.readAll, List.getElem_cons_succ]; rw [ih (a + 1) j (by omega)]; congr 1; omega

theorem Memory.readAll_congr {m q : Memory} {a n : Nat} (h : ∀ i, i < n → m.read (a + i) = q.read (a + i)) :
    m.readAll a n = q.readAll a n := by
  induction n generalizing a with
  | zero => rfl
  | succ n ih =>
    simp only [Memory.readAll]
    rw [show m.read a = q.read a by simpa using h 0 (by omega), ih (fun i hi => by
      have := h (i + 1) (by omega); rwa [show a + (i + 1) = a + 1 + i by omega] at this)]

/-- Bytes read back are the bytes written. -/
theorem Memory.readAll_writeAll {m : Memory} (h : m.wf = true) (a : Nat) (bs : List Byte) :
    (m.writeAll a bs).readAll a bs.length = bs := by
  apply List.ext_getElem
  · exact Memory.length_readAll _ _ _
  · intro i h1 h2
    rw [Memory.getElem_readAll _ _ _ _ h2, Memory.read_writeAll_in h _ _ _ h2]

theorem State.reset_mem_wf : State.reset.mem.wf = true := rfl

end Sys2Proof.Machine
end

