-- ==== Sys2Proof/Laws/State.lean ====
section
/-! SUPPORT. What each named update of State writes and what it leaves alone: one lemma per field per update. -/

namespace Sys2Proof

/-! ## One per side, one per product -/

@[simp] theorem Sides.get_set_same {α : Type} (x : Sides α) (d : Side) (v : α) : (x.set d v).get d = v := by cases d <;> rfl
@[simp] theorem Sides.get_set_other {α : Type} (x : Sides α) (d : Side) (v : α) : (x.set d v).get d.other = x.get d.other := by
  cases d <;> rfl
theorem Sides.get_set_ne {α : Type} (x : Sides α) {d e : Side} (v : α) (h : e ≠ d) : (x.set d v).get e = x.get e := by
  cases d <;> cases e <;> first | rfl | exact absurd rfl h
@[simp] theorem Sides.set_get {α : Type} (x : Sides α) (d : Side) : x.set d (x.get d) = x := by cases d <;> rfl
@[simp] theorem Sides.set_set {α : Type} (x : Sides α) (d : Side) (v w : α) : (x.set d v).set d w = x.set d w := by cases d <;> rfl
theorem Sides.ext_get {α : Type} {x y : Sides α} (h : ∀ d, x.get d = y.get d) : x = y := by
  have ha := h .a; have hb := h .b; cases x; cases y; simp_all [Sides.get]
@[simp] theorem Three.get_set_same {α : Type} (x : Three α) (d : Product) (v : α) : (x.set d v).get d = v := by cases d <;> rfl
theorem Three.get_set_ne {α : Type} (x : Three α) {d e : Product} (v : α) (h : e ≠ d) : (x.set d v).get e = x.get e := by
  cases d <;> cases e <;> first | rfl | exact absurd rfl h
@[simp] theorem Three.set_get {α : Type} (x : Three α) (d : Product) : x.set d (x.get d) = x := by cases d <;> rfl
@[simp] theorem Three.set_set {α : Type} (x : Three α) (d : Product) (v w : α) : (x.set d v).set d w = x.set d w := by cases d <;> rfl
@[simp] theorem Three.get_map {α β : Type} (x : Three α) (f : α → β) (p : Product) : (x.map f).get p = f (x.get p) := by cases p <;> rfl
theorem Three.ext_get {α : Type} {x y : Three α} (h : ∀ d, x.get d = y.get d) : x = y := by
  have h1 := h .p1; have h2 := h .p2; have h3 := h .p3; cases x; cases y; simp_all [Three.get]
@[simp] theorem Eight.get_set_same {α : Type} (x : Eight α) (r : Role) (v : α) : (x.set r v).get r = v := by cases r <;> rfl
theorem Eight.get_set_ne {α : Type} (x : Eight α) {r q : Role} (v : α) (h : q ≠ r) : (x.set r v).get q = x.get q := by
  cases r <;> cases q <;> first | rfl | exact absurd rfl h
@[simp] theorem Eight.get_ofFun {α : Type} (f : Role → α) (r : Role) : (Eight.ofFun f).get r = f r := by cases r <;> rfl
@[simp] theorem Five.get_set_same {α : Type} (x : Five α) (g : Grade) (v : α) : (x.set g v).get g = v := by cases g <;> rfl
theorem Five.get_set_ne {α : Type} (x : Five α) {g k : Grade} (v : α) (h : k ≠ g) : (x.set g v).get k = x.get k := by
  cases g <;> cases k <;> first | rfl | exact absurd rfl h
@[simp] theorem Five.get_ofFun {α : Type} (f : Grade → α) (g : Grade) : (Five.ofFun f).get g = f g := by cases g <;> rfl
@[simp] theorem Side.other_ne (d : Side) : d.other ≠ d := by cases d <;> decide
@[simp] theorem Side.ne_other (d : Side) : d ≠ d.other := by cases d <;> decide
@[simp] theorem Side.other_other (d : Side) : d.other.other = d := by cases d <;> rfl

end Sys2Proof

namespace Sys2Proof.Machine


/-! ## Revisions.wroteTo -/

@[simp] theorem Revisions.wroteTo_device (r : Revisions) (ps : List RetPart) : (r.wroteTo ps).device = r.device := rfl
@[simp] theorem Revisions.wroteTo_fp (r : Revisions) (ps : List RetPart) : (r.wroteTo ps).fp = r.fp := rfl
@[simp] theorem Revisions.wroteTo_table (r : Revisions) (ps : List RetPart) : (r.wroteTo ps).table = r.table := rfl
@[simp] theorem Revisions.wroteTo_price (r : Revisions) (ps : List RetPart) : (r.wroteTo ps).price = r.price := rfl
@[simp] theorem Revisions.wroteTo_meters (r : Revisions) (ps : List RetPart) : (r.wroteTo ps).meters = r.meters := rfl
@[simp] theorem Revisions.wroteTo_halt (r : Revisions) (ps : List RetPart) : (r.wroteTo ps).halt = r.halt := rfl
@[simp] theorem Revisions.wroteTo_readers (r : Revisions) (ps : List RetPart) : (r.wroteTo ps).readers = r.readers := rfl
@[simp] theorem Revisions.wroteTo_mirror (r : Revisions) (ps : List RetPart) : (r.wroteTo ps).mirror = r.mirror := rfl
@[simp] theorem Revisions.wroteTo_force (r : Revisions) (ps : List RetPart) : (r.wroteTo ps).force = r.force := rfl
@[simp] theorem Revisions.wroteTo_reads (r : Revisions) (ps : List RetPart) : (r.wroteTo ps).reads = r.reads := rfl
@[simp] theorem Revisions.wroteTo_wrote (r : Revisions) (ps : List RetPart) : (r.wroteTo ps).wrote = r.wrote ++ ps := rfl

/-! ## updFp -/

@[simp] theorem State.updFp_pending (s : State) (d : Side) (f : FuelPoint → FuelPoint) : (s.updFp d f).pending = s.pending := rfl
@[simp] theorem State.updFp_readBack (s : State) (d : Side) (f : FuelPoint → FuelPoint) : (s.updFp d f).readBack = s.readBack := rfl
@[simp] theorem State.updFp_free (s : State) (d : Side) (f : FuelPoint → FuelPoint) : (s.updFp d f).free = s.free := rfl
@[simp] theorem State.updFp_pw (s : State) (d : Side) (f : FuelPoint → FuelPoint) : (s.updFp d f).pw = s.pw := rfl
@[simp] theorem State.updFp_rtc (s : State) (d : Side) (f : FuelPoint → FuelPoint) : (s.updFp d f).rtc = s.rtc := rfl
@[simp] theorem State.updFp_ret (s : State) (d : Side) (f : FuelPoint → FuelPoint) : (s.updFp d f).ret = s.ret := rfl
@[simp] theorem State.updFp_port (s : State) (d : Side) (f : FuelPoint → FuelPoint) : (s.updFp d f).port = s.port := rfl
@[simp] theorem State.updFp_mem (s : State) (d : Side) (f : FuelPoint → FuelPoint) : (s.updFp d f).mem = s.mem := rfl
@[simp] theorem State.updFp_rev (s : State) (d : Side) (f : FuelPoint → FuelPoint) : (s.updFp d f).rev = s.rev := rfl
@[simp] theorem State.updFp_fp (s : State) (d : Side) (f : FuelPoint → FuelPoint) : (s.updFp d f).fp = s.fp.set d (f (s.fp.get d)) := rfl
@[simp] theorem State.updFp_met (s : State) (d : Side) (f : FuelPoint → FuelPoint) : (s.updFp d f).met = s.met := rfl
@[simp] theorem State.updFp_vlv (s : State) (d : Side) (f : FuelPoint → FuelPoint) : (s.updFp d f).vlv = s.vlv := rfl
@[simp] theorem State.updFp_mot (s : State) (d : Side) (f : FuelPoint → FuelPoint) : (s.updFp d f).mot = s.mot := rfl
@[simp] theorem State.updFp_price (s : State) (d : Side) (f : FuelPoint → FuelPoint) : (s.updFp d f).price = s.price := rfl
@[simp] theorem State.updFp_disp (s : State) (d : Side) (f : FuelPoint → FuelPoint) : (s.updFp d f).disp = s.disp := rfl
@[simp] theorem State.updFp_rdr (s : State) (d : Side) (f : FuelPoint → FuelPoint) : (s.updFp d f).rdr = s.rdr := rfl
@[simp] theorem State.updFp_halt (s : State) (d : Side) (f : FuelPoint → FuelPoint) : (s.updFp d f).halt = s.halt := rfl
@[simp] theorem State.updFp_store (s : State) (d : Side) (f : FuelPoint → FuelPoint) : (s.updFp d f).store = s.store := rfl

/-! ## updRetSide -/

@[simp] theorem State.updRetSide_pending (s : State) (d : Side) (ps : List SidePart) (f : RetSide → RetSide) : (s.updRetSide d ps f).pending = s.pending := rfl
@[simp] theorem State.updRetSide_readBack (s : State) (d : Side) (ps : List SidePart) (f : RetSide → RetSide) : (s.updRetSide d ps f).readBack = s.readBack := rfl
@[simp] theorem State.updRetSide_free (s : State) (d : Side) (ps : List SidePart) (f : RetSide → RetSide) : (s.updRetSide d ps f).free = s.free := rfl
@[simp] theorem State.updRetSide_pw (s : State) (d : Side) (ps : List SidePart) (f : RetSide → RetSide) : (s.updRetSide d ps f).pw = s.pw := rfl
@[simp] theorem State.updRetSide_rtc (s : State) (d : Side) (ps : List SidePart) (f : RetSide → RetSide) : (s.updRetSide d ps f).rtc = s.rtc := rfl
@[simp] theorem State.updRetSide_ret (s : State) (d : Side) (ps : List SidePart) (f : RetSide → RetSide) : (s.updRetSide d ps f).ret = { s.ret with sides := s.ret.sides.set d (f (s.ret.sides.get d)) } := rfl
@[simp] theorem State.updRetSide_port (s : State) (d : Side) (ps : List SidePart) (f : RetSide → RetSide) : (s.updRetSide d ps f).port = s.port := rfl
@[simp] theorem State.updRetSide_mem (s : State) (d : Side) (ps : List SidePart) (f : RetSide → RetSide) : (s.updRetSide d ps f).mem = s.mem := rfl
@[simp] theorem State.updRetSide_rev (s : State) (d : Side) (ps : List SidePart) (f : RetSide → RetSide) : (s.updRetSide d ps f).rev = s.rev.wroteTo (ps.map (RetPart.side d)) := rfl
@[simp] theorem State.updRetSide_fp (s : State) (d : Side) (ps : List SidePart) (f : RetSide → RetSide) : (s.updRetSide d ps f).fp = s.fp := rfl
@[simp] theorem State.updRetSide_met (s : State) (d : Side) (ps : List SidePart) (f : RetSide → RetSide) : (s.updRetSide d ps f).met = s.met := rfl
@[simp] theorem State.updRetSide_vlv (s : State) (d : Side) (ps : List SidePart) (f : RetSide → RetSide) : (s.updRetSide d ps f).vlv = s.vlv := rfl
@[simp] theorem State.updRetSide_mot (s : State) (d : Side) (ps : List SidePart) (f : RetSide → RetSide) : (s.updRetSide d ps f).mot = s.mot := rfl
@[simp] theorem State.updRetSide_price (s : State) (d : Side) (ps : List SidePart) (f : RetSide → RetSide) : (s.updRetSide d ps f).price = s.price := rfl
@[simp] theorem State.updRetSide_disp (s : State) (d : Side) (ps : List SidePart) (f : RetSide → RetSide) : (s.updRetSide d ps f).disp = s.disp := rfl
@[simp] theorem State.updRetSide_rdr (s : State) (d : Side) (ps : List SidePart) (f : RetSide → RetSide) : (s.updRetSide d ps f).rdr = s.rdr := rfl
@[simp] theorem State.updRetSide_halt (s : State) (d : Side) (ps : List SidePart) (f : RetSide → RetSide) : (s.updRetSide d ps f).halt = s.halt := rfl
@[simp] theorem State.updRetSide_store (s : State) (d : Side) (ps : List SidePart) (f : RetSide → RetSide) : (s.updRetSide d ps f).store = s.store := rfl

/-! ## updSale -/

@[simp] theorem State.updSale_pending (s : State) (d : Side) (ps : List SalePart) (f : Sale → Sale) : (s.updSale d ps f).pending = s.pending := rfl
@[simp] theorem State.updSale_readBack (s : State) (d : Side) (ps : List SalePart) (f : Sale → Sale) : (s.updSale d ps f).readBack = s.readBack := rfl
@[simp] theorem State.updSale_free (s : State) (d : Side) (ps : List SalePart) (f : Sale → Sale) : (s.updSale d ps f).free = s.free := rfl
@[simp] theorem State.updSale_pw (s : State) (d : Side) (ps : List SalePart) (f : Sale → Sale) : (s.updSale d ps f).pw = s.pw := rfl
@[simp] theorem State.updSale_rtc (s : State) (d : Side) (ps : List SalePart) (f : Sale → Sale) : (s.updSale d ps f).rtc = s.rtc := rfl
@[simp] theorem State.updSale_ret (s : State) (d : Side) (ps : List SalePart) (f : Sale → Sale) : (s.updSale d ps f).ret = { s.ret with sides := s.ret.sides.set d { s.ret.sides.get d with sale := f (s.ret.sides.get d).sale } } := rfl
@[simp] theorem State.updSale_port (s : State) (d : Side) (ps : List SalePart) (f : Sale → Sale) : (s.updSale d ps f).port = s.port := rfl
@[simp] theorem State.updSale_mem (s : State) (d : Side) (ps : List SalePart) (f : Sale → Sale) : (s.updSale d ps f).mem = s.mem := rfl
@[simp] theorem State.updSale_rev (s : State) (d : Side) (ps : List SalePart) (f : Sale → Sale) : (s.updSale d ps f).rev = s.rev.wroteTo ((ps.map SidePart.sale).map (RetPart.side d)) := rfl
@[simp] theorem State.updSale_fp (s : State) (d : Side) (ps : List SalePart) (f : Sale → Sale) : (s.updSale d ps f).fp = s.fp := rfl
@[simp] theorem State.updSale_met (s : State) (d : Side) (ps : List SalePart) (f : Sale → Sale) : (s.updSale d ps f).met = s.met := rfl
@[simp] theorem State.updSale_vlv (s : State) (d : Side) (ps : List SalePart) (f : Sale → Sale) : (s.updSale d ps f).vlv = s.vlv := rfl
@[simp] theorem State.updSale_mot (s : State) (d : Side) (ps : List SalePart) (f : Sale → Sale) : (s.updSale d ps f).mot = s.mot := rfl
@[simp] theorem State.updSale_price (s : State) (d : Side) (ps : List SalePart) (f : Sale → Sale) : (s.updSale d ps f).price = s.price := rfl
@[simp] theorem State.updSale_disp (s : State) (d : Side) (ps : List SalePart) (f : Sale → Sale) : (s.updSale d ps f).disp = s.disp := rfl
@[simp] theorem State.updSale_rdr (s : State) (d : Side) (ps : List SalePart) (f : Sale → Sale) : (s.updSale d ps f).rdr = s.rdr := rfl
@[simp] theorem State.updSale_halt (s : State) (d : Side) (ps : List SalePart) (f : Sale → Sale) : (s.updSale d ps f).halt = s.halt := rfl
@[simp] theorem State.updSale_store (s : State) (d : Side) (ps : List SalePart) (f : Sale → Sale) : (s.updSale d ps f).store = s.store := rfl

/-! ## updMeter -/

@[simp] theorem State.updMeter_pending (s : State) (m : Meter) (f : Channel → Channel) : (s.updMeter m f).pending = s.pending := rfl
@[simp] theorem State.updMeter_readBack (s : State) (m : Meter) (f : Channel → Channel) : (s.updMeter m f).readBack = s.readBack := rfl
@[simp] theorem State.updMeter_free (s : State) (m : Meter) (f : Channel → Channel) : (s.updMeter m f).free = s.free := rfl
@[simp] theorem State.updMeter_pw (s : State) (m : Meter) (f : Channel → Channel) : (s.updMeter m f).pw = s.pw := rfl
@[simp] theorem State.updMeter_rtc (s : State) (m : Meter) (f : Channel → Channel) : (s.updMeter m f).rtc = s.rtc := rfl
@[simp] theorem State.updMeter_ret (s : State) (m : Meter) (f : Channel → Channel) : (s.updMeter m f).ret = s.ret := rfl
@[simp] theorem State.updMeter_port (s : State) (m : Meter) (f : Channel → Channel) : (s.updMeter m f).port = s.port := rfl
@[simp] theorem State.updMeter_mem (s : State) (m : Meter) (f : Channel → Channel) : (s.updMeter m f).mem = s.mem := rfl
@[simp] theorem State.updMeter_rev (s : State) (m : Meter) (f : Channel → Channel) : (s.updMeter m f).rev = s.rev := rfl
@[simp] theorem State.updMeter_fp (s : State) (m : Meter) (f : Channel → Channel) : (s.updMeter m f).fp = s.fp := rfl
@[simp] theorem State.updMeter_met (s : State) (m : Meter) (f : Channel → Channel) : (s.updMeter m f).met = s.met.set m.side ((s.met.get m.side).set m.product (f ((s.met.get m.side).get m.product))) := rfl
@[simp] theorem State.updMeter_vlv (s : State) (m : Meter) (f : Channel → Channel) : (s.updMeter m f).vlv = s.vlv := rfl
@[simp] theorem State.updMeter_mot (s : State) (m : Meter) (f : Channel → Channel) : (s.updMeter m f).mot = s.mot := rfl
@[simp] theorem State.updMeter_price (s : State) (m : Meter) (f : Channel → Channel) : (s.updMeter m f).price = s.price := rfl
@[simp] theorem State.updMeter_disp (s : State) (m : Meter) (f : Channel → Channel) : (s.updMeter m f).disp = s.disp := rfl
@[simp] theorem State.updMeter_rdr (s : State) (m : Meter) (f : Channel → Channel) : (s.updMeter m f).rdr = s.rdr := rfl
@[simp] theorem State.updMeter_halt (s : State) (m : Meter) (f : Channel → Channel) : (s.updMeter m f).halt = s.halt := rfl
@[simp] theorem State.updMeter_store (s : State) (m : Meter) (f : Channel → Channel) : (s.updMeter m f).store = s.store := rfl

/-! ## updRetMeter -/

@[simp] theorem State.updRetMeter_pending (s : State) (m : Meter) (ps : List RetPart) (f : RetMeter → RetMeter) : (s.updRetMeter m ps f).pending = s.pending := rfl
@[simp] theorem State.updRetMeter_readBack (s : State) (m : Meter) (ps : List RetPart) (f : RetMeter → RetMeter) : (s.updRetMeter m ps f).readBack = s.readBack := rfl
@[simp] theorem State.updRetMeter_free (s : State) (m : Meter) (ps : List RetPart) (f : RetMeter → RetMeter) : (s.updRetMeter m ps f).free = s.free := rfl
@[simp] theorem State.updRetMeter_pw (s : State) (m : Meter) (ps : List RetPart) (f : RetMeter → RetMeter) : (s.updRetMeter m ps f).pw = s.pw := rfl
@[simp] theorem State.updRetMeter_rtc (s : State) (m : Meter) (ps : List RetPart) (f : RetMeter → RetMeter) : (s.updRetMeter m ps f).rtc = s.rtc := rfl
@[simp] theorem State.updRetMeter_ret (s : State) (m : Meter) (ps : List RetPart) (f : RetMeter → RetMeter) : (s.updRetMeter m ps f).ret = { s.ret with meters := s.ret.meters.set m.side ((s.ret.meters.get m.side).set m.product (f ((s.ret.meters.get m.side).get m.product))) } := rfl
@[simp] theorem State.updRetMeter_port (s : State) (m : Meter) (ps : List RetPart) (f : RetMeter → RetMeter) : (s.updRetMeter m ps f).port = s.port := rfl
@[simp] theorem State.updRetMeter_mem (s : State) (m : Meter) (ps : List RetPart) (f : RetMeter → RetMeter) : (s.updRetMeter m ps f).mem = s.mem := rfl
@[simp] theorem State.updRetMeter_rev (s : State) (m : Meter) (ps : List RetPart) (f : RetMeter → RetMeter) : (s.updRetMeter m ps f).rev = s.rev.wroteTo ps := rfl
@[simp] theorem State.updRetMeter_fp (s : State) (m : Meter) (ps : List RetPart) (f : RetMeter → RetMeter) : (s.updRetMeter m ps f).fp = s.fp := rfl
@[simp] theorem State.updRetMeter_met (s : State) (m : Meter) (ps : List RetPart) (f : RetMeter → RetMeter) : (s.updRetMeter m ps f).met = s.met := rfl
@[simp] theorem State.updRetMeter_vlv (s : State) (m : Meter) (ps : List RetPart) (f : RetMeter → RetMeter) : (s.updRetMeter m ps f).vlv = s.vlv := rfl
@[simp] theorem State.updRetMeter_mot (s : State) (m : Meter) (ps : List RetPart) (f : RetMeter → RetMeter) : (s.updRetMeter m ps f).mot = s.mot := rfl
@[simp] theorem State.updRetMeter_price (s : State) (m : Meter) (ps : List RetPart) (f : RetMeter → RetMeter) : (s.updRetMeter m ps f).price = s.price := rfl
@[simp] theorem State.updRetMeter_disp (s : State) (m : Meter) (ps : List RetPart) (f : RetMeter → RetMeter) : (s.updRetMeter m ps f).disp = s.disp := rfl
@[simp] theorem State.updRetMeter_rdr (s : State) (m : Meter) (ps : List RetPart) (f : RetMeter → RetMeter) : (s.updRetMeter m ps f).rdr = s.rdr := rfl
@[simp] theorem State.updRetMeter_halt (s : State) (m : Meter) (ps : List RetPart) (f : RetMeter → RetMeter) : (s.updRetMeter m ps f).halt = s.halt := rfl
@[simp] theorem State.updRetMeter_store (s : State) (m : Meter) (ps : List RetPart) (f : RetMeter → RetMeter) : (s.updRetMeter m ps f).store = s.store := rfl

/-! ## updValveSide -/

@[simp] theorem State.updValveSide_pending (s : State) (d : Side) (f : ValveSide → ValveSide) : (s.updValveSide d f).pending = s.pending := rfl
@[simp] theorem State.updValveSide_readBack (s : State) (d : Side) (f : ValveSide → ValveSide) : (s.updValveSide d f).readBack = s.readBack := rfl
@[simp] theorem State.updValveSide_free (s : State) (d : Side) (f : ValveSide → ValveSide) : (s.updValveSide d f).free = s.free := rfl
@[simp] theorem State.updValveSide_pw (s : State) (d : Side) (f : ValveSide → ValveSide) : (s.updValveSide d f).pw = s.pw := rfl
@[simp] theorem State.updValveSide_rtc (s : State) (d : Side) (f : ValveSide → ValveSide) : (s.updValveSide d f).rtc = s.rtc := rfl
@[simp] theorem State.updValveSide_ret (s : State) (d : Side) (f : ValveSide → ValveSide) : (s.updValveSide d f).ret = s.ret := rfl
@[simp] theorem State.updValveSide_port (s : State) (d : Side) (f : ValveSide → ValveSide) : (s.updValveSide d f).port = s.port := rfl
@[simp] theorem State.updValveSide_mem (s : State) (d : Side) (f : ValveSide → ValveSide) : (s.updValveSide d f).mem = s.mem := rfl
@[simp] theorem State.updValveSide_rev (s : State) (d : Side) (f : ValveSide → ValveSide) : (s.updValveSide d f).rev = s.rev := rfl
@[simp] theorem State.updValveSide_fp (s : State) (d : Side) (f : ValveSide → ValveSide) : (s.updValveSide d f).fp = s.fp := rfl
@[simp] theorem State.updValveSide_met (s : State) (d : Side) (f : ValveSide → ValveSide) : (s.updValveSide d f).met = s.met := rfl
@[simp] theorem State.updValveSide_vlv (s : State) (d : Side) (f : ValveSide → ValveSide) : (s.updValveSide d f).vlv = s.vlv.set d (f (s.vlv.get d)) := rfl
@[simp] theorem State.updValveSide_mot (s : State) (d : Side) (f : ValveSide → ValveSide) : (s.updValveSide d f).mot = s.mot := rfl
@[simp] theorem State.updValveSide_price (s : State) (d : Side) (f : ValveSide → ValveSide) : (s.updValveSide d f).price = s.price := rfl
@[simp] theorem State.updValveSide_disp (s : State) (d : Side) (f : ValveSide → ValveSide) : (s.updValveSide d f).disp = s.disp := rfl
@[simp] theorem State.updValveSide_rdr (s : State) (d : Side) (f : ValveSide → ValveSide) : (s.updValveSide d f).rdr = s.rdr := rfl
@[simp] theorem State.updValveSide_halt (s : State) (d : Side) (f : ValveSide → ValveSide) : (s.updValveSide d f).halt = s.halt := rfl
@[simp] theorem State.updValveSide_store (s : State) (d : Side) (f : ValveSide → ValveSide) : (s.updValveSide d f).store = s.store := rfl

/-! ## updValve -/

@[simp] theorem State.updValve_pending (s : State) (v : Meter) (f : ValveDrive → ValveDrive) : (s.updValve v f).pending = s.pending := rfl
@[simp] theorem State.updValve_readBack (s : State) (v : Meter) (f : ValveDrive → ValveDrive) : (s.updValve v f).readBack = s.readBack := rfl
@[simp] theorem State.updValve_free (s : State) (v : Meter) (f : ValveDrive → ValveDrive) : (s.updValve v f).free = s.free := rfl
@[simp] theorem State.updValve_pw (s : State) (v : Meter) (f : ValveDrive → ValveDrive) : (s.updValve v f).pw = s.pw := rfl
@[simp] theorem State.updValve_rtc (s : State) (v : Meter) (f : ValveDrive → ValveDrive) : (s.updValve v f).rtc = s.rtc := rfl
@[simp] theorem State.updValve_ret (s : State) (v : Meter) (f : ValveDrive → ValveDrive) : (s.updValve v f).ret = s.ret := rfl
@[simp] theorem State.updValve_port (s : State) (v : Meter) (f : ValveDrive → ValveDrive) : (s.updValve v f).port = s.port := rfl
@[simp] theorem State.updValve_mem (s : State) (v : Meter) (f : ValveDrive → ValveDrive) : (s.updValve v f).mem = s.mem := rfl
@[simp] theorem State.updValve_rev (s : State) (v : Meter) (f : ValveDrive → ValveDrive) : (s.updValve v f).rev = s.rev := rfl
@[simp] theorem State.updValve_fp (s : State) (v : Meter) (f : ValveDrive → ValveDrive) : (s.updValve v f).fp = s.fp := rfl
@[simp] theorem State.updValve_met (s : State) (v : Meter) (f : ValveDrive → ValveDrive) : (s.updValve v f).met = s.met := rfl
@[simp] theorem State.updValve_vlv (s : State) (v : Meter) (f : ValveDrive → ValveDrive) : (s.updValve v f).vlv = s.vlv.set v.side { s.vlv.get v.side with valves := (s.vlv.get v.side).valves.set v.product (f ((s.vlv.get v.side).valves.get v.product)) } := rfl
@[simp] theorem State.updValve_mot (s : State) (v : Meter) (f : ValveDrive → ValveDrive) : (s.updValve v f).mot = s.mot := rfl
@[simp] theorem State.updValve_price (s : State) (v : Meter) (f : ValveDrive → ValveDrive) : (s.updValve v f).price = s.price := rfl
@[simp] theorem State.updValve_disp (s : State) (v : Meter) (f : ValveDrive → ValveDrive) : (s.updValve v f).disp = s.disp := rfl
@[simp] theorem State.updValve_rdr (s : State) (v : Meter) (f : ValveDrive → ValveDrive) : (s.updValve v f).rdr = s.rdr := rfl
@[simp] theorem State.updValve_halt (s : State) (v : Meter) (f : ValveDrive → ValveDrive) : (s.updValve v f).halt = s.halt := rfl
@[simp] theorem State.updValve_store (s : State) (v : Meter) (f : ValveDrive → ValveDrive) : (s.updValve v f).store = s.store := rfl

/-! ## updBlend -/

@[simp] theorem State.updBlend_pending (s : State) (d : Side) (f : BlendLoop → BlendLoop) : (s.updBlend d f).pending = s.pending := rfl
@[simp] theorem State.updBlend_readBack (s : State) (d : Side) (f : BlendLoop → BlendLoop) : (s.updBlend d f).readBack = s.readBack := rfl
@[simp] theorem State.updBlend_free (s : State) (d : Side) (f : BlendLoop → BlendLoop) : (s.updBlend d f).free = s.free := rfl
@[simp] theorem State.updBlend_pw (s : State) (d : Side) (f : BlendLoop → BlendLoop) : (s.updBlend d f).pw = s.pw := rfl
@[simp] theorem State.updBlend_rtc (s : State) (d : Side) (f : BlendLoop → BlendLoop) : (s.updBlend d f).rtc = s.rtc := rfl
@[simp] theorem State.updBlend_ret (s : State) (d : Side) (f : BlendLoop → BlendLoop) : (s.updBlend d f).ret = s.ret := rfl
@[simp] theorem State.updBlend_port (s : State) (d : Side) (f : BlendLoop → BlendLoop) : (s.updBlend d f).port = s.port := rfl
@[simp] theorem State.updBlend_mem (s : State) (d : Side) (f : BlendLoop → BlendLoop) : (s.updBlend d f).mem = s.mem := rfl
@[simp] theorem State.updBlend_rev (s : State) (d : Side) (f : BlendLoop → BlendLoop) : (s.updBlend d f).rev = s.rev := rfl
@[simp] theorem State.updBlend_fp (s : State) (d : Side) (f : BlendLoop → BlendLoop) : (s.updBlend d f).fp = s.fp := rfl
@[simp] theorem State.updBlend_met (s : State) (d : Side) (f : BlendLoop → BlendLoop) : (s.updBlend d f).met = s.met := rfl
@[simp] theorem State.updBlend_vlv (s : State) (d : Side) (f : BlendLoop → BlendLoop) : (s.updBlend d f).vlv = s.vlv.set d { s.vlv.get d with blend := f (s.vlv.get d).blend } := rfl
@[simp] theorem State.updBlend_mot (s : State) (d : Side) (f : BlendLoop → BlendLoop) : (s.updBlend d f).mot = s.mot := rfl
@[simp] theorem State.updBlend_price (s : State) (d : Side) (f : BlendLoop → BlendLoop) : (s.updBlend d f).price = s.price := rfl
@[simp] theorem State.updBlend_disp (s : State) (d : Side) (f : BlendLoop → BlendLoop) : (s.updBlend d f).disp = s.disp := rfl
@[simp] theorem State.updBlend_rdr (s : State) (d : Side) (f : BlendLoop → BlendLoop) : (s.updBlend d f).rdr = s.rdr := rfl
@[simp] theorem State.updBlend_halt (s : State) (d : Side) (f : BlendLoop → BlendLoop) : (s.updBlend d f).halt = s.halt := rfl
@[simp] theorem State.updBlend_store (s : State) (d : Side) (f : BlendLoop → BlendLoop) : (s.updBlend d f).store = s.store := rfl

/-! ## updMotor -/

@[simp] theorem State.updMotor_pending (s : State) (m : Product) (f : MotorRec → MotorRec) : (s.updMotor m f).pending = s.pending := rfl
@[simp] theorem State.updMotor_readBack (s : State) (m : Product) (f : MotorRec → MotorRec) : (s.updMotor m f).readBack = s.readBack := rfl
@[simp] theorem State.updMotor_free (s : State) (m : Product) (f : MotorRec → MotorRec) : (s.updMotor m f).free = s.free := rfl
@[simp] theorem State.updMotor_pw (s : State) (m : Product) (f : MotorRec → MotorRec) : (s.updMotor m f).pw = s.pw := rfl
@[simp] theorem State.updMotor_rtc (s : State) (m : Product) (f : MotorRec → MotorRec) : (s.updMotor m f).rtc = s.rtc := rfl
@[simp] theorem State.updMotor_ret (s : State) (m : Product) (f : MotorRec → MotorRec) : (s.updMotor m f).ret = s.ret := rfl
@[simp] theorem State.updMotor_port (s : State) (m : Product) (f : MotorRec → MotorRec) : (s.updMotor m f).port = s.port := rfl
@[simp] theorem State.updMotor_mem (s : State) (m : Product) (f : MotorRec → MotorRec) : (s.updMotor m f).mem = s.mem := rfl
@[simp] theorem State.updMotor_rev (s : State) (m : Product) (f : MotorRec → MotorRec) : (s.updMotor m f).rev = s.rev := rfl
@[simp] theorem State.updMotor_fp (s : State) (m : Product) (f : MotorRec → MotorRec) : (s.updMotor m f).fp = s.fp := rfl
@[simp] theorem State.updMotor_met (s : State) (m : Product) (f : MotorRec → MotorRec) : (s.updMotor m f).met = s.met := rfl
@[simp] theorem State.updMotor_vlv (s : State) (m : Product) (f : MotorRec → MotorRec) : (s.updMotor m f).vlv = s.vlv := rfl
@[simp] theorem State.updMotor_mot (s : State) (m : Product) (f : MotorRec → MotorRec) : (s.updMotor m f).mot = { s.mot with recs := s.mot.recs.set m (f (s.mot.recs.get m)) } := rfl
@[simp] theorem State.updMotor_price (s : State) (m : Product) (f : MotorRec → MotorRec) : (s.updMotor m f).price = s.price := rfl
@[simp] theorem State.updMotor_disp (s : State) (m : Product) (f : MotorRec → MotorRec) : (s.updMotor m f).disp = s.disp := rfl
@[simp] theorem State.updMotor_rdr (s : State) (m : Product) (f : MotorRec → MotorRec) : (s.updMotor m f).rdr = s.rdr := rfl
@[simp] theorem State.updMotor_halt (s : State) (m : Product) (f : MotorRec → MotorRec) : (s.updMotor m f).halt = s.halt := rfl
@[simp] theorem State.updMotor_store (s : State) (m : Product) (f : MotorRec → MotorRec) : (s.updMotor m f).store = s.store := rfl

/-! ## setStartQueue -/

@[simp] theorem State.setStartQueue_pending (s : State) (q : List Product) : (s.setStartQueue q).pending = s.pending := rfl
@[simp] theorem State.setStartQueue_readBack (s : State) (q : List Product) : (s.setStartQueue q).readBack = s.readBack := rfl
@[simp] theorem State.setStartQueue_free (s : State) (q : List Product) : (s.setStartQueue q).free = s.free := rfl
@[simp] theorem State.setStartQueue_pw (s : State) (q : List Product) : (s.setStartQueue q).pw = s.pw := rfl
@[simp] theorem State.setStartQueue_rtc (s : State) (q : List Product) : (s.setStartQueue q).rtc = s.rtc := rfl
@[simp] theorem State.setStartQueue_ret (s : State) (q : List Product) : (s.setStartQueue q).ret = s.ret := rfl
@[simp] theorem State.setStartQueue_port (s : State) (q : List Product) : (s.setStartQueue q).port = s.port := rfl
@[simp] theorem State.setStartQueue_mem (s : State) (q : List Product) : (s.setStartQueue q).mem = s.mem := rfl
@[simp] theorem State.setStartQueue_rev (s : State) (q : List Product) : (s.setStartQueue q).rev = s.rev := rfl
@[simp] theorem State.setStartQueue_fp (s : State) (q : List Product) : (s.setStartQueue q).fp = s.fp := rfl
@[simp] theorem State.setStartQueue_met (s : State) (q : List Product) : (s.setStartQueue q).met = s.met := rfl
@[simp] theorem State.setStartQueue_vlv (s : State) (q : List Product) : (s.setStartQueue q).vlv = s.vlv := rfl
@[simp] theorem State.setStartQueue_mot (s : State) (q : List Product) : (s.setStartQueue q).mot = { s.mot with queue := q } := rfl
@[simp] theorem State.setStartQueue_price (s : State) (q : List Product) : (s.setStartQueue q).price = s.price := rfl
@[simp] theorem State.setStartQueue_disp (s : State) (q : List Product) : (s.setStartQueue q).disp = s.disp := rfl
@[simp] theorem State.setStartQueue_rdr (s : State) (q : List Product) : (s.setStartQueue q).rdr = s.rdr := rfl
@[simp] theorem State.setStartQueue_halt (s : State) (q : List Product) : (s.setStartQueue q).halt = s.halt := rfl
@[simp] theorem State.setStartQueue_store (s : State) (q : List Product) : (s.setStartQueue q).store = s.store := rfl

/-! ## updDisp -/

@[simp] theorem State.updDisp_pending (s : State) (f : Display → Display) : (s.updDisp f).pending = s.pending := rfl
@[simp] theorem State.updDisp_readBack (s : State) (f : Display → Display) : (s.updDisp f).readBack = s.readBack := rfl
@[simp] theorem State.updDisp_free (s : State) (f : Display → Display) : (s.updDisp f).free = s.free := rfl
@[simp] theorem State.updDisp_pw (s : State) (f : Display → Display) : (s.updDisp f).pw = s.pw := rfl
@[simp] theorem State.updDisp_rtc (s : State) (f : Display → Display) : (s.updDisp f).rtc = s.rtc := rfl
@[simp] theorem State.updDisp_ret (s : State) (f : Display → Display) : (s.updDisp f).ret = s.ret := rfl
@[simp] theorem State.updDisp_port (s : State) (f : Display → Display) : (s.updDisp f).port = s.port := rfl
@[simp] theorem State.updDisp_mem (s : State) (f : Display → Display) : (s.updDisp f).mem = s.mem := rfl
@[simp] theorem State.updDisp_rev (s : State) (f : Display → Display) : (s.updDisp f).rev = s.rev := rfl
@[simp] theorem State.updDisp_fp (s : State) (f : Display → Display) : (s.updDisp f).fp = s.fp := rfl
@[simp] theorem State.updDisp_met (s : State) (f : Display → Display) : (s.updDisp f).met = s.met := rfl
@[simp] theorem State.updDisp_vlv (s : State) (f : Display → Display) : (s.updDisp f).vlv = s.vlv := rfl
@[simp] theorem State.updDisp_mot (s : State) (f : Display → Display) : (s.updDisp f).mot = s.mot := rfl
@[simp] theorem State.updDisp_price (s : State) (f : Display → Display) : (s.updDisp f).price = s.price := rfl
@[simp] theorem State.updDisp_disp (s : State) (f : Display → Display) : (s.updDisp f).disp = f s.disp := rfl
@[simp] theorem State.updDisp_rdr (s : State) (f : Display → Display) : (s.updDisp f).rdr = s.rdr := rfl
@[simp] theorem State.updDisp_halt (s : State) (f : Display → Display) : (s.updDisp f).halt = s.halt := rfl
@[simp] theorem State.updDisp_store (s : State) (f : Display → Display) : (s.updDisp f).store = s.store := rfl

/-! ## updHead -/

@[simp] theorem State.updHead_pending (s : State) (r : Role) (f : Head → Head) : (s.updHead r f).pending = s.pending := rfl
@[simp] theorem State.updHead_readBack (s : State) (r : Role) (f : Head → Head) : (s.updHead r f).readBack = s.readBack := rfl
@[simp] theorem State.updHead_free (s : State) (r : Role) (f : Head → Head) : (s.updHead r f).free = s.free := rfl
@[simp] theorem State.updHead_pw (s : State) (r : Role) (f : Head → Head) : (s.updHead r f).pw = s.pw := rfl
@[simp] theorem State.updHead_rtc (s : State) (r : Role) (f : Head → Head) : (s.updHead r f).rtc = s.rtc := rfl
@[simp] theorem State.updHead_ret (s : State) (r : Role) (f : Head → Head) : (s.updHead r f).ret = s.ret := rfl
@[simp] theorem State.updHead_port (s : State) (r : Role) (f : Head → Head) : (s.updHead r f).port = s.port := rfl
@[simp] theorem State.updHead_mem (s : State) (r : Role) (f : Head → Head) : (s.updHead r f).mem = s.mem := rfl
@[simp] theorem State.updHead_rev (s : State) (r : Role) (f : Head → Head) : (s.updHead r f).rev = s.rev := rfl
@[simp] theorem State.updHead_fp (s : State) (r : Role) (f : Head → Head) : (s.updHead r f).fp = s.fp := rfl
@[simp] theorem State.updHead_met (s : State) (r : Role) (f : Head → Head) : (s.updHead r f).met = s.met := rfl
@[simp] theorem State.updHead_vlv (s : State) (r : Role) (f : Head → Head) : (s.updHead r f).vlv = s.vlv := rfl
@[simp] theorem State.updHead_mot (s : State) (r : Role) (f : Head → Head) : (s.updHead r f).mot = s.mot := rfl
@[simp] theorem State.updHead_price (s : State) (r : Role) (f : Head → Head) : (s.updHead r f).price = s.price := rfl
@[simp] theorem State.updHead_disp (s : State) (r : Role) (f : Head → Head) : (s.updHead r f).disp = { s.disp with heads := s.disp.heads.set r (f (s.disp.heads.get r)) } := rfl
@[simp] theorem State.updHead_rdr (s : State) (r : Role) (f : Head → Head) : (s.updHead r f).rdr = s.rdr := rfl
@[simp] theorem State.updHead_halt (s : State) (r : Role) (f : Head → Head) : (s.updHead r f).halt = s.halt := rfl
@[simp] theorem State.updHead_store (s : State) (r : Role) (f : Head → Head) : (s.updHead r f).store = s.store := rfl

/-! ## updLine -/

@[simp] theorem State.updLine_pending (s : State) (d : Side) (f : MessageLine → MessageLine) : (s.updLine d f).pending = s.pending := rfl
@[simp] theorem State.updLine_readBack (s : State) (d : Side) (f : MessageLine → MessageLine) : (s.updLine d f).readBack = s.readBack := rfl
@[simp] theorem State.updLine_free (s : State) (d : Side) (f : MessageLine → MessageLine) : (s.updLine d f).free = s.free := rfl
@[simp] theorem State.updLine_pw (s : State) (d : Side) (f : MessageLine → MessageLine) : (s.updLine d f).pw = s.pw := rfl
@[simp] theorem State.updLine_rtc (s : State) (d : Side) (f : MessageLine → MessageLine) : (s.updLine d f).rtc = s.rtc := rfl
@[simp] theorem State.updLine_ret (s : State) (d : Side) (f : MessageLine → MessageLine) : (s.updLine d f).ret = s.ret := rfl
@[simp] theorem State.updLine_port (s : State) (d : Side) (f : MessageLine → MessageLine) : (s.updLine d f).port = s.port := rfl
@[simp] theorem State.updLine_mem (s : State) (d : Side) (f : MessageLine → MessageLine) : (s.updLine d f).mem = s.mem := rfl
@[simp] theorem State.updLine_rev (s : State) (d : Side) (f : MessageLine → MessageLine) : (s.updLine d f).rev = s.rev := rfl
@[simp] theorem State.updLine_fp (s : State) (d : Side) (f : MessageLine → MessageLine) : (s.updLine d f).fp = s.fp := rfl
@[simp] theorem State.updLine_met (s : State) (d : Side) (f : MessageLine → MessageLine) : (s.updLine d f).met = s.met := rfl
@[simp] theorem State.updLine_vlv (s : State) (d : Side) (f : MessageLine → MessageLine) : (s.updLine d f).vlv = s.vlv := rfl
@[simp] theorem State.updLine_mot (s : State) (d : Side) (f : MessageLine → MessageLine) : (s.updLine d f).mot = s.mot := rfl
@[simp] theorem State.updLine_price (s : State) (d : Side) (f : MessageLine → MessageLine) : (s.updLine d f).price = s.price := rfl
@[simp] theorem State.updLine_disp (s : State) (d : Side) (f : MessageLine → MessageLine) : (s.updLine d f).disp = { s.disp with lines := s.disp.lines.set d (f (s.disp.lines.get d)) } := rfl
@[simp] theorem State.updLine_rdr (s : State) (d : Side) (f : MessageLine → MessageLine) : (s.updLine d f).rdr = s.rdr := rfl
@[simp] theorem State.updLine_halt (s : State) (d : Side) (f : MessageLine → MessageLine) : (s.updLine d f).halt = s.halt := rfl
@[simp] theorem State.updLine_store (s : State) (d : Side) (f : MessageLine → MessageLine) : (s.updLine d f).store = s.store := rfl

/-! ## updReader -/

@[simp] theorem State.updReader_pending (s : State) (d : Side) (f : Reader → Reader) : (s.updReader d f).pending = s.pending := rfl
@[simp] theorem State.updReader_readBack (s : State) (d : Side) (f : Reader → Reader) : (s.updReader d f).readBack = s.readBack := rfl
@[simp] theorem State.updReader_free (s : State) (d : Side) (f : Reader → Reader) : (s.updReader d f).free = s.free := rfl
@[simp] theorem State.updReader_pw (s : State) (d : Side) (f : Reader → Reader) : (s.updReader d f).pw = s.pw := rfl
@[simp] theorem State.updReader_rtc (s : State) (d : Side) (f : Reader → Reader) : (s.updReader d f).rtc = s.rtc := rfl
@[simp] theorem State.updReader_ret (s : State) (d : Side) (f : Reader → Reader) : (s.updReader d f).ret = s.ret := rfl
@[simp] theorem State.updReader_port (s : State) (d : Side) (f : Reader → Reader) : (s.updReader d f).port = s.port := rfl
@[simp] theorem State.updReader_mem (s : State) (d : Side) (f : Reader → Reader) : (s.updReader d f).mem = s.mem := rfl
@[simp] theorem State.updReader_rev (s : State) (d : Side) (f : Reader → Reader) : (s.updReader d f).rev = s.rev := rfl
@[simp] theorem State.updReader_fp (s : State) (d : Side) (f : Reader → Reader) : (s.updReader d f).fp = s.fp := rfl
@[simp] theorem State.updReader_met (s : State) (d : Side) (f : Reader → Reader) : (s.updReader d f).met = s.met := rfl
@[simp] theorem State.updReader_vlv (s : State) (d : Side) (f : Reader → Reader) : (s.updReader d f).vlv = s.vlv := rfl
@[simp] theorem State.updReader_mot (s : State) (d : Side) (f : Reader → Reader) : (s.updReader d f).mot = s.mot := rfl
@[simp] theorem State.updReader_price (s : State) (d : Side) (f : Reader → Reader) : (s.updReader d f).price = s.price := rfl
@[simp] theorem State.updReader_disp (s : State) (d : Side) (f : Reader → Reader) : (s.updReader d f).disp = s.disp := rfl
@[simp] theorem State.updReader_rdr (s : State) (d : Side) (f : Reader → Reader) : (s.updReader d f).rdr = s.rdr.set d (f (s.rdr.get d)) := rfl
@[simp] theorem State.updReader_halt (s : State) (d : Side) (f : Reader → Reader) : (s.updReader d f).halt = s.halt := rfl
@[simp] theorem State.updReader_store (s : State) (d : Side) (f : Reader → Reader) : (s.updReader d f).store = s.store := rfl

/-! ## updHalt -/

@[simp] theorem State.updHalt_pending (s : State) (f : HaltUnit → HaltUnit) : (s.updHalt f).pending = s.pending := rfl
@[simp] theorem State.updHalt_readBack (s : State) (f : HaltUnit → HaltUnit) : (s.updHalt f).readBack = s.readBack := rfl
@[simp] theorem State.updHalt_free (s : State) (f : HaltUnit → HaltUnit) : (s.updHalt f).free = s.free := rfl
@[simp] theorem State.updHalt_pw (s : State) (f : HaltUnit → HaltUnit) : (s.updHalt f).pw = s.pw := rfl
@[simp] theorem State.updHalt_rtc (s : State) (f : HaltUnit → HaltUnit) : (s.updHalt f).rtc = s.rtc := rfl
@[simp] theorem State.updHalt_ret (s : State) (f : HaltUnit → HaltUnit) : (s.updHalt f).ret = s.ret := rfl
@[simp] theorem State.updHalt_port (s : State) (f : HaltUnit → HaltUnit) : (s.updHalt f).port = s.port := rfl
@[simp] theorem State.updHalt_mem (s : State) (f : HaltUnit → HaltUnit) : (s.updHalt f).mem = s.mem := rfl
@[simp] theorem State.updHalt_rev (s : State) (f : HaltUnit → HaltUnit) : (s.updHalt f).rev = s.rev := rfl
@[simp] theorem State.updHalt_fp (s : State) (f : HaltUnit → HaltUnit) : (s.updHalt f).fp = s.fp := rfl
@[simp] theorem State.updHalt_met (s : State) (f : HaltUnit → HaltUnit) : (s.updHalt f).met = s.met := rfl
@[simp] theorem State.updHalt_vlv (s : State) (f : HaltUnit → HaltUnit) : (s.updHalt f).vlv = s.vlv := rfl
@[simp] theorem State.updHalt_mot (s : State) (f : HaltUnit → HaltUnit) : (s.updHalt f).mot = s.mot := rfl
@[simp] theorem State.updHalt_price (s : State) (f : HaltUnit → HaltUnit) : (s.updHalt f).price = s.price := rfl
@[simp] theorem State.updHalt_disp (s : State) (f : HaltUnit → HaltUnit) : (s.updHalt f).disp = s.disp := rfl
@[simp] theorem State.updHalt_rdr (s : State) (f : HaltUnit → HaltUnit) : (s.updHalt f).rdr = s.rdr := rfl
@[simp] theorem State.updHalt_halt (s : State) (f : HaltUnit → HaltUnit) : (s.updHalt f).halt = f s.halt := rfl
@[simp] theorem State.updHalt_store (s : State) (f : HaltUnit → HaltUnit) : (s.updHalt f).store = s.store := rfl

/-! ## updStore -/

@[simp] theorem State.updStore_pending (s : State) (f : StorePort → StorePort) : (s.updStore f).pending = s.pending := rfl
@[simp] theorem State.updStore_readBack (s : State) (f : StorePort → StorePort) : (s.updStore f).readBack = s.readBack := rfl
@[simp] theorem State.updStore_free (s : State) (f : StorePort → StorePort) : (s.updStore f).free = s.free := rfl
@[simp] theorem State.updStore_pw (s : State) (f : StorePort → StorePort) : (s.updStore f).pw = s.pw := rfl
@[simp] theorem State.updStore_rtc (s : State) (f : StorePort → StorePort) : (s.updStore f).rtc = s.rtc := rfl
@[simp] theorem State.updStore_ret (s : State) (f : StorePort → StorePort) : (s.updStore f).ret = s.ret := rfl
@[simp] theorem State.updStore_port (s : State) (f : StorePort → StorePort) : (s.updStore f).port = s.port := rfl
@[simp] theorem State.updStore_mem (s : State) (f : StorePort → StorePort) : (s.updStore f).mem = s.mem := rfl
@[simp] theorem State.updStore_rev (s : State) (f : StorePort → StorePort) : (s.updStore f).rev = s.rev := rfl
@[simp] theorem State.updStore_fp (s : State) (f : StorePort → StorePort) : (s.updStore f).fp = s.fp := rfl
@[simp] theorem State.updStore_met (s : State) (f : StorePort → StorePort) : (s.updStore f).met = s.met := rfl
@[simp] theorem State.updStore_vlv (s : State) (f : StorePort → StorePort) : (s.updStore f).vlv = s.vlv := rfl
@[simp] theorem State.updStore_mot (s : State) (f : StorePort → StorePort) : (s.updStore f).mot = s.mot := rfl
@[simp] theorem State.updStore_price (s : State) (f : StorePort → StorePort) : (s.updStore f).price = s.price := rfl
@[simp] theorem State.updStore_disp (s : State) (f : StorePort → StorePort) : (s.updStore f).disp = s.disp := rfl
@[simp] theorem State.updStore_rdr (s : State) (f : StorePort → StorePort) : (s.updStore f).rdr = s.rdr := rfl
@[simp] theorem State.updStore_halt (s : State) (f : StorePort → StorePort) : (s.updStore f).halt = s.halt := rfl
@[simp] theorem State.updStore_store (s : State) (f : StorePort → StorePort) : (s.updStore f).store = f s.store := rfl

/-! ## updPower -/

@[simp] theorem State.updPower_pending (s : State) (f : Power → Power) : (s.updPower f).pending = s.pending := rfl
@[simp] theorem State.updPower_readBack (s : State) (f : Power → Power) : (s.updPower f).readBack = s.readBack := rfl
@[simp] theorem State.updPower_free (s : State) (f : Power → Power) : (s.updPower f).free = s.free := rfl
@[simp] theorem State.updPower_pw (s : State) (f : Power → Power) : (s.updPower f).pw = f s.pw := rfl
@[simp] theorem State.updPower_rtc (s : State) (f : Power → Power) : (s.updPower f).rtc = s.rtc := rfl
@[simp] theorem State.updPower_ret (s : State) (f : Power → Power) : (s.updPower f).ret = s.ret := rfl
@[simp] theorem State.updPower_port (s : State) (f : Power → Power) : (s.updPower f).port = s.port := rfl
@[simp] theorem State.updPower_mem (s : State) (f : Power → Power) : (s.updPower f).mem = s.mem := rfl
@[simp] theorem State.updPower_rev (s : State) (f : Power → Power) : (s.updPower f).rev = s.rev := rfl
@[simp] theorem State.updPower_fp (s : State) (f : Power → Power) : (s.updPower f).fp = s.fp := rfl
@[simp] theorem State.updPower_met (s : State) (f : Power → Power) : (s.updPower f).met = s.met := rfl
@[simp] theorem State.updPower_vlv (s : State) (f : Power → Power) : (s.updPower f).vlv = s.vlv := rfl
@[simp] theorem State.updPower_mot (s : State) (f : Power → Power) : (s.updPower f).mot = s.mot := rfl
@[simp] theorem State.updPower_price (s : State) (f : Power → Power) : (s.updPower f).price = s.price := rfl
@[simp] theorem State.updPower_disp (s : State) (f : Power → Power) : (s.updPower f).disp = s.disp := rfl
@[simp] theorem State.updPower_rdr (s : State) (f : Power → Power) : (s.updPower f).rdr = s.rdr := rfl
@[simp] theorem State.updPower_halt (s : State) (f : Power → Power) : (s.updPower f).halt = s.halt := rfl
@[simp] theorem State.updPower_store (s : State) (f : Power → Power) : (s.updPower f).store = s.store := rfl

/-! ## updPort -/

@[simp] theorem State.updPort_pending (s : State) (f : Port → Port) : (s.updPort f).pending = s.pending := rfl
@[simp] theorem State.updPort_readBack (s : State) (f : Port → Port) : (s.updPort f).readBack = s.readBack := rfl
@[simp] theorem State.updPort_free (s : State) (f : Port → Port) : (s.updPort f).free = s.free := rfl
@[simp] theorem State.updPort_pw (s : State) (f : Port → Port) : (s.updPort f).pw = s.pw := rfl
@[simp] theorem State.updPort_rtc (s : State) (f : Port → Port) : (s.updPort f).rtc = s.rtc := rfl
@[simp] theorem State.updPort_ret (s : State) (f : Port → Port) : (s.updPort f).ret = s.ret := rfl
@[simp] theorem State.updPort_port (s : State) (f : Port → Port) : (s.updPort f).port = f s.port := rfl
@[simp] theorem State.updPort_mem (s : State) (f : Port → Port) : (s.updPort f).mem = s.mem := rfl
@[simp] theorem State.updPort_rev (s : State) (f : Port → Port) : (s.updPort f).rev = s.rev := rfl
@[simp] theorem State.updPort_fp (s : State) (f : Port → Port) : (s.updPort f).fp = s.fp := rfl
@[simp] theorem State.updPort_met (s : State) (f : Port → Port) : (s.updPort f).met = s.met := rfl
@[simp] theorem State.updPort_vlv (s : State) (f : Port → Port) : (s.updPort f).vlv = s.vlv := rfl
@[simp] theorem State.updPort_mot (s : State) (f : Port → Port) : (s.updPort f).mot = s.mot := rfl
@[simp] theorem State.updPort_price (s : State) (f : Port → Port) : (s.updPort f).price = s.price := rfl
@[simp] theorem State.updPort_disp (s : State) (f : Port → Port) : (s.updPort f).disp = s.disp := rfl
@[simp] theorem State.updPort_rdr (s : State) (f : Port → Port) : (s.updPort f).rdr = s.rdr := rfl
@[simp] theorem State.updPort_halt (s : State) (f : Port → Port) : (s.updPort f).halt = s.halt := rfl
@[simp] theorem State.updPort_store (s : State) (f : Port → Port) : (s.updPort f).store = s.store := rfl

/-! ## setWakeTime -/

@[simp] theorem State.setWakeTime_pending (s : State) (t : Word32) : (s.setWakeTime t).pending = s.pending := rfl
@[simp] theorem State.setWakeTime_readBack (s : State) (t : Word32) : (s.setWakeTime t).readBack = s.readBack := rfl
@[simp] theorem State.setWakeTime_free (s : State) (t : Word32) : (s.setWakeTime t).free = s.free := rfl
@[simp] theorem State.setWakeTime_pw (s : State) (t : Word32) : (s.setWakeTime t).pw = s.pw := rfl
@[simp] theorem State.setWakeTime_rtc (s : State) (t : Word32) : (s.setWakeTime t).rtc = s.rtc := rfl
@[simp] theorem State.setWakeTime_ret (s : State) (t : Word32) : (s.setWakeTime t).ret = { s.ret with wakeTime := t } := rfl
@[simp] theorem State.setWakeTime_port (s : State) (t : Word32) : (s.setWakeTime t).port = s.port := rfl
@[simp] theorem State.setWakeTime_mem (s : State) (t : Word32) : (s.setWakeTime t).mem = s.mem := rfl
@[simp] theorem State.setWakeTime_rev (s : State) (t : Word32) : (s.setWakeTime t).rev = s.rev.wroteTo [.wakeTime] := rfl
@[simp] theorem State.setWakeTime_fp (s : State) (t : Word32) : (s.setWakeTime t).fp = s.fp := rfl
@[simp] theorem State.setWakeTime_met (s : State) (t : Word32) : (s.setWakeTime t).met = s.met := rfl
@[simp] theorem State.setWakeTime_vlv (s : State) (t : Word32) : (s.setWakeTime t).vlv = s.vlv := rfl
@[simp] theorem State.setWakeTime_mot (s : State) (t : Word32) : (s.setWakeTime t).mot = s.mot := rfl
@[simp] theorem State.setWakeTime_price (s : State) (t : Word32) : (s.setWakeTime t).price = s.price := rfl
@[simp] theorem State.setWakeTime_disp (s : State) (t : Word32) : (s.setWakeTime t).disp = s.disp := rfl
@[simp] theorem State.setWakeTime_rdr (s : State) (t : Word32) : (s.setWakeTime t).rdr = s.rdr := rfl
@[simp] theorem State.setWakeTime_halt (s : State) (t : Word32) : (s.setWakeTime t).halt = s.halt := rfl
@[simp] theorem State.setWakeTime_store (s : State) (t : Word32) : (s.setWakeTime t).store = s.store := rfl

/-! ## The price sets of retention memory -/

@[simp] theorem SetArea.held_mk (b : Bool) (p : PriceSet) : (⟨b, p⟩ : SetArea).held = if b then some p else none := rfl
@[simp] theorem SetArea.cleared_held (a : SetArea) : a.cleared.held = none := rfl
@[simp] theorem Retention.applied_get (r : Retention) (d : Side) : r.applied.get d = (r.appliedArea.get d).held := by cases d <;> rfl
@[simp] theorem State.setApplied_applied (s : State) (d : Side) (p : PriceSet) :
    (s.setApplied d p).ret.applied = s.ret.applied.set d (some p) := by cases d <;> rfl
@[simp] theorem State.setPending_pendingSet (s : State) (p : PriceSet) : (s.setPending p).ret.pendingSet = some ⟨p, ⟨false, false⟩⟩ := rfl
@[simp] theorem State.clearPending_pendingSet (s : State) : s.clearPending.ret.pendingSet = none := rfl
@[simp] theorem State.setMark_pendingSet (s : State) (d : Side) :
    (s.setMark d).ret.pendingSet = s.ret.pendingSet.map (fun p => { p with marks := s.ret.marks.set d true }) := by
  simp only [Retention.pendingSet, State.setMark, Option.map_map]; rfl

/-! ## setApplied -/

@[simp] theorem State.setApplied_pending (s : State) (d : Side) (p : PriceSet) : (s.setApplied d p).pending = s.pending := rfl
@[simp] theorem State.setApplied_readBack (s : State) (d : Side) (p : PriceSet) : (s.setApplied d p).readBack = s.readBack := rfl
@[simp] theorem State.setApplied_free (s : State) (d : Side) (p : PriceSet) : (s.setApplied d p).free = s.free := rfl
@[simp] theorem State.setApplied_pw (s : State) (d : Side) (p : PriceSet) : (s.setApplied d p).pw = s.pw := rfl
@[simp] theorem State.setApplied_rtc (s : State) (d : Side) (p : PriceSet) : (s.setApplied d p).rtc = s.rtc := rfl
@[simp] theorem State.setApplied_ret (s : State) (d : Side) (p : PriceSet) : (s.setApplied d p).ret = { s.ret with appliedArea := s.ret.appliedArea.set d ⟨true, p⟩ } := rfl
@[simp] theorem State.setApplied_port (s : State) (d : Side) (p : PriceSet) : (s.setApplied d p).port = s.port := rfl
@[simp] theorem State.setApplied_mem (s : State) (d : Side) (p : PriceSet) : (s.setApplied d p).mem = s.mem := rfl
@[simp] theorem State.setApplied_rev (s : State) (d : Side) (p : PriceSet) : (s.setApplied d p).rev = s.rev.wroteTo (setParts.map (.applied d)) := rfl
@[simp] theorem State.setApplied_fp (s : State) (d : Side) (p : PriceSet) : (s.setApplied d p).fp = s.fp := rfl
@[simp] theorem State.setApplied_met (s : State) (d : Side) (p : PriceSet) : (s.setApplied d p).met = s.met := rfl
@[simp] theorem State.setApplied_vlv (s : State) (d : Side) (p : PriceSet) : (s.setApplied d p).vlv = s.vlv := rfl
@[simp] theorem State.setApplied_mot (s : State) (d : Side) (p : PriceSet) : (s.setApplied d p).mot = s.mot := rfl
@[simp] theorem State.setApplied_price (s : State) (d : Side) (p : PriceSet) : (s.setApplied d p).price = s.price := rfl
@[simp] theorem State.setApplied_disp (s : State) (d : Side) (p : PriceSet) : (s.setApplied d p).disp = s.disp := rfl
@[simp] theorem State.setApplied_rdr (s : State) (d : Side) (p : PriceSet) : (s.setApplied d p).rdr = s.rdr := rfl
@[simp] theorem State.setApplied_halt (s : State) (d : Side) (p : PriceSet) : (s.setApplied d p).halt = s.halt := rfl
@[simp] theorem State.setApplied_store (s : State) (d : Side) (p : PriceSet) : (s.setApplied d p).store = s.store := rfl

/-! ## setPending -/

@[simp] theorem State.setPending_pending (s : State) (p : PriceSet) : (s.setPending p).pending = s.pending := rfl
@[simp] theorem State.setPending_readBack (s : State) (p : PriceSet) : (s.setPending p).readBack = s.readBack := rfl
@[simp] theorem State.setPending_free (s : State) (p : PriceSet) : (s.setPending p).free = s.free := rfl
@[simp] theorem State.setPending_pw (s : State) (p : PriceSet) : (s.setPending p).pw = s.pw := rfl
@[simp] theorem State.setPending_rtc (s : State) (p : PriceSet) : (s.setPending p).rtc = s.rtc := rfl
@[simp] theorem State.setPending_ret (s : State) (p : PriceSet) : (s.setPending p).ret = { s.ret with pendingArea := ⟨true, p⟩, marks := ⟨false, false⟩ } := rfl
@[simp] theorem State.setPending_port (s : State) (p : PriceSet) : (s.setPending p).port = s.port := rfl
@[simp] theorem State.setPending_mem (s : State) (p : PriceSet) : (s.setPending p).mem = s.mem := rfl
@[simp] theorem State.setPending_rev (s : State) (p : PriceSet) : (s.setPending p).rev = s.rev.wroteTo [.pending .prices, .mark .a, .mark .b, .pending .version, .pending .present] := rfl
@[simp] theorem State.setPending_fp (s : State) (p : PriceSet) : (s.setPending p).fp = s.fp := rfl
@[simp] theorem State.setPending_met (s : State) (p : PriceSet) : (s.setPending p).met = s.met := rfl
@[simp] theorem State.setPending_vlv (s : State) (p : PriceSet) : (s.setPending p).vlv = s.vlv := rfl
@[simp] theorem State.setPending_mot (s : State) (p : PriceSet) : (s.setPending p).mot = s.mot := rfl
@[simp] theorem State.setPending_price (s : State) (p : PriceSet) : (s.setPending p).price = s.price := rfl
@[simp] theorem State.setPending_disp (s : State) (p : PriceSet) : (s.setPending p).disp = s.disp := rfl
@[simp] theorem State.setPending_rdr (s : State) (p : PriceSet) : (s.setPending p).rdr = s.rdr := rfl
@[simp] theorem State.setPending_halt (s : State) (p : PriceSet) : (s.setPending p).halt = s.halt := rfl
@[simp] theorem State.setPending_store (s : State) (p : PriceSet) : (s.setPending p).store = s.store := rfl

/-! ## setMark -/

@[simp] theorem State.setMark_pending (s : State) (d : Side) : (s.setMark d).pending = s.pending := rfl
@[simp] theorem State.setMark_readBack (s : State) (d : Side) : (s.setMark d).readBack = s.readBack := rfl
@[simp] theorem State.setMark_free (s : State) (d : Side) : (s.setMark d).free = s.free := rfl
@[simp] theorem State.setMark_pw (s : State) (d : Side) : (s.setMark d).pw = s.pw := rfl
@[simp] theorem State.setMark_rtc (s : State) (d : Side) : (s.setMark d).rtc = s.rtc := rfl
@[simp] theorem State.setMark_ret (s : State) (d : Side) : (s.setMark d).ret = { s.ret with marks := s.ret.marks.set d true } := rfl
@[simp] theorem State.setMark_port (s : State) (d : Side) : (s.setMark d).port = s.port := rfl
@[simp] theorem State.setMark_mem (s : State) (d : Side) : (s.setMark d).mem = s.mem := rfl
@[simp] theorem State.setMark_rev (s : State) (d : Side) : (s.setMark d).rev = s.rev.wroteTo [.mark d] := rfl
@[simp] theorem State.setMark_fp (s : State) (d : Side) : (s.setMark d).fp = s.fp := rfl
@[simp] theorem State.setMark_met (s : State) (d : Side) : (s.setMark d).met = s.met := rfl
@[simp] theorem State.setMark_vlv (s : State) (d : Side) : (s.setMark d).vlv = s.vlv := rfl
@[simp] theorem State.setMark_mot (s : State) (d : Side) : (s.setMark d).mot = s.mot := rfl
@[simp] theorem State.setMark_price (s : State) (d : Side) : (s.setMark d).price = s.price := rfl
@[simp] theorem State.setMark_disp (s : State) (d : Side) : (s.setMark d).disp = s.disp := rfl
@[simp] theorem State.setMark_rdr (s : State) (d : Side) : (s.setMark d).rdr = s.rdr := rfl
@[simp] theorem State.setMark_halt (s : State) (d : Side) : (s.setMark d).halt = s.halt := rfl
@[simp] theorem State.setMark_store (s : State) (d : Side) : (s.setMark d).store = s.store := rfl

/-! ## clearPending -/

@[simp] theorem State.clearPending_pending (s : State) : s.clearPending.pending = s.pending := rfl
@[simp] theorem State.clearPending_readBack (s : State) : s.clearPending.readBack = s.readBack := rfl
@[simp] theorem State.clearPending_free (s : State) : s.clearPending.free = s.free := rfl
@[simp] theorem State.clearPending_pw (s : State) : s.clearPending.pw = s.pw := rfl
@[simp] theorem State.clearPending_rtc (s : State) : s.clearPending.rtc = s.rtc := rfl
@[simp] theorem State.clearPending_ret (s : State) : s.clearPending.ret = { s.ret with pendingArea := s.ret.pendingArea.cleared, marks := ⟨false, false⟩ } := rfl
@[simp] theorem State.clearPending_port (s : State) : s.clearPending.port = s.port := rfl
@[simp] theorem State.clearPending_mem (s : State) : s.clearPending.mem = s.mem := rfl
@[simp] theorem State.clearPending_rev (s : State) : s.clearPending.rev = s.rev.wroteTo [.pending .present, .mark .a, .mark .b] := rfl
@[simp] theorem State.clearPending_fp (s : State) : s.clearPending.fp = s.fp := rfl
@[simp] theorem State.clearPending_met (s : State) : s.clearPending.met = s.met := rfl
@[simp] theorem State.clearPending_vlv (s : State) : s.clearPending.vlv = s.vlv := rfl
@[simp] theorem State.clearPending_mot (s : State) : s.clearPending.mot = s.mot := rfl
@[simp] theorem State.clearPending_price (s : State) : s.clearPending.price = s.price := rfl
@[simp] theorem State.clearPending_disp (s : State) : s.clearPending.disp = s.disp := rfl
@[simp] theorem State.clearPending_rdr (s : State) : s.clearPending.rdr = s.rdr := rfl
@[simp] theorem State.clearPending_halt (s : State) : s.clearPending.halt = s.halt := rfl
@[simp] theorem State.clearPending_store (s : State) : s.clearPending.store = s.store := rfl

/-! ## setPriceOrder -/

@[simp] theorem State.setPriceOrder_pending (s : State) (o : Option OrderRef) : (s.setPriceOrder o).pending = s.pending := rfl
@[simp] theorem State.setPriceOrder_readBack (s : State) (o : Option OrderRef) : (s.setPriceOrder o).readBack = s.readBack := rfl
@[simp] theorem State.setPriceOrder_free (s : State) (o : Option OrderRef) : (s.setPriceOrder o).free = s.free := rfl
@[simp] theorem State.setPriceOrder_pw (s : State) (o : Option OrderRef) : (s.setPriceOrder o).pw = s.pw := rfl
@[simp] theorem State.setPriceOrder_rtc (s : State) (o : Option OrderRef) : (s.setPriceOrder o).rtc = s.rtc := rfl
@[simp] theorem State.setPriceOrder_ret (s : State) (o : Option OrderRef) : (s.setPriceOrder o).ret = s.ret := rfl
@[simp] theorem State.setPriceOrder_port (s : State) (o : Option OrderRef) : (s.setPriceOrder o).port = s.port := rfl
@[simp] theorem State.setPriceOrder_mem (s : State) (o : Option OrderRef) : (s.setPriceOrder o).mem = s.mem := rfl
@[simp] theorem State.setPriceOrder_rev (s : State) (o : Option OrderRef) : (s.setPriceOrder o).rev = s.rev := rfl
@[simp] theorem State.setPriceOrder_fp (s : State) (o : Option OrderRef) : (s.setPriceOrder o).fp = s.fp := rfl
@[simp] theorem State.setPriceOrder_met (s : State) (o : Option OrderRef) : (s.setPriceOrder o).met = s.met := rfl
@[simp] theorem State.setPriceOrder_vlv (s : State) (o : Option OrderRef) : (s.setPriceOrder o).vlv = s.vlv := rfl
@[simp] theorem State.setPriceOrder_mot (s : State) (o : Option OrderRef) : (s.setPriceOrder o).mot = s.mot := rfl
@[simp] theorem State.setPriceOrder_price (s : State) (o : Option OrderRef) : (s.setPriceOrder o).price = ⟨o⟩ := rfl
@[simp] theorem State.setPriceOrder_disp (s : State) (o : Option OrderRef) : (s.setPriceOrder o).disp = s.disp := rfl
@[simp] theorem State.setPriceOrder_rdr (s : State) (o : Option OrderRef) : (s.setPriceOrder o).rdr = s.rdr := rfl
@[simp] theorem State.setPriceOrder_halt (s : State) (o : Option OrderRef) : (s.setPriceOrder o).halt = s.halt := rfl
@[simp] theorem State.setPriceOrder_store (s : State) (o : Option OrderRef) : (s.setPriceOrder o).store = s.store := rfl

/-! ## setMem -/

@[simp] theorem State.setMem_pending (s : State) (m : Memory) : (s.setMem m).pending = s.pending := rfl
@[simp] theorem State.setMem_readBack (s : State) (m : Memory) : (s.setMem m).readBack = s.readBack := rfl
@[simp] theorem State.setMem_free (s : State) (m : Memory) : (s.setMem m).free = s.free := rfl
@[simp] theorem State.setMem_pw (s : State) (m : Memory) : (s.setMem m).pw = s.pw := rfl
@[simp] theorem State.setMem_rtc (s : State) (m : Memory) : (s.setMem m).rtc = s.rtc := rfl
@[simp] theorem State.setMem_ret (s : State) (m : Memory) : (s.setMem m).ret = s.ret := rfl
@[simp] theorem State.setMem_port (s : State) (m : Memory) : (s.setMem m).port = s.port := rfl
@[simp] theorem State.setMem_mem (s : State) (m : Memory) : (s.setMem m).mem = m := rfl
@[simp] theorem State.setMem_rev (s : State) (m : Memory) : (s.setMem m).rev = s.rev := rfl
@[simp] theorem State.setMem_fp (s : State) (m : Memory) : (s.setMem m).fp = s.fp := rfl
@[simp] theorem State.setMem_met (s : State) (m : Memory) : (s.setMem m).met = s.met := rfl
@[simp] theorem State.setMem_vlv (s : State) (m : Memory) : (s.setMem m).vlv = s.vlv := rfl
@[simp] theorem State.setMem_mot (s : State) (m : Memory) : (s.setMem m).mot = s.mot := rfl
@[simp] theorem State.setMem_price (s : State) (m : Memory) : (s.setMem m).price = s.price := rfl
@[simp] theorem State.setMem_disp (s : State) (m : Memory) : (s.setMem m).disp = s.disp := rfl
@[simp] theorem State.setMem_rdr (s : State) (m : Memory) : (s.setMem m).rdr = s.rdr := rfl
@[simp] theorem State.setMem_halt (s : State) (m : Memory) : (s.setMem m).halt = s.halt := rfl
@[simp] theorem State.setMem_store (s : State) (m : Memory) : (s.setMem m).store = s.store := rfl

/-! ## rewrite -/

@[simp] theorem State.rewrite_pending (s : State) (r : RecordId) : (s.rewrite r).pending = s.pending := rfl
@[simp] theorem State.rewrite_readBack (s : State) (r : RecordId) : (s.rewrite r).readBack = s.readBack := rfl
@[simp] theorem State.rewrite_free (s : State) (r : RecordId) : (s.rewrite r).free = s.free := rfl
@[simp] theorem State.rewrite_pw (s : State) (r : RecordId) : (s.rewrite r).pw = s.pw := rfl
@[simp] theorem State.rewrite_rtc (s : State) (r : RecordId) : (s.rewrite r).rtc = s.rtc := rfl
@[simp] theorem State.rewrite_ret (s : State) (r : RecordId) : (s.rewrite r).ret = s.ret := rfl
@[simp] theorem State.rewrite_port (s : State) (r : RecordId) : (s.rewrite r).port = s.port := rfl
@[simp] theorem State.rewrite_mem (s : State) (r : RecordId) : (s.rewrite r).mem = s.mem := rfl
@[simp] theorem State.rewrite_rev (s : State) (r : RecordId) : (s.rewrite r).rev = { s.rev with force := r :: s.rev.force } := rfl
@[simp] theorem State.rewrite_fp (s : State) (r : RecordId) : (s.rewrite r).fp = s.fp := rfl
@[simp] theorem State.rewrite_met (s : State) (r : RecordId) : (s.rewrite r).met = s.met := rfl
@[simp] theorem State.rewrite_vlv (s : State) (r : RecordId) : (s.rewrite r).vlv = s.vlv := rfl
@[simp] theorem State.rewrite_mot (s : State) (r : RecordId) : (s.rewrite r).mot = s.mot := rfl
@[simp] theorem State.rewrite_price (s : State) (r : RecordId) : (s.rewrite r).price = s.price := rfl
@[simp] theorem State.rewrite_disp (s : State) (r : RecordId) : (s.rewrite r).disp = s.disp := rfl
@[simp] theorem State.rewrite_rdr (s : State) (r : RecordId) : (s.rewrite r).rdr = s.rdr := rfl
@[simp] theorem State.rewrite_halt (s : State) (r : RecordId) : (s.rewrite r).halt = s.halt := rfl
@[simp] theorem State.rewrite_store (s : State) (r : RecordId) : (s.rewrite r).store = s.store := rfl

/-! ## attn -/

@[simp] theorem State.attn_pending (s : State) (f : Attn) : (s.attn f).pending = s.pending := rfl
@[simp] theorem State.attn_readBack (s : State) (f : Attn) : (s.attn f).readBack = s.readBack := rfl
@[simp] theorem State.attn_free (s : State) (f : Attn) : (s.attn f).free = s.free := rfl
@[simp] theorem State.attn_pw (s : State) (f : Attn) : (s.attn f).pw = s.pw := rfl
@[simp] theorem State.attn_rtc (s : State) (f : Attn) : (s.attn f).rtc = s.rtc := rfl
@[simp] theorem State.attn_ret (s : State) (f : Attn) : (s.attn f).ret = s.ret := rfl
@[simp] theorem State.attn_port (s : State) (f : Attn) : (s.attn f).port = { s.port with attn := s.port.attn ||| f.mask } := rfl
@[simp] theorem State.attn_mem (s : State) (f : Attn) : (s.attn f).mem = s.mem := rfl
@[simp] theorem State.attn_rev (s : State) (f : Attn) : (s.attn f).rev = s.rev := rfl
@[simp] theorem State.attn_fp (s : State) (f : Attn) : (s.attn f).fp = s.fp := rfl
@[simp] theorem State.attn_met (s : State) (f : Attn) : (s.attn f).met = s.met := rfl
@[simp] theorem State.attn_vlv (s : State) (f : Attn) : (s.attn f).vlv = s.vlv := rfl
@[simp] theorem State.attn_mot (s : State) (f : Attn) : (s.attn f).mot = s.mot := rfl
@[simp] theorem State.attn_price (s : State) (f : Attn) : (s.attn f).price = s.price := rfl
@[simp] theorem State.attn_disp (s : State) (f : Attn) : (s.attn f).disp = s.disp := rfl
@[simp] theorem State.attn_rdr (s : State) (f : Attn) : (s.attn f).rdr = s.rdr := rfl
@[simp] theorem State.attn_halt (s : State) (f : Attn) : (s.attn f).halt = s.halt := rfl
@[simp] theorem State.attn_store (s : State) (f : Attn) : (s.attn f).store = s.store := rfl

/-! ## attnIf, complete, completeOpt: every field but the port's flags and exchange memory -/

@[simp] theorem State.attnIf_pending (s : State) (c : Bool) (f : Attn) : (s.attnIf c f).pending = s.pending := by cases c <;> rfl
@[simp] theorem State.attnIf_readBack (s : State) (c : Bool) (f : Attn) : (s.attnIf c f).readBack = s.readBack := by cases c <;> rfl
@[simp] theorem State.attnIf_free (s : State) (c : Bool) (f : Attn) : (s.attnIf c f).free = s.free := by cases c <;> rfl
@[simp] theorem State.attnIf_pw (s : State) (c : Bool) (f : Attn) : (s.attnIf c f).pw = s.pw := by cases c <;> rfl
@[simp] theorem State.attnIf_rtc (s : State) (c : Bool) (f : Attn) : (s.attnIf c f).rtc = s.rtc := by cases c <;> rfl
@[simp] theorem State.attnIf_ret (s : State) (c : Bool) (f : Attn) : (s.attnIf c f).ret = s.ret := by cases c <;> rfl
@[simp] theorem State.attnIf_mem (s : State) (c : Bool) (f : Attn) : (s.attnIf c f).mem = s.mem := by cases c <;> rfl
@[simp] theorem State.attnIf_rev (s : State) (c : Bool) (f : Attn) : (s.attnIf c f).rev = s.rev := by cases c <;> rfl
@[simp] theorem State.attnIf_fp (s : State) (c : Bool) (f : Attn) : (s.attnIf c f).fp = s.fp := by cases c <;> rfl
@[simp] theorem State.attnIf_met (s : State) (c : Bool) (f : Attn) : (s.attnIf c f).met = s.met := by cases c <;> rfl
@[simp] theorem State.attnIf_vlv (s : State) (c : Bool) (f : Attn) : (s.attnIf c f).vlv = s.vlv := by cases c <;> rfl
@[simp] theorem State.attnIf_mot (s : State) (c : Bool) (f : Attn) : (s.attnIf c f).mot = s.mot := by cases c <;> rfl
@[simp] theorem State.attnIf_price (s : State) (c : Bool) (f : Attn) : (s.attnIf c f).price = s.price := by cases c <;> rfl
@[simp] theorem State.attnIf_disp (s : State) (c : Bool) (f : Attn) : (s.attnIf c f).disp = s.disp := by cases c <;> rfl
@[simp] theorem State.attnIf_rdr (s : State) (c : Bool) (f : Attn) : (s.attnIf c f).rdr = s.rdr := by cases c <;> rfl
@[simp] theorem State.attnIf_halt (s : State) (c : Bool) (f : Attn) : (s.attnIf c f).halt = s.halt := by cases c <;> rfl
@[simp] theorem State.attnIf_store (s : State) (c : Bool) (f : Attn) : (s.attnIf c f).store = s.store := by cases c <;> rfl
@[simp] theorem State.complete_pending (s : State) (r : OrderRef) (c : ResultCode) (n : Nat) : (s.complete r c n).pending = s.pending := by
  unfold State.complete; split <;> rfl
@[simp] theorem State.complete_readBack (s : State) (r : OrderRef) (c : ResultCode) (n : Nat) : (s.complete r c n).readBack = s.readBack := by
  unfold State.complete; split <;> rfl
@[simp] theorem State.complete_free (s : State) (r : OrderRef) (c : ResultCode) (n : Nat) : (s.complete r c n).free = s.free := by
  unfold State.complete; split <;> rfl
@[simp] theorem State.complete_pw (s : State) (r : OrderRef) (c : ResultCode) (n : Nat) : (s.complete r c n).pw = s.pw := by
  unfold State.complete; split <;> rfl
@[simp] theorem State.complete_rtc (s : State) (r : OrderRef) (c : ResultCode) (n : Nat) : (s.complete r c n).rtc = s.rtc := by
  unfold State.complete; split <;> rfl
@[simp] theorem State.complete_ret (s : State) (r : OrderRef) (c : ResultCode) (n : Nat) : (s.complete r c n).ret = s.ret := by
  unfold State.complete; split <;> rfl
@[simp] theorem State.complete_rev (s : State) (r : OrderRef) (c : ResultCode) (n : Nat) : (s.complete r c n).rev = s.rev := by
  unfold State.complete; split <;> rfl
@[simp] theorem State.complete_fp (s : State) (r : OrderRef) (c : ResultCode) (n : Nat) : (s.complete r c n).fp = s.fp := by
  unfold State.complete; split <;> rfl
@[simp] theorem State.complete_met (s : State) (r : OrderRef) (c : ResultCode) (n : Nat) : (s.complete r c n).met = s.met := by
  unfold State.complete; split <;> rfl
@[simp] theorem State.complete_vlv (s : State) (r : OrderRef) (c : ResultCode) (n : Nat) : (s.complete r c n).vlv = s.vlv := by
  unfold State.complete; split <;> rfl
@[simp] theorem State.complete_mot (s : State) (r : OrderRef) (c : ResultCode) (n : Nat) : (s.complete r c n).mot = s.mot := by
  unfold State.complete; split <;> rfl
@[simp] theorem State.complete_price (s : State) (r : OrderRef) (c : ResultCode) (n : Nat) : (s.complete r c n).price = s.price := by
  unfold State.complete; split <;> rfl
@[simp] theorem State.complete_disp (s : State) (r : OrderRef) (c : ResultCode) (n : Nat) : (s.complete r c n).disp = s.disp := by
  unfold State.complete; split <;> rfl
@[simp] theorem State.complete_rdr (s : State) (r : OrderRef) (c : ResultCode) (n : Nat) : (s.complete r c n).rdr = s.rdr := by
  unfold State.complete; split <;> rfl
@[simp] theorem State.complete_halt (s : State) (r : OrderRef) (c : ResultCode) (n : Nat) : (s.complete r c n).halt = s.halt := by
  unfold State.complete; split <;> rfl
@[simp] theorem State.complete_store (s : State) (r : OrderRef) (c : ResultCode) (n : Nat) : (s.complete r c n).store = s.store := by
  unfold State.complete; split <;> rfl
@[simp] theorem State.completeOpt_pending (s : State) (r : Option OrderRef) (c : ResultCode) (n : Nat) : (s.completeOpt r c n).pending = s.pending := by
  cases r <;> simp [State.completeOpt]
@[simp] theorem State.completeOpt_readBack (s : State) (r : Option OrderRef) (c : ResultCode) (n : Nat) : (s.completeOpt r c n).readBack = s.readBack := by
  cases r <;> simp [State.completeOpt]
@[simp] theorem State.completeOpt_free (s : State) (r : Option OrderRef) (c : ResultCode) (n : Nat) : (s.completeOpt r c n).free = s.free := by
  cases r <;> simp [State.completeOpt]
@[simp] theorem State.completeOpt_pw (s : State) (r : Option OrderRef) (c : ResultCode) (n : Nat) : (s.completeOpt r c n).pw = s.pw := by
  cases r <;> simp [State.completeOpt]
@[simp] theorem State.completeOpt_rtc (s : State) (r : Option OrderRef) (c : ResultCode) (n : Nat) : (s.completeOpt r c n).rtc = s.rtc := by
  cases r <;> simp [State.completeOpt]
@[simp] theorem State.completeOpt_ret (s : State) (r : Option OrderRef) (c : ResultCode) (n : Nat) : (s.completeOpt r c n).ret = s.ret := by
  cases r <;> simp [State.completeOpt]
@[simp] theorem State.completeOpt_rev (s : State) (r : Option OrderRef) (c : ResultCode) (n : Nat) : (s.completeOpt r c n).rev = s.rev := by
  cases r <;> simp [State.completeOpt]
@[simp] theorem State.completeOpt_fp (s : State) (r : Option OrderRef) (c : ResultCode) (n : Nat) : (s.completeOpt r c n).fp = s.fp := by
  cases r <;> simp [State.completeOpt]
@[simp] theorem State.completeOpt_met (s : State) (r : Option OrderRef) (c : ResultCode) (n : Nat) : (s.completeOpt r c n).met = s.met := by
  cases r <;> simp [State.completeOpt]
@[simp] theorem State.completeOpt_vlv (s : State) (r : Option OrderRef) (c : ResultCode) (n : Nat) : (s.completeOpt r c n).vlv = s.vlv := by
  cases r <;> simp [State.completeOpt]
@[simp] theorem State.completeOpt_mot (s : State) (r : Option OrderRef) (c : ResultCode) (n : Nat) : (s.completeOpt r c n).mot = s.mot := by
  cases r <;> simp [State.completeOpt]
@[simp] theorem State.completeOpt_price (s : State) (r : Option OrderRef) (c : ResultCode) (n : Nat) : (s.completeOpt r c n).price = s.price := by
  cases r <;> simp [State.completeOpt]
@[simp] theorem State.completeOpt_disp (s : State) (r : Option OrderRef) (c : ResultCode) (n : Nat) : (s.completeOpt r c n).disp = s.disp := by
  cases r <;> simp [State.completeOpt]
@[simp] theorem State.completeOpt_rdr (s : State) (r : Option OrderRef) (c : ResultCode) (n : Nat) : (s.completeOpt r c n).rdr = s.rdr := by
  cases r <;> simp [State.completeOpt]
@[simp] theorem State.completeOpt_halt (s : State) (r : Option OrderRef) (c : ResultCode) (n : Nat) : (s.completeOpt r c n).halt = s.halt := by
  cases r <;> simp [State.completeOpt]
@[simp] theorem State.completeOpt_store (s : State) (r : Option OrderRef) (c : ResultCode) (n : Nat) : (s.completeOpt r c n).store = s.store := by
  cases r <;> simp [State.completeOpt]
@[simp] theorem State.takeSlot_pending (s : State) (n : Nat) : (s.takeSlot n).1.pending = s.pending := rfl
@[simp] theorem State.takeSlot_readBack (s : State) (n : Nat) : (s.takeSlot n).1.readBack = s.readBack := rfl
@[simp] theorem State.takeSlot_free (s : State) (n : Nat) : (s.takeSlot n).1.free = s.free := rfl
@[simp] theorem State.takeSlot_pw (s : State) (n : Nat) : (s.takeSlot n).1.pw = s.pw := rfl
@[simp] theorem State.takeSlot_rtc (s : State) (n : Nat) : (s.takeSlot n).1.rtc = s.rtc := rfl
@[simp] theorem State.takeSlot_ret (s : State) (n : Nat) : (s.takeSlot n).1.ret = s.ret := rfl
@[simp] theorem State.takeSlot_rev (s : State) (n : Nat) : (s.takeSlot n).1.rev = s.rev := rfl
@[simp] theorem State.takeSlot_fp (s : State) (n : Nat) : (s.takeSlot n).1.fp = s.fp := rfl
@[simp] theorem State.takeSlot_met (s : State) (n : Nat) : (s.takeSlot n).1.met = s.met := rfl
@[simp] theorem State.takeSlot_vlv (s : State) (n : Nat) : (s.takeSlot n).1.vlv = s.vlv := rfl
@[simp] theorem State.takeSlot_mot (s : State) (n : Nat) : (s.takeSlot n).1.mot = s.mot := rfl
@[simp] theorem State.takeSlot_price (s : State) (n : Nat) : (s.takeSlot n).1.price = s.price := rfl
@[simp] theorem State.takeSlot_disp (s : State) (n : Nat) : (s.takeSlot n).1.disp = s.disp := rfl
@[simp] theorem State.takeSlot_rdr (s : State) (n : Nat) : (s.takeSlot n).1.rdr = s.rdr := rfl
@[simp] theorem State.takeSlot_halt (s : State) (n : Nat) : (s.takeSlot n).1.halt = s.halt := rfl
@[simp] theorem State.takeSlot_store (s : State) (n : Nat) : (s.takeSlot n).1.store = s.store := rfl

end Sys2Proof.Machine
end

