-- ==== Sys2Proof/Laws/Port.lean ====
section
/-! SUPPORT. Order slots: what a take and a completion write, and what they leave alone. -/

namespace Sys2Proof.Machine

theorem bytesBE_length (n v : Nat) : (bytesBE n v).length = n := by
  induction n with
  | zero => rfl
  | succ n ih => simp [bytesBE, ih]

/-- The bytes a header write puts into a slot, by position. -/
theorem Memory.writeHeader_eq (m : Memory) (n st code done detail : Nat) (take : Option Word32) :
    m.writeHeader n st code done detail take =
      ((match take with
        | some t => (m.writeAll (slotAddr n + 6) (bytesBE 2 done ++ bytesBE 4 detail)).writeAll (slotAddr n + 12) (bytesBE 4 t.toNat)
        | none => m.writeAll (slotAddr n + 6) (bytesBE 2 done ++ bytesBE 4 detail)).writeAll (slotAddr n)
          [BitVec.ofNat 8 st, BitVec.ofNat 8 code]) := by
  cases take <;> rfl

theorem Memory.writeHeader_wf {m : Memory} (h : m.wf = true) (n st code done detail : Nat) (take : Option Word32) :
    (m.writeHeader n st code done detail take).wf = true := by
  rw [Memory.writeHeader_eq]
  apply Memory.writeAll_wf
  cases take
  · exact Memory.writeAll_wf h _ _
  · exact Memory.writeAll_wf (Memory.writeAll_wf h _ _) _ _

/-- A header write leaves kind, target, host tag and every byte outside the header alone. -/
theorem Memory.writeHeader_kept (m : Memory) (n st code done detail : Nat) (take : Option Word32) (a : Nat) (h : keptBySlot n a) :
    (m.writeHeader n st code done detail take).read a = m.read a := by
  rw [Memory.writeHeader_eq, Memory.read_writeAll_out _ _ _ _ (by unfold keptBySlot at h; simp; omega)]
  cases take
  · rw [Memory.read_writeAll_out _ _ _ _ (by unfold keptBySlot at h; simp [bytesBE_length]; omega)]
  · rw [Memory.read_writeAll_out _ _ _ _ (by unfold keptBySlot at h; simp [bytesBE_length]; omega),
      Memory.read_writeAll_out _ _ _ _ (by unfold keptBySlot at h; simp [bytesBE_length]; omega)]

theorem Memory.writeHeader_state {m : Memory} (h : m.wf = true) (n st code done detail : Nat) (take : Option Word32) :
    (m.writeHeader n st code done detail take).read (slotAddr n) = BitVec.ofNat 8 st := by
  rw [Memory.writeHeader_eq]
  have := Memory.read_writeAll_in (m := (match take with
        | some t => (m.writeAll (slotAddr n + 6) (bytesBE 2 done ++ bytesBE 4 detail)).writeAll (slotAddr n + 12) (bytesBE 4 t.toNat)
        | none => m.writeAll (slotAddr n + 6) (bytesBE 2 done ++ bytesBE 4 detail)))
    (by cases take; exacts [Memory.writeAll_wf h _ _, Memory.writeAll_wf (Memory.writeAll_wf h _ _) _ _])
    (slotAddr n) 0 [BitVec.ofNat 8 st, BitVec.ofNat 8 code] (by simp)
  simpa using this

theorem Memory.writeHeader_code {m : Memory} (h : m.wf = true) (n st code done detail : Nat) (take : Option Word32) :
    (m.writeHeader n st code done detail take).read (slotAddr n + 1) = BitVec.ofNat 8 code := by
  rw [Memory.writeHeader_eq]
  have := Memory.read_writeAll_in (m := (match take with
        | some t => (m.writeAll (slotAddr n + 6) (bytesBE 2 done ++ bytesBE 4 detail)).writeAll (slotAddr n + 12) (bytesBE 4 t.toNat)
        | none => m.writeAll (slotAddr n + 6) (bytesBE 2 done ++ bytesBE 4 detail)))
    (by cases take; exacts [Memory.writeAll_wf h _ _, Memory.writeAll_wf (Memory.writeAll_wf h _ _) _ _])
    (slotAddr n) 1 [BitVec.ofNat 8 st, BitVec.ofNat 8 code] (by simp)
  simpa using this

theorem Memory.readAll_writeAll_out (m : Memory) (a b n : Nat) (bs : List Byte) (h : b + n ≤ a ∨ a + bs.length ≤ b) :
    (m.writeAll a bs).readAll b n = m.readAll b n :=
  Memory.readAll_congr (fun i hi => Memory.read_writeAll_out _ _ _ _ (by omega))

theorem Memory.readAll_append (m : Memory) (a n k : Nat) : m.readAll a (n + k) = m.readAll a n ++ m.readAll (a + n) k := by
  induction n generalizing a with
  | zero => simp [Memory.readAll]
  | succ n ih =>
    rw [show n + 1 + k = (n + k) + 1 by omega]
    simp only [Memory.readAll, ih, List.cons_append]
    rw [show a + 1 + n = a + (n + 1) by omega]

/-- The six bytes from the done time on after a header write. -/
theorem Memory.writeHeader_six {m : Memory} (h : m.wf = true) (n st code done detail : Nat) (take : Option Word32) :
    (m.writeHeader n st code done detail take).readAll (slotAddr n + 6) 6 = bytesBE 2 done ++ bytesBE 4 detail := by
  rw [Memory.writeHeader_eq, Memory.readAll_writeAll_out _ _ _ _ _ (by simp)]
  have hl : (bytesBE 2 done ++ bytesBE 4 detail).length = 6 := by simp [bytesBE_length]
  cases take with
  | none => have := Memory.readAll_writeAll h (slotAddr n + 6) (bytesBE 2 done ++ bytesBE 4 detail); rwa [hl] at this
  | some t =>
    simp only
    rw [Memory.readAll_writeAll_out _ _ _ _ _ (by omega)]
    have := Memory.readAll_writeAll h (slotAddr n + 6) (bytesBE 2 done ++ bytesBE 4 detail); rwa [hl] at this

theorem Memory.writeHeader_done {m : Memory} (h : m.wf = true) (n st code done detail : Nat) (take : Option Word32) :
    (m.writeHeader n st code done detail take).readAll (slotAddr n + 6) 2 = bytesBE 2 done := by
  have := Memory.writeHeader_six h n st code done detail take
  rw [show (6 : Nat) = 2 + 4 from rfl, Memory.readAll_append] at this
  exact (List.append_inj this (by simp [Memory.length_readAll, bytesBE_length])).1

theorem Memory.writeHeader_detail {m : Memory} (h : m.wf = true) (n st code done detail : Nat) (take : Option Word32) :
    (m.writeHeader n st code done detail take).readAll (slotAddr n + 8) 4 = bytesBE 4 detail := by
  have := Memory.writeHeader_six h n st code done detail take
  rw [show (6 : Nat) = 2 + 4 from rfl, Memory.readAll_append] at this
  exact (List.append_inj this (by simp [Memory.length_readAll, bytesBE_length])).2

theorem Memory.writeHeader_take {m : Memory} (h : m.wf = true) (n st code done detail : Nat) (t : Word32) :
    (m.writeHeader n st code done detail (some t)).readAll (slotAddr n + 12) 4 = bytesBE 4 t.toNat := by
  rw [Memory.writeHeader_eq, Memory.readAll_writeAll_out _ _ _ _ _ (by simp)]
  have := Memory.readAll_writeAll (Memory.writeAll_wf h (slotAddr n + 6) (bytesBE 2 done ++ bytesBE 4 detail)) (slotAddr n + 12)
    (bytesBE 4 t.toNat)
  rwa [bytesBE_length] at this

theorem Memory.writeHeader_keeps_take (m : Memory) (n st code done detail : Nat) :
    (m.writeHeader n st code done detail none).readAll (slotAddr n + 12) 4 = m.readAll (slotAddr n + 12) 4 := by
  rw [Memory.writeHeader_eq, Memory.readAll_writeAll_out _ _ _ _ _ (by simp)]
  exact Memory.readAll_writeAll_out _ _ _ _ _ (by simp [bytesBE_length])

/-! ## The take and the completion -/

@[simp] theorem State.takeSlot_mem (s : State) (n : Nat) : (s.takeSlot n).1.mem = s.mem.writeHeader n 2 0 0 0 (some s.rtc) := rfl
@[simp] theorem State.takeSlot_port (s : State) (n : Nat) : (s.takeSlot n).1.port =
    { s.port with posts := s.port.posts.tail, takes := s.port.takes.set n ((s.takeNumber n + 1) % 65536) } := rfl
@[simp] theorem State.takeSlot_ref (s : State) (n : Nat) :
    (s.takeSlot n).2.ref = ⟨n, (s.takeNumber n + 1) % 65536, s.rtc⟩ := rfl
@[simp] theorem State.takeSlot_target (s : State) (n : Nat) : (s.takeSlot n).2.target = s.slotTarget n := rfl

/-- A completion that is not discarded (R190): the header reads DONE and ORDER is set. -/
theorem State.complete_taken {u : State} {r : OrderRef} (h1 : u.slotTaken r.slot = true) (h2 : u.takeNumber r.slot = r.take)
    (code : ResultCode) (detail : Nat) :
    u.complete r code detail = (u.setMem (u.mem.writeHeader r.slot 3 code.code (doneTime r.time u.rtc) detail none)).attn .order := by
  simp [State.complete, h1, h2]

/-- A slot taken in this event reads TAKEN under the number of the take while no other party has written it. -/
theorem State.just_taken {s u : State} {n : Nat} (hs : s.PortLaw) (hn : n < 16) (hm : u.mem = (s.takeSlot n).1.mem)
    (hp : u.port.takes = (s.takeSlot n).1.port.takes) :
    u.slotTaken n = true ∧ u.takeNumber n = (s.takeNumber n + 1) % 65536 := by
  constructor
  · simp only [State.slotTaken, State.slotState, hm, State.takeSlot_mem, decide_eq_true_eq]
    exact Memory.writeHeader_state hs.memory _ _ _ _ _ _
  · have : n < s.port.takes.length := by rw [hs.numbers]; exact hn
    simp [State.takeNumber, hp, List.getD, this]

theorem State.Offers.slot_lt {s : State} {k : OrderKind} {n target : Nat} (h : s.Offers k n target) : n < 16 := by
  have := h.head
  exact h.port.slots n (by cases hp : s.port.posts with
    | nil => simp [hp] at this
    | cons a rest => simp [hp] at this; simp [this])

/-- What the owner is handed when its order stands at the head of the queue (R188, R189). -/
theorem State.Offers.withOrder {s : State} {k : OrderKind} {n target : Nat} (h : s.Offers k n target)
    (owner : State → Order → State) : s.withOrder k owner = owner (s.takeSlot n).1 (s.takeSlot n).2 := by
  have := h.head
  cases hp : s.port.posts with
  | nil => simp [hp] at this
  | cons a rest =>
    simp [hp] at this; subst this
    simp [State.withOrder, hp, h.taken, h.posted, h.kind]

theorem sideOfTarget_code (d : Side) : sideOfTarget (sideCode d) = some d := by cases d <;> rfl

theorem State.Offers.withSideOrder {s : State} {k : OrderKind} {n : Nat} {d : Side} (h : s.Offers k n (sideCode d))
    (owner : State → Order → Side → State) : s.withSideOrder k owner = owner (s.takeSlot n).1 (s.takeSlot n).2 d := by
  rw [State.withSideOrder, h.withOrder]
  simp [h.target, sideOfTarget_code]

theorem State.Offers.withPlainOrder {s : State} {k : OrderKind} {n : Nat} (h : s.Offers k n 0)
    (owner : State → Order → State) : s.withPlainOrder k owner = owner (s.takeSlot n).1 (s.takeSlot n).2 := by
  rw [State.withPlainOrder, h.withOrder]
  simp [h.target]

/-- What the slot and the port hold once an order taken in this event is completed (R189, R190). -/
theorem State.Offers.answered {s u t : State} {k : OrderKind} {n target : Nat} (h : s.Offers k n target) (code : ResultCode)
    (detail : Nat) (fs : List Attn) (hm : u.mem = (s.takeSlot n).1.mem)
    (hp : u.port = { (s.takeSlot n).1.port with attn := u.port.attn })
    (tm : t.mem = (u.complete (s.takeSlot n).2.ref code detail).mem) (trtc : t.rtc = u.rtc)
    (tp : t.port = { u.port with attn := t.port.attn }) (ta : t.port.attn = s.port.attn ||| flagsOf (.order :: fs)) :
    s.Answered t n code detail fs := by
  have hn := h.slot_lt
  have ht : u.port.takes = (s.takeSlot n).1.port.takes := by rw [hp]
  obtain ⟨h1, h2⟩ := State.just_taken h.port hn hm ht
  have hc := State.complete_taken (u := u) (r := (s.takeSlot n).2.ref) h1 h2 code detail
  have wf2 : u.mem.wf = true := by rw [hm, State.takeSlot_mem]; exact Memory.writeHeader_wf h.port.memory _ _ _ _ _ _
  have tm' : t.mem = u.mem.writeHeader n 3 code.code (doneTime s.rtc u.rtc) detail none := by
    rw [tm, hc]; rfl
  refine ⟨?_, ?_, ?_, ?_, ?_, ?_, ?_⟩
  · rw [tp, ta, hp]; rfl
  · simp only [State.slotState, tm']; exact Memory.writeHeader_state wf2 _ _ _ _ _ _
  · rw [tm']; exact Memory.writeHeader_code wf2 _ _ _ _ _ _
  · rw [tm', trtc]; exact Memory.writeHeader_done wf2 _ _ _ _ _ _
  · rw [tm']; exact Memory.writeHeader_detail wf2 _ _ _ _ _ _
  · rw [tm', Memory.writeHeader_keeps_take, hm, State.takeSlot_mem]; exact Memory.writeHeader_take h.port.memory _ _ _ _ _ _
  · intro a ha
    rw [tm', Memory.writeHeader_kept _ _ _ _ _ _ _ _ ha, hm, State.takeSlot_mem]; exact Memory.writeHeader_kept _ _ _ _ _ _ _ _ ha

/-- What the slot and the port hold while an order taken in this event is in flight (R189, R191). -/
theorem State.Offers.heldTaken {s t : State} {k : OrderKind} {n target : Nat} (h : s.Offers k n target) (fs : List Attn)
    (tm : t.mem = (s.takeSlot n).1.mem) (tp : t.port = { (s.takeSlot n).1.port with attn := s.port.attn ||| flagsOf fs }) :
    s.HeldTaken t n fs := by
  refine ⟨by rw [tp]; rfl, ?_, ?_, ?_, ?_, ?_⟩
  · simp only [State.slotState, tm, State.takeSlot_mem]; exact Memory.writeHeader_state h.port.memory _ _ _ _ _ _
  · rw [tm, State.takeSlot_mem]; exact Memory.writeHeader_code h.port.memory _ _ _ _ _ _
  · rw [tm, State.takeSlot_mem]; exact Memory.writeHeader_six h.port.memory _ _ _ _ _ _
  · rw [tm, State.takeSlot_mem]; exact Memory.writeHeader_take h.port.memory _ _ _ _ _ _
  · intro a ha; rw [tm, State.takeSlot_mem]; exact Memory.writeHeader_kept _ _ _ _ _ _ _ _ ha

/-- A take keeps the take numbers within 16 bits (R187). -/
theorem State.takeSlot_width {s : State} (h : ∀ x ∈ s.port.takes, x < 65536) (n : Nat) : ∀ x ∈ (s.takeSlot n).1.port.takes, x < 65536 := by
  intro x hx
  obtain hx | rfl := List.mem_or_eq_of_mem_set hx
  · exact h x hx
  · exact Nat.mod_lt _ (by decide)

end Sys2Proof.Machine
end

