-- ==== Sys2Proof/Laws/Keeps.lean ====
section
/-! SUPPORT. Every shared operation keeps the queue of waiting commands, the model's own choice of what reads back good, and the law of the
host port. -/

namespace Sys2Proof.Machine

/-- What every operation keeps from `s` to `t`. -/
structure Keeps (s t : State) : Prop where
  pending : t.pending = s.pending
  readBack : t.readBack = s.readBack
  law : s.PortLaw → t.PortLaw

theorem Keeps.refl (s : State) : Keeps s s := ⟨rfl, rfl, id⟩
theorem Keeps.trans {s x y : State} (h : Keeps s x) (g : Keeps x y) : Keeps s y :=
  ⟨g.pending.trans h.pending, g.readBack.trans h.readBack, fun l => g.law (h.law l)⟩

/-- An operation that leaves the queue, that choice, the post queue, the take numbers and exchange memory alone keeps the rest. -/
theorem Keeps.same {s x y : State} (h : Keeps s x) (h1 : y.pending = x.pending) (h2 : y.readBack = x.readBack) (h3 : y.mem = x.mem)
    (h4 : y.port.takes = x.port.takes) (h5 : y.port.posts = x.port.posts) : Keeps s y :=
  h.trans ⟨h1, h2, fun l => ⟨by rw [h3]; exact l.memory, by rw [h4]; exact l.numbers, by rw [h4]; exact l.width, by rw [h5]; exact l.slots,
    by rw [h5]; exact l.once⟩⟩

theorem keeps_refl (s : State) : Keeps s s := .refl s
theorem keeps_ite {s a b : State} (c : Prop) [Decidable c] (ha : Keeps s a) (hb : Keeps s b) : Keeps s (if c then a else b) := by
  split <;> assumption
theorem keeps_foldl {α : Type} {s x : State} (f : State → α → State) (xs : List α) (h : Keeps s x)
    (hf : ∀ y a, Keeps y (f y a)) : Keeps s (xs.foldl f x) := by
  induction xs generalizing x with
  | nil => exact h
  | cons a rest ih => exact ih (h.trans (hf x a))

theorem State.updFp_keeps {s x : State} (h : Keeps s x) (d : Side) (f : FuelPoint → FuelPoint) : Keeps s (x.updFp d f) := h.same rfl rfl rfl rfl rfl
theorem State.updRetSide_keeps {s x : State} (h : Keeps s x) (d : Side) (ps : List SidePart) (f : RetSide → RetSide) :
    Keeps s (x.updRetSide d ps f) := h.same rfl rfl rfl rfl rfl
theorem State.updSale_keeps {s x : State} (h : Keeps s x) (d : Side) (ps : List SalePart) (f : Sale → Sale) : Keeps s (x.updSale d ps f) := h.same rfl rfl rfl rfl rfl
theorem State.updMeter_keeps {s x : State} (h : Keeps s x) (m : Meter) (f : Channel → Channel) : Keeps s (x.updMeter m f) := h.same rfl rfl rfl rfl rfl
theorem State.updRetMeter_keeps {s x : State} (h : Keeps s x) (m : Meter) (ps : List RetPart) (f : RetMeter → RetMeter) : Keeps s (x.updRetMeter m ps f) := h.same rfl rfl rfl rfl rfl
theorem State.updValveSide_keeps {s x : State} (h : Keeps s x) (d : Side) (f : ValveSide → ValveSide) : Keeps s (x.updValveSide d f) := h.same rfl rfl rfl rfl rfl
theorem State.updValve_keeps {s x : State} (h : Keeps s x) (v : Meter) (f : ValveDrive → ValveDrive) : Keeps s (x.updValve v f) := h.same rfl rfl rfl rfl rfl
theorem State.updBlend_keeps {s x : State} (h : Keeps s x) (d : Side) (f : BlendLoop → BlendLoop) : Keeps s (x.updBlend d f) := h.same rfl rfl rfl rfl rfl
theorem State.updMotor_keeps {s x : State} (h : Keeps s x) (m : Product) (f : MotorRec → MotorRec) : Keeps s (x.updMotor m f) := h.same rfl rfl rfl rfl rfl
theorem State.setStartQueue_keeps {s x : State} (h : Keeps s x) (q : List Product) : Keeps s (x.setStartQueue q) := h.same rfl rfl rfl rfl rfl
theorem State.updDisp_keeps {s x : State} (h : Keeps s x) (f : Display → Display) : Keeps s (x.updDisp f) := h.same rfl rfl rfl rfl rfl
theorem State.updHead_keeps {s x : State} (h : Keeps s x) (r : Role) (f : Head → Head) : Keeps s (x.updHead r f) := h.same rfl rfl rfl rfl rfl
theorem State.updLine_keeps {s x : State} (h : Keeps s x) (d : Side) (f : MessageLine → MessageLine) : Keeps s (x.updLine d f) := h.same rfl rfl rfl rfl rfl
theorem State.updReader_keeps {s x : State} (h : Keeps s x) (d : Side) (f : Reader → Reader) : Keeps s (x.updReader d f) := h.same rfl rfl rfl rfl rfl
theorem State.updHalt_keeps {s x : State} (h : Keeps s x) (f : HaltUnit → HaltUnit) : Keeps s (x.updHalt f) := h.same rfl rfl rfl rfl rfl
theorem State.updStore_keeps {s x : State} (h : Keeps s x) (f : StorePort → StorePort) : Keeps s (x.updStore f) := h.same rfl rfl rfl rfl rfl
theorem State.updPower_keeps {s x : State} (h : Keeps s x) (f : Power → Power) : Keeps s (x.updPower f) := h.same rfl rfl rfl rfl rfl
theorem State.setWakeTime_keeps {s x : State} (h : Keeps s x) (t : Word32) : Keeps s (x.setWakeTime t) := h.same rfl rfl rfl rfl rfl
theorem State.setApplied_keeps {s x : State} (h : Keeps s x) (d : Side) (p : PriceSet) : Keeps s (x.setApplied d p) := h.same rfl rfl rfl rfl rfl
theorem State.setPending_keeps {s x : State} (h : Keeps s x) (p : PriceSet) : Keeps s (x.setPending p) := h.same rfl rfl rfl rfl rfl
theorem State.setMark_keeps {s x : State} (h : Keeps s x) (d : Side) : Keeps s (x.setMark d) := h.same rfl rfl rfl rfl rfl
theorem State.clearPending_keeps {s x : State} (h : Keeps s x) : Keeps s x.clearPending := h.same rfl rfl rfl rfl rfl
theorem State.setPriceOrder_keeps {s x : State} (h : Keeps s x) (o : Option OrderRef) : Keeps s (x.setPriceOrder o) := h.same rfl rfl rfl rfl rfl
theorem State.rewrite_keeps {s x : State} (h : Keeps s x) (r : RecordId) : Keeps s (x.rewrite r) := h.same rfl rfl rfl rfl rfl
theorem State.attn_keeps {s x : State} (h : Keeps s x) (f : Attn) : Keeps s (x.attn f) := h.same rfl rfl rfl rfl rfl
theorem State.attnIf_keeps {s x : State} (h : Keeps s x) (c : Bool) (f : Attn) : Keeps s (x.attnIf c f) := by
  cases c <;> first | exact h | exact State.attn_keeps h f
theorem State.updPort_keeps {s x : State} (h : Keeps s x) (f : Port → Port) (h1 : (f x.port).takes = x.port.takes)
    (h2 : (f x.port).posts = x.port.posts) : Keeps s (x.updPort f) := h.same rfl rfl rfl h1 h2
theorem State.setMem_keeps {s x : State} (h : Keeps s x) (m : Memory) (hm : x.mem.wf = true → m.wf = true) : Keeps s (x.setMem m) :=
  h.trans ⟨rfl, rfl, fun l => ⟨hm l.memory, l.numbers, l.width, l.slots, l.once⟩⟩
theorem State.complete_keeps {s x : State} (h : Keeps s x) (r : OrderRef) (c : ResultCode) (n : Nat) :
    Keeps s (x.complete r c n) := by
  unfold State.complete
  split
  · exact State.attn_keeps (State.setMem_keeps h _ (fun w => Memory.writeHeader_wf w _ _ _ _ _ _)) _
  · exact h
theorem State.completeOpt_keeps {s x : State} (h : Keeps s x) (r : Option OrderRef) (c : ResultCode) (n : Nat) :
    Keeps s (x.completeOpt r c n) := by
  cases r <;> first | exact h | exact State.complete_keeps h _ _ _

theorem State.takeSlot_keeps {s x : State} (hk : Keeps s x) (n : Nat) : Keeps s (x.takeSlot n).1 :=
  hk.trans ⟨rfl, rfl, fun l => ⟨by rw [State.takeSlot_mem]; exact Memory.writeHeader_wf l.memory _ _ _ _ _ _, by simp [State.takeSlot, l.numbers],
    State.takeSlot_width l.width n,
    fun k hk => l.slots k (List.mem_of_mem_tail hk), by simpa [State.takeSlot] using l.once.tail⟩⟩
theorem State.withOrder_keeps {s x : State} (hk : Keeps s x) (k : OrderKind) (owner : State → Order → State)
    (ho : ∀ y o, Keeps y (owner y o)) : Keeps s (x.withOrder k owner) := by
  unfold State.withOrder
  split
  · exact hk
  · split
    · exact (State.takeSlot_keeps hk _).trans (ho _ _)
    · exact hk
theorem State.withSideOrder_keeps {s x : State} (hk : Keeps s x) (k : OrderKind) (owner : State → Order → Side → State)
    (ho : ∀ y o d, Keeps y (owner y o d)) : Keeps s (x.withSideOrder k owner) := by
  refine State.withOrder_keeps hk k _ (fun y o => ?_)
  split
  · exact ho _ _ _
  · exact State.complete_keeps (.refl _) _ _ _
theorem State.withPlainOrder_keeps {s x : State} (hk : Keeps s x) (k : OrderKind) (owner : State → Order → State)
    (ho : ∀ y o, Keeps y (owner y o)) : Keeps s (x.withPlainOrder k owner) := by
  refine State.withOrder_keeps hk k _ (fun y o => ?_)
  split
  · exact ho _ _
  · exact State.complete_keeps (.refl _) _ _ _

/-! ## Machine/Ops.lean -/

theorem State.reattribute_keeps {s x : State} (hk : Keeps s x) (d : Side) : Keeps s (x.reattribute d) := by
  unfold State.reattribute; try dsimp only
  repeat' first | with_reducible exact hk | with_reducible apply State.updMeter_keeps
theorem State.setFpState_keeps {s x : State} (hk : Keeps s x) (d : Side) (st : FpState) : Keeps s (x.setFpState d st) := by
  unfold State.setFpState; try dsimp only
  repeat' first | with_reducible exact hk | with_reducible apply State.updFp_keeps | with_reducible apply State.attn_keeps | with_reducible apply State.attnIf_keeps | with_reducible apply State.reattribute_keeps | split
theorem State.requestSale_keeps {s x : State} (hk : Keeps s x) (d : Side) : Keeps s (x.requestSale d) := by
  unfold State.requestSale; try dsimp only
  repeat' first | with_reducible exact hk | with_reducible apply State.updDisp_keeps
theorem State.requestZero_keeps {s x : State} (hk : Keeps s x) (d : Side) : Keeps s (x.requestZero d) := by
  unfold State.requestZero; try dsimp only
  repeat' first | with_reducible exact hk | with_reducible apply State.updDisp_keeps
theorem State.requestMessage_keeps {s x : State} (hk : Keeps s x) (d : Side) : Keeps s (x.requestMessage d) := by
  unfold State.requestMessage; try dsimp only
  repeat' first | with_reducible exact hk | with_reducible apply State.updDisp_keeps
theorem State.requestBoard_keeps {s x : State} (hk : Keeps s x) (d : Side) : Keeps s (x.requestBoard d) := by
  unfold State.requestBoard; try dsimp only
  repeat' first | with_reducible exact hk | with_reducible apply State.updDisp_keeps
theorem State.closeSide_keeps {s x : State} (hk : Keeps s x) (d : Side) : Keeps s (x.closeSide d) := by
  unfold State.closeSide; try dsimp only
  repeat' first | with_reducible exact hk | with_reducible apply State.updValveSide_keeps
theorem State.stopBlend_keeps {s x : State} (hk : Keeps s x) (d : Side) : Keeps s (x.stopBlend d) := by
  unfold State.stopBlend; try dsimp only
  repeat' first | with_reducible exact hk | with_reducible apply State.updBlend_keeps
theorem State.closeAll_keeps {s x : State} (hk : Keeps s x) : Keeps s (x.closeAll) := by
  unfold State.closeAll; try dsimp only
  repeat' first | with_reducible exact hk | with_reducible apply State.closeSide_keeps | with_reducible apply State.stopBlend_keeps
theorem State.slowSide_keeps {s x : State} (hk : Keeps s x) (d : Side) : Keeps s (x.slowSide d) := by
  unfold State.slowSide; try dsimp only
  repeat' first | with_reducible exact hk | with_reducible apply State.updValveSide_keeps
theorem State.grant_keeps {s x : State} (hk : Keeps s x) : Keeps s (x.grant) := by
  unfold State.grant; try dsimp only
  repeat' first | with_reducible exact hk | with_reducible apply State.setStartQueue_keeps | with_reducible apply State.updMotor_keeps | split
theorem State.joinQueue_keeps {s x : State} (hk : Keeps s x) (m : Product) : Keeps s (x.joinQueue m) := by
  unfold State.joinQueue; try dsimp only
  repeat' first | with_reducible exact hk | with_reducible apply State.updMotor_keeps | with_reducible apply State.setStartQueue_keeps | with_reducible apply State.grant_keeps
theorem State.raiseDemand_keeps {s x : State} (hk : Keeps s x) (d : Side) (m : Product) : Keeps s (x.raiseDemand d m) := by
  unfold State.raiseDemand; try dsimp only
  repeat' first | with_reducible exact hk | with_reducible apply State.updMotor_keeps | with_reducible apply State.joinQueue_keeps | split
theorem State.dropDemand_keeps {s x : State} (hk : Keeps s x) (d : Side) (m : Product) : Keeps s (x.dropDemand d m) := by
  unfold State.dropDemand; try dsimp only
  repeat' first | with_reducible exact hk | with_reducible apply State.updMotor_keeps | with_reducible apply State.setStartQueue_keeps | with_reducible apply State.grant_keeps | split
theorem State.dropAll_keeps {s x : State} (hk : Keeps s x) (d : Side) : Keeps s (x.dropAll d) := by
  unfold State.dropAll; try dsimp only
  repeat' first | with_reducible exact hk | with_reducible apply State.dropDemand_keeps
theorem State.raiseAll_keeps {s x : State} (hk : Keeps s x) (d : Side) : Keeps s (x.raiseAll d) := by
  unfold State.raiseAll; try dsimp only
  repeat' first | with_reducible exact hk | with_reducible apply State.raiseDemand_keeps | split
theorem State.stopDrives_keeps {s x : State} (hk : Keeps s x) : Keeps s (x.stopDrives) := hk.same rfl rfl rfl rfl rfl
theorem State.requeueMotors_keeps {s x : State} (hk : Keeps s x) : Keeps s (x.requeueMotors) := by
  unfold State.requeueMotors; try dsimp only
  repeat' first | with_reducible exact hk | with_reducible apply State.joinQueue_keeps | split
theorem State.setPowerState_keeps {s x : State} (hk : Keeps s x) (st : PowerState) : Keeps s (x.setPowerState st) := by
  unfold State.setPowerState; try dsimp only
  repeat' first | with_reducible exact hk | with_reducible apply State.updPower_keeps | with_reducible apply State.attn_keeps | split
theorem State.setPhase_keeps {s x : State} (hk : Keeps s x) (ph : WakePhase) : Keeps s (x.setPhase ph) := by
  unfold State.setPhase; try dsimp only
  repeat' first | with_reducible exact hk | with_reducible apply State.updPower_keeps | with_reducible apply State.attn_keeps

/-! ## Machine/Sales.lean -/

theorem State.endAuth_keeps {s x : State} (hk : Keeps s x) (d : Side) (c : Cause) : Keeps s (x.endAuth d c) := by
  unfold State.endAuth; try dsimp only
  repeat' first | with_reducible exact hk | with_reducible apply State.updFp_keeps | with_reducible apply State.attn_keeps
theorem State.endAuthReady_keeps {s x : State} (hk : Keeps s x) (d : Side) (c : Cause) : Keeps s (x.endAuthReady d c) := by
  unfold State.endAuthReady; try dsimp only
  repeat' first | with_reducible exact hk | with_reducible apply State.endAuth_keeps | with_reducible apply State.setFpState_keeps
theorem State.lockFp_keeps {s x : State} (hk : Keeps s x) (d : Side) (c : Cause) : Keeps s (x.lockFp d c) := by
  unfold State.lockFp; try dsimp only
  repeat' first | with_reducible exact hk | with_reducible apply State.updRetSide_keeps | with_reducible apply State.updFp_keeps | with_reducible apply State.setFpState_keeps | split
theorem State.endSale_keeps {s x : State} (hk : Keeps s x) (d : Side) (c : Cause) : Keeps s (x.endSale d c) := by
  unfold State.endSale; try dsimp only
  repeat' first | with_reducible exact hk | with_reducible apply State.updSale_keeps | with_reducible apply State.closeSide_keeps | with_reducible apply State.stopBlend_keeps | with_reducible apply State.dropAll_keeps | with_reducible apply State.updFp_keeps | with_reducible apply State.setFpState_keeps | split
theorem State.haltFp_keeps {s x : State} (hk : Keeps s x) (d : Side) : Keeps s (x.haltFp d) := by
  unfold State.haltFp; try dsimp only
  repeat' first | with_reducible exact hk | with_reducible apply State.endSale_keeps | with_reducible apply State.updSale_keeps | with_reducible apply State.endAuth_keeps | with_reducible apply State.lockFp_keeps | split
theorem State.writeHaltRecord_keeps {s x : State} (hk : Keeps s x) (r : HaltReport) : Keeps s (x.writeHaltRecord r) := by
  unfold State.writeHaltRecord; try dsimp only
  repeat' first | with_reducible exact hk | with_reducible apply State.updHalt_keeps
theorem State.enterHalt_keeps {s x : State} (hk : Keeps s x) (r : HaltReport) : Keeps s (x.enterHalt r) := by
  unfold State.enterHalt; try dsimp only
  repeat' first | with_reducible exact hk | with_reducible apply State.writeHaltRecord_keeps | with_reducible apply State.updPower_keeps | with_reducible apply State.updStore_keeps | with_reducible apply State.closeAll_keeps | with_reducible apply State.stopDrives_keeps | with_reducible apply State.haltFp_keeps | with_reducible apply State.attn_keeps | split
theorem State.reportHalt_keeps {s x : State} (hk : Keeps s x) (r : HaltReport) : Keeps s (x.reportHalt r) := by
  unfold State.reportHalt; try dsimp only
  repeat' first | with_reducible exact hk | with_reducible apply State.enterHalt_keeps | with_reducible apply State.updHalt_keeps | with_reducible apply State.updStore_keeps | split
theorem State.reportLock_keeps {s x : State} (hk : Keeps s x) (d : Side) (c : Cause) : Keeps s (x.reportLock d c) := by
  unfold State.reportLock; try dsimp only
  repeat' first | with_reducible exact hk | with_reducible apply State.reportHalt_keeps | split
theorem State.reportSecond_keeps {s x : State} (hk : Keeps s x) (d : Side) (held c : Cause) : Keeps s (x.reportSecond d held c) := by
  unfold State.reportSecond; try dsimp only
  repeat' first | with_reducible exact hk | with_reducible apply State.reportHalt_keeps
theorem State.settlingLock_keeps {s x : State} (hk : Keeps s x) (d : Side) (c : Cause) : Keeps s (x.settlingLock d c) := by
  unfold State.settlingLock; try dsimp only
  repeat' first | with_reducible exact hk | with_reducible apply State.reportSecond_keeps | with_reducible apply State.updSale_keeps | with_reducible apply State.reportLock_keeps | split
theorem State.takeCause_keeps {s x : State} (hk : Keeps s x) (d : Side) (c : Cause) : Keeps s (x.takeCause d c) := by
  unfold State.takeCause; try dsimp only
  repeat' first | with_reducible exact hk | with_reducible apply State.endSale_keeps | with_reducible apply State.reportLock_keeps | with_reducible apply State.settlingLock_keeps | with_reducible apply State.endAuth_keeps | with_reducible apply State.lockFp_keeps | split
theorem State.reviewFp_keeps {s x : State} (hk : Keeps s x) (d : Side) : Keeps s (x.reviewFp d) := by
  unfold State.reviewFp; try dsimp only
  repeat' first | with_reducible exact hk | with_reducible apply State.setFpState_keeps | with_reducible apply State.endAuth_keeps | split
theorem State.reviewBoth_keeps {s x : State} (hk : Keeps s x) : Keeps s (x.reviewBoth) := by
  unfold State.reviewBoth; try dsimp only
  repeat' first | with_reducible exact hk | with_reducible apply State.reviewFp_keeps
theorem State.headReport_keeps {s x : State} (hk : Keeps s x) (d : Side) : Keeps s (x.headReport d) := by
  unfold State.headReport; try dsimp only
  repeat' first | with_reducible exact hk | with_reducible apply State.takeCause_keeps | with_reducible apply State.reviewFp_keeps | split
theorem State.applySet_keeps {s x : State} (hk : Keeps s x) (d : Side) (flag : Bool) : Keeps s (x.applySet d flag) := by
  unfold State.applySet; try dsimp only
  repeat' first | with_reducible exact hk | with_reducible apply State.setApplied_keeps | with_reducible apply State.setPending_keeps | with_reducible apply State.setMark_keeps | with_reducible apply State.clearPending_keeps | with_reducible apply State.requestBoard_keeps | with_reducible apply State.attnIf_keeps | with_reducible apply State.reviewFp_keeps | split
theorem State.applyIfDue_keeps {s x : State} (hk : Keeps s x) (d : Side) : Keeps s (x.applyIfDue d) := by
  unfold State.applyIfDue; try dsimp only
  repeat' first | with_reducible exact hk | with_reducible apply State.applySet_keeps | split
theorem State.finishPending_keeps {s x : State} (hk : Keeps s x) : Keeps s (x.finishPending) := by
  unfold State.finishPending; try dsimp only
  repeat' first | with_reducible exact hk | with_reducible apply State.setPending_keeps | with_reducible apply State.setMark_keeps | with_reducible apply State.clearPending_keeps | with_reducible apply State.setPriceOrder_keeps | with_reducible apply State.completeOpt_keeps | split
theorem State.applyBoth_keeps {s x : State} (hk : Keeps s x) : Keeps s (x.applyBoth) := by
  unfold State.applyBoth; try dsimp only
  repeat' first | with_reducible exact hk | with_reducible apply State.applyIfDue_keeps | with_reducible apply State.finishPending_keeps
theorem State.dropMessage_keeps {s x : State} (hk : Keeps s x) (d : Side) : Keeps s (x.dropMessage d) := by
  unfold State.dropMessage; try dsimp only
  repeat' first | with_reducible exact hk | with_reducible apply State.completeOpt_keeps | with_reducible apply State.updLine_keeps
theorem State.enterStarting_keeps {s x : State} (hk : Keeps s x) (d : Side) : Keeps s (x.enterStarting d) := by
  unfold State.enterStarting; try dsimp only
  repeat' first | with_reducible exact hk | with_reducible apply State.updFp_keeps | with_reducible apply State.setFpState_keeps
theorem State.freshAccumulators_keeps {s x : State} (hk : Keeps s x) (d : Side) : Keeps s (x.freshAccumulators d) := by
  unfold State.freshAccumulators; try dsimp only
  repeat' first | with_reducible exact hk | with_reducible apply State.updMeter_keeps
theorem State.fixGrade_keeps {s x : State} (hk : Keeps s x) (d : Side) (g : Grade) (p : PriceSet) : Keeps s (x.fixGrade d g p) := by
  unfold State.fixGrade; try dsimp only
  repeat' first | with_reducible exact hk | with_reducible apply State.updSale_keeps | with_reducible apply State.updFp_keeps | with_reducible apply State.freshAccumulators_keeps | with_reducible apply State.requestZero_keeps | with_reducible apply State.requestSale_keeps | with_reducible apply State.raiseAll_keeps
theorem State.tryFix_keeps {s x : State} (hk : Keeps s x) (d : Side) : Keeps s (x.tryFix d) := by
  unfold State.tryFix; try dsimp only
  repeat' first | with_reducible exact hk | with_reducible apply State.fixGrade_keeps | split
theorem State.startBlend_keeps {s x : State} (hk : Keeps s x) (d : Side) : Keeps s (x.startBlend d) := by
  unfold State.startBlend; try dsimp only
  repeat' first | with_reducible exact hk | with_reducible apply State.updBlend_keeps | split
theorem State.openValves_keeps {s x : State} (hk : Keeps s x) (d : Side) : Keeps s (x.openValves d) := by
  unfold State.openValves; try dsimp only
  repeat' first | with_reducible exact hk | with_reducible apply State.updValveSide_keeps
theorem State.enterFueling_keeps {s x : State} (hk : Keeps s x) (d : Side) : Keeps s (x.enterFueling d) := by
  unfold State.enterFueling; try dsimp only
  repeat' first | with_reducible exact hk | with_reducible apply State.updFp_keeps | with_reducible apply State.setFpState_keeps | with_reducible apply State.slowSide_keeps | with_reducible apply State.startBlend_keeps | with_reducible apply State.openValves_keeps | with_reducible apply State.takeCause_keeps | split
theorem State.testGate3_keeps {s x : State} (hk : Keeps s x) (d : Side) : Keeps s (x.testGate3 d) := by
  unfold State.testGate3; try dsimp only
  repeat' first | with_reducible exact hk | with_reducible apply State.updFp_keeps
theorem State.evalStarting_keeps {s x : State} (hk : Keeps s x) (d : Side) : Keeps s (x.evalStarting d) := by
  unfold State.evalStarting; try dsimp only
  repeat' first | with_reducible exact hk | with_reducible apply State.tryFix_keeps | with_reducible apply State.testGate3_keeps | with_reducible apply State.enterFueling_keeps | split
theorem State.evalBoth_keeps {s x : State} (hk : Keeps s x) : Keeps s (x.evalBoth) := by
  unfold State.evalBoth; try dsimp only
  repeat' first | with_reducible exact hk | with_reducible apply State.evalStarting_keeps
theorem State.openSale_keeps {s x : State} (hk : Keeps s x) (d : Side) (h : Hose) : Keeps s (x.openSale d h) := by
  unfold State.openSale; try dsimp only
  repeat' first | with_reducible exact hk | with_reducible apply State.updSale_keeps | with_reducible apply State.updFp_keeps | with_reducible apply State.updValveSide_keeps | with_reducible apply State.updBlend_keeps | with_reducible apply State.enterStarting_keeps | with_reducible apply State.requestSale_keeps | with_reducible apply State.dropMessage_keeps | with_reducible apply State.evalStarting_keeps | split
theorem State.closeOut_keeps {s x : State} (hk : Keeps s x) (d : Side) : Keeps s (x.closeOut d) := by
  unfold State.closeOut; try dsimp only
  repeat' first | with_reducible exact hk | with_reducible apply State.updRetSide_keeps | with_reducible apply State.updFp_keeps | with_reducible apply State.attn_keeps | with_reducible apply State.attnIf_keeps | with_reducible apply State.updValveSide_keeps | with_reducible apply State.requestSale_keeps
theorem State.afterCompletion_keeps {s x : State} (hk : Keeps s x) (d : Side) : Keeps s (x.afterCompletion d) := by
  unfold State.afterCompletion; try dsimp only
  repeat' first | with_reducible exact hk | with_reducible apply State.lockFp_keeps | with_reducible apply State.setFpState_keeps | split
theorem State.completeSale_keeps {s x : State} (hk : Keeps s x) (d : Side) : Keeps s (x.completeSale d) := by
  unfold State.completeSale; try dsimp only
  repeat' first | with_reducible exact hk | with_reducible apply State.closeOut_keeps | with_reducible apply State.afterCompletion_keeps | with_reducible apply State.applyIfDue_keeps | with_reducible apply State.finishPending_keeps

/-! ## Machine/Heads.lean -/

theorem State.askCall_keeps {s x : State} (hk : Keeps s x) (k : CallKind) : Keeps s (x.askCall k) := by
  unfold State.askCall; try dsimp only
  repeat' first | with_reducible exact hk | with_reducible apply State.updDisp_keeps
theorem State.checkProbing_keeps {s x : State} (hk : Keeps s x) : Keeps s (x.checkProbing) := by
  unfold State.checkProbing; try dsimp only
  repeat' first | with_reducible exact hk | with_reducible apply State.askCall_keeps | split
theorem State.endFlight_keeps {s x : State} (hk : Keeps s x) : Keeps s (x.endFlight) := by
  unfold State.endFlight; try dsimp only
  repeat' first | with_reducible exact hk | with_reducible apply State.updDisp_keeps
theorem State.startSpacing_keeps {s x : State} (hk : Keeps s x) (e : Entry) : Keeps s (x.startSpacing e) := by
  unfold State.startSpacing; try dsimp only
  repeat' first | with_reducible exact hk | with_reducible apply State.updHead_keeps | split
theorem State.messageDown_keeps {s x : State} (hk : Keeps s x) (d : Side) (r : Role) : Keeps s (x.messageDown d r) := by
  unfold State.messageDown; try dsimp only
  repeat' first | with_reducible exact hk | with_reducible apply State.completeOpt_keeps | with_reducible apply State.updLine_keeps
theorem State.headChanged_keeps {s x : State} (hk : Keeps s x) (r : Role) (old : HeadState) : Keeps s (x.headChanged r old) := by
  unfold State.headChanged; try dsimp only
  repeat' first | with_reducible exact hk | with_reducible apply State.attn_keeps | with_reducible apply State.messageDown_keeps | with_reducible apply State.headReport_keeps | split
theorem State.headUp_keeps {s x : State} (hk : Keeps s x) (r : Role) (st : HeadState) : Keeps s (x.headUp r st) := by
  unfold State.headUp; try dsimp only
  repeat' first | with_reducible exact hk | with_reducible apply State.updHead_keeps | with_reducible apply State.updDisp_keeps | with_reducible apply State.headChanged_keeps
theorem State.headFailed_keeps {s x : State} (hk : Keeps s x) (r : Role) (why : FailReason) : Keeps s (x.headFailed r why) := by
  unfold State.headFailed; try dsimp only
  repeat' first | with_reducible exact hk | with_reducible apply State.updHead_keeps | with_reducible apply State.updDisp_keeps | with_reducible apply State.headChanged_keeps
theorem State.headShift_keeps {s x : State} (hk : Keeps s x) (r : Role) (st : HeadState) : Keeps s (x.headShift r st) := by
  unfold State.headShift; try dsimp only
  repeat' first | with_reducible exact hk | with_reducible apply State.updHead_keeps | with_reducible apply State.headChanged_keeps
theorem State.frameDone_keeps {s x : State} (hk : Keeps s x) (r : Role) : Keeps s (x.frameDone r) := by
  unfold State.frameDone; try dsimp only
  repeat' first | with_reducible exact hk | with_reducible apply State.updHead_keeps
theorem State.attemptFailed_keeps {s x : State} (hk : Keeps s x) (e : Entry) (why : FailReason) : Keeps s (x.attemptFailed e why) := by
  unfold State.attemptFailed; try dsimp only
  repeat' first | with_reducible exact hk | with_reducible apply State.updHead_keeps | with_reducible apply State.headFailed_keeps | with_reducible apply State.updDisp_keeps | with_reducible apply State.startSpacing_keeps | split
theorem State.flightFailed_keeps {s x : State} (hk : Keeps s x) (f : Flight) (why : FailReason) : Keeps s (x.flightFailed f why) := by
  unfold State.flightFailed; try dsimp only
  repeat' first | with_reducible exact hk | with_reducible apply State.attemptFailed_keeps | with_reducible apply State.checkProbing_keeps | split
theorem State.messageShown_keeps {s x : State} (hk : Keeps s x) (d : Side) (bytes : List Byte) : Keeps s (x.messageShown d bytes) := by
  unfold State.messageShown; try dsimp only
  repeat' first | with_reducible exact hk | with_reducible apply State.completeOpt_keeps | with_reducible apply State.updLine_keeps | split
theorem State.showAcked_keeps {s x : State} (hk : Keeps s x) (r : Role) (f : Field) (bytes : List Byte) : Keeps s (x.showAcked r f bytes) := by
  unfold State.showAcked; try dsimp only
  repeat' first | with_reducible exact hk | with_reducible apply State.updHead_keeps | with_reducible apply State.messageShown_keeps | split
theorem State.zeroAcked_keeps {s x : State} (hk : Keeps s x) (f : Flight) : Keeps s (x.zeroAcked f) := by
  unfold State.zeroAcked; try dsimp only
  repeat' first | with_reducible exact hk | with_reducible apply State.updFp_keeps | with_reducible apply State.evalStarting_keeps | split
theorem State.probeAnswer_keeps {s x : State} (hk : Keeps s x) (e : Entry) (b : Byte) : Keeps s (x.probeAnswer e b) := by
  unfold State.probeAnswer; try dsimp only
  repeat' first | with_reducible exact hk | with_reducible apply State.frameDone_keeps | with_reducible apply State.headUp_keeps | with_reducible apply State.headFailed_keeps | with_reducible apply State.attemptFailed_keeps | split
theorem State.refreshAnswer_keeps {s x : State} (hk : Keeps s x) (e : Entry) (b check : Byte) : Keeps s (x.refreshAnswer e b check) := by
  unfold State.refreshAnswer; try dsimp only
  repeat' first | with_reducible exact hk | with_reducible apply State.frameDone_keeps | with_reducible apply State.headShift_keeps | with_reducible apply State.attemptFailed_keeps | with_reducible apply State.headFailed_keeps | split
theorem State.transferDone_keeps {s x : State} (hk : Keeps s x) (f : Flight) (b check : Byte) : Keeps s (x.transferDone f b check) := by
  unfold State.transferDone; try dsimp only
  repeat' first | with_reducible exact hk | with_reducible apply State.endFlight_keeps | with_reducible apply State.probeAnswer_keeps | with_reducible apply State.refreshAnswer_keeps | with_reducible apply State.checkProbing_keeps | with_reducible apply State.showAcked_keeps | with_reducible apply State.frameDone_keeps | with_reducible apply State.startSpacing_keeps | with_reducible apply State.zeroAcked_keeps | with_reducible apply State.updDisp_keeps | split
theorem State.configureHead_keeps {s x : State} (hk : Keeps s x) (r : Role) : Keeps s (x.configureHead r) := by
  unfold State.configureHead; try dsimp only
  repeat' first | with_reducible exact hk | with_reducible apply State.updHead_keeps | with_reducible apply State.updDisp_keeps | with_reducible apply State.headChanged_keeps
theorem State.removeHead_keeps {s x : State} (hk : Keeps s x) (r : Role) : Keeps s (x.removeHead r) := by
  unfold State.removeHead; try dsimp only
  repeat' first | with_reducible exact hk | with_reducible apply State.updHead_keeps | with_reducible apply State.updDisp_keeps | with_reducible apply State.headChanged_keeps
theorem State.mapHead_keeps {s x : State} (hk : Keeps s x) (r : Role) : Keeps s (x.mapHead r) := by
  unfold State.mapHead; try dsimp only
  repeat' first | with_reducible exact hk | with_reducible apply State.configureHead_keeps | with_reducible apply State.removeHead_keeps | split
theorem State.readMap_keeps {s x : State} (hk : Keeps s x) : Keeps s x.readMap :=
  keeps_foldl _ _ hk (fun _ _ => State.mapHead_keeps (.refl _) _)
theorem State.rereadMap_keeps {s x : State} (hk : Keeps s x) : Keeps s (x.rereadMap) := by
  unfold State.rereadMap; try dsimp only
  repeat' first | with_reducible exact hk | with_reducible apply State.readMap_keeps | with_reducible apply State.checkProbing_keeps | split
theorem State.dropMessages_keeps {s x : State} (hk : Keeps s x) : Keeps s (x.dropMessages) := by
  unfold State.dropMessages; try dsimp only
  repeat' first | with_reducible exact hk | with_reducible apply State.completeOpt_keeps | with_reducible apply State.updLine_keeps
theorem State.parkDisplay_keeps {s x : State} (hk : Keeps s x) : Keeps s x.parkDisplay := by
  unfold State.parkDisplay
  apply State.attnIf_keeps; apply State.updDisp_keeps; exact hk
theorem State.blankHeads_keeps {s x : State} (hk : Keeps s x) : Keeps s (x.blankHeads) := by
  unfold State.blankHeads; try dsimp only
  repeat' first | with_reducible exact hk | with_reducible apply State.updDisp_keeps
theorem State.endSegmentTest_keeps {s x : State} (hk : Keeps s x) : Keeps s (x.endSegmentTest) := by
  unfold State.endSegmentTest; try dsimp only
  repeat' first | with_reducible exact hk | with_reducible apply State.updDisp_keeps

/-! ## Machine/Links.lean -/

theorem State.readerLeft_keeps {s x : State} (hk : Keeps s x) (d : Side) : Keeps s (x.readerLeft d) := by
  unfold State.readerLeft; try dsimp only
  repeat' first | with_reducible exact hk | with_reducible apply State.endAuthReady_keeps | split
theorem State.readerTampered_keeps {s x : State} (hk : Keeps s x) (d : Side) : Keeps s (x.readerTampered d) := by
  unfold State.readerTampered; try dsimp only
  repeat' first | with_reducible exact hk | with_reducible apply State.takeCause_keeps | split
theorem State.setReaderState_keeps {s x : State} (hk : Keeps s x) (d : Side) (st : ReaderState) : Keeps s (x.setReaderState d st) := by
  unfold State.setReaderState; try dsimp only
  repeat' first | with_reducible exact hk | with_reducible apply State.updReader_keeps | with_reducible apply State.attn_keeps | with_reducible apply State.readerLeft_keeps | with_reducible apply State.readerTampered_keeps | split
theorem State.completeSends_keeps {s x : State} (hk : Keeps s x) (c : OffCause) (xs : List SendOrder) : Keeps s (x.completeSends c xs) :=
  keeps_foldl _ _ hk (fun _ _ => State.complete_keeps (.refl _) _ _ _)
theorem State.cutReader_keeps {s x : State} (hk : Keeps s x) (d : Side) (c : OffCause) (st : ReaderState) : Keeps s (x.cutReader d c st) := by
  unfold State.cutReader; try dsimp only
  repeat' first | with_reducible exact hk | with_reducible apply State.completeSends_keeps | with_reducible apply State.updReader_keeps | with_reducible apply State.setReaderState_keeps
theorem State.warmReader_keeps {s x : State} (hk : Keeps s x) (d : Side) : Keeps s (x.warmReader d) := by
  unfold State.warmReader; try dsimp only
  repeat' first | with_reducible exact hk | with_reducible apply State.updReader_keeps | with_reducible apply State.setReaderState_keeps
theorem State.powerReader_keeps {s x : State} (hk : Keeps s x) (d : Side) : Keeps s (x.powerReader d) := by
  unfold State.powerReader; try dsimp only
  repeat' first | with_reducible exact hk | with_reducible apply State.updReader_keeps | with_reducible apply State.setReaderState_keeps | with_reducible apply State.warmReader_keeps | split
theorem State.readerOff_keeps {s x : State} (hk : Keeps s x) (d : Side) (c : OffCause) : Keeps s (x.readerOff d c) := by
  unfold State.readerOff; try dsimp only
  repeat' first | with_reducible exact hk | with_reducible apply State.cutReader_keeps | with_reducible apply State.updReader_keeps | with_reducible apply State.setReaderState_keeps | split
theorem State.readerOffFor_keeps {s x : State} (hk : Keeps s x) (d : Side) (c : OffCause) : Keeps s (x.readerOffFor d c) := by
  unfold State.readerOffFor; try dsimp only
  repeat' first | with_reducible exact hk | with_reducible apply State.readerOff_keeps | with_reducible apply State.updReader_keeps | split
theorem State.readFitted_keeps {s x : State} (hk : Keeps s x) (d : Side) : Keeps s (x.readFitted d) := by
  unfold State.readFitted; try dsimp only
  repeat' first | with_reducible exact hk | with_reducible apply State.updReader_keeps
theorem State.powerFresh_keeps {s x : State} (hk : Keeps s x) (d : Side) : Keeps s (x.powerFresh d) :=
  State.powerReader_keeps (State.updReader_keeps hk _ _) d
theorem State.rereadFitted_keeps {s x : State} (hk : Keeps s x) (d : Side) : Keeps s (x.rereadFitted d) := by
  unfold State.rereadFitted; try dsimp only
  repeat' first | with_reducible exact hk | with_reducible apply State.readFitted_keeps | with_reducible apply State.powerFresh_keeps | with_reducible apply State.readerOffFor_keeps | split
theorem State.readerMiss_keeps {s x : State} (hk : Keeps s x) (d : Side) : Keeps s (x.readerMiss d) := by
  unfold State.readerMiss; try dsimp only
  repeat' first | with_reducible exact hk | with_reducible apply State.updReader_keeps | with_reducible apply State.cutReader_keeps | split
theorem State.storeMail_keeps {s x : State} (hk : Keeps s x) (d : Side) (payload : List Byte) : Keeps s (x.storeMail d payload) := by
  unfold State.storeMail; try dsimp only
  repeat' first | with_reducible exact hk | with_reducible apply State.updReader_keeps | with_reducible apply State.attn_keeps | split
theorem State.giveAnswer_keeps {s x : State} (hk : Keeps s x) (d : Side) (k : ReplyKind) : Keeps s (x.giveAnswer d k) := by
  unfold State.giveAnswer; try dsimp only
  repeat' first | with_reducible exact hk | with_reducible apply State.updReader_keeps | with_reducible apply State.complete_keeps | split
theorem State.replyAction_keeps {s x : State} (hk : Keeps s x) (d : Side) (f : LinkKind) (k : ReplyKind) (payload : List Byte) : Keeps s (x.replyAction d f k payload) := by
  unfold State.replyAction; try dsimp only
  repeat' first | with_reducible exact hk | with_reducible apply State.storeMail_keeps | with_reducible apply State.giveAnswer_keeps | split
theorem State.readiness_keeps {s x : State} (hk : Keeps s x) (d : Side) (ready : Bool) : Keeps s (x.readiness d ready) := by
  unfold State.readiness; try dsimp only
  repeat' first | with_reducible exact hk | with_reducible apply State.updReader_keeps | with_reducible apply State.setReaderState_keeps | split
theorem State.replyTaken_keeps {s x : State} (hk : Keeps s x) (d : Side) (f : LinkKind) (k : ReplyKind) (r : Reply) : Keeps s (x.replyTaken d f k r) := by
  unfold State.replyTaken; try dsimp only
  repeat' first | with_reducible exact hk | with_reducible apply State.updReader_keeps | with_reducible apply State.replyAction_keeps | with_reducible apply State.readiness_keeps

/-! ## Machine/StoreOps.lean -/

theorem State.flagMetrology_keeps {s x : State} (hk : Keeps s x) (old : StorePort) : Keeps s (x.flagMetrology old) := by
  unfold State.flagMetrology; try dsimp only
  repeat' first | with_reducible exact hk | with_reducible apply State.attnIf_keeps
theorem State.loadK_keeps {s x : State} (hk : Keeps s x) : Keeps s x.loadK :=
  keeps_foldl _ _ hk (fun _ _ => State.updMeter_keeps (.refl _) _ _)
theorem State.loadStore_keeps {s x : State} (hk : Keeps s x) (image : List Host.Cell) : Keeps s (x.loadStore image) := by
  unfold State.loadStore; try dsimp only
  repeat' first | with_reducible exact hk | with_reducible apply State.updStore_keeps | with_reducible apply State.flagMetrology_keeps | with_reducible apply State.updHalt_keeps | with_reducible apply State.loadK_keeps
theorem State.takeCalibration_keeps {s x : State} (hk : Keeps s x) (m : Meter) : Keeps s (x.takeCalibration m) := by
  unfold State.takeCalibration; try dsimp only
  repeat' first | with_reducible exact hk | with_reducible apply State.updMeter_keeps
theorem State.tellUsers_keeps {s x : State} (hk : Keeps s x) : Keeps s (x.tellUsers) := by
  unfold State.tellUsers; try dsimp only
  repeat' first | with_reducible exact hk | with_reducible apply State.rereadMap_keeps | with_reducible apply State.rereadFitted_keeps | with_reducible apply State.requestBoard_keeps
theorem State.beginWrite_keeps {s x : State} (hk : Keeps s x) : Keeps s (x.beginWrite) := by
  unfold State.beginWrite; try dsimp only
  repeat' first | with_reducible exact hk | with_reducible apply State.updStore_keeps | split
theorem State.writeGood_keeps {s x : State} (hk : Keeps s x) (w : StoreWrite) : Keeps s (x.writeGood w) := by
  unfold State.writeGood; try dsimp only
  repeat' first | with_reducible exact hk | with_reducible apply State.updStore_keeps | with_reducible apply State.attnIf_keeps | with_reducible apply State.reviewBoth_keeps | with_reducible apply State.complete_keeps | with_reducible apply State.beginWrite_keeps | split
theorem State.writeBad_keeps {s x : State} (hk : Keeps s x) : Keeps s (x.writeBad) := by
  unfold State.writeBad; try dsimp only
  repeat' first | with_reducible exact hk | with_reducible apply State.updStore_keeps | with_reducible apply State.attn_keeps | with_reducible apply State.complete_keeps | with_reducible apply State.beginWrite_keeps | split
theorem State.pageGood_keeps {s x : State} (hk : Keeps s x) (w : StoreWrite) : Keeps s (x.pageGood w) := by
  unfold State.pageGood; try dsimp only
  repeat' first | with_reducible exact hk | with_reducible apply State.updStore_keeps | with_reducible apply State.writeGood_keeps | split
theorem State.storeEffect_keeps {s x : State} (hk : Keeps s x) (o : Order) (block : ParamBlock) (wholeLog : Bool) (image : Memory) (c : LogChange) : Keeps s (x.storeEffect o block wholeLog image c) := by
  unfold State.storeEffect; try dsimp only
  repeat' first | with_reducible exact hk | with_reducible apply State.updStore_keeps | with_reducible apply State.attnIf_keeps | with_reducible apply State.beginWrite_keeps

/-! ## Machine/Supply.lean -/

theorem State.zeroExchange_keeps {s x : State} (hk : Keeps s x) : Keeps s x.zeroExchange :=
  hk.trans ⟨rfl, rfl, fun _ => ⟨rfl, rfl, by simp [State.zeroExchange, Port.zeroed], by simp [State.zeroExchange, Port.zeroed], by simp [State.zeroExchange, Port.zeroed]⟩⟩
theorem State.mirrorCleared_keeps {s x : State} (hk : Keeps s x) : Keeps s (x.mirrorCleared) := hk.same rfl rfl rfl rfl rfl
theorem State.stopDecoding_keeps {s x : State} (hk : Keeps s x) : Keeps s (x.stopDecoding) := hk.same rfl rfl rfl rfl rfl
theorem State.dropStoreList_keeps {s x : State} (hk : Keeps s x) : Keeps s x.dropStoreList := by
  unfold State.dropStoreList
  apply State.updStore_keeps
  exact keeps_foldl _ _ hk (fun _ _ => State.complete_keeps (.refl _) _ _ _)
theorem State.wakeStart_keeps {s x : State} (hk : Keeps s x) (c : WakeCause) : Keeps s (x.wakeStart c) := by
  unfold State.wakeStart
  apply State.stopDecoding_keeps; apply State.dropStoreList_keeps; apply State.updDisp_keeps; apply State.dropMessages_keeps
  refine State.updPort_keeps ?_ _ rfl rfl
  apply State.setWakeTime_keeps; apply State.attn_keeps; apply State.updPower_keeps; apply State.setPowerState_keeps; exact hk
theorem State.startLockFlow_keeps {s x : State} (hk : Keeps s x) (d : Side) : Keeps s (x.startLockFlow d) := by
  unfold State.startLockFlow; try dsimp only
  repeat' first | with_reducible exact hk | with_reducible apply State.updFp_keeps | split
theorem State.startDecoding_keeps {s x : State} (hk : Keeps s x) (levels : Sides (Three LevelPair)) : Keeps s (x.startDecoding levels) := by
  unfold State.startDecoding
  refine keeps_foldl _ _ ?_ (fun y r => State.rewrite_keeps (.refl y) r)
  apply State.startLockFlow_keeps; apply State.startLockFlow_keeps; apply State.updPower_keeps
  exact hk.same rfl rfl rfl rfl rfl
theorem State.initRetention_keeps {s x : State} (hk : Keeps s x) : Keeps s x.initRetention := by
  unfold State.initRetention
  refine keeps_foldl _ _ ?_ (fun y r => State.rewrite_keeps (.refl y) r)
  apply State.setFpState_keeps; apply State.setFpState_keeps; apply State.setPriceOrder_keeps; apply State.updPower_keeps
  exact hk.same rfl rfl rfl rfl rfl
theorem State.finalizeFp_keeps {s x : State} (hk : Keeps s x) (d : Side) : Keeps s (x.finalizeFp d) := by
  unfold State.finalizeFp
  dsimp only
  split
  · have hc := State.closeOut_keeps (State.updSale_keeps hk d (x.sale d).cutParts Sale.cutOff) d
    split
    · exact State.lockFp_keeps hc _ _
    · exact State.setFpState_keeps hc _ _
  · exact State.setFpState_keeps hk _ _
theorem State.applyRetained_keeps {s x : State} (hk : Keeps s x) : Keeps s (x.applyRetained) := by
  unfold State.applyRetained; try dsimp only
  repeat' first | with_reducible exact hk | with_reducible apply State.applySet_keeps | with_reducible apply State.finishPending_keeps
theorem State.retentionPhase_keeps {s x : State} (hk : Keeps s x) : Keeps s (x.retentionPhase) := by
  unfold State.retentionPhase; try dsimp only
  repeat' first | with_reducible exact hk | with_reducible apply State.updPower_keeps | with_reducible apply State.finalizeFp_keeps | with_reducible apply State.applyRetained_keeps | with_reducible apply State.initRetention_keeps | split
theorem State.enterDisplay_keeps {s x : State} (hk : Keeps s x) : Keeps s (x.enterDisplay) := by
  unfold State.enterDisplay; try dsimp only
  repeat' first | with_reducible exact hk | with_reducible apply State.setPhase_keeps | with_reducible apply State.updDisp_keeps
theorem State.drivesPhase_keeps {s x : State} (hk : Keeps s x) : Keeps s (x.drivesPhase) := by
  unfold State.drivesPhase; try dsimp only
  repeat' first | with_reducible exact hk | with_reducible apply State.updMotor_keeps | with_reducible apply State.attn_keeps | with_reducible apply State.updPower_keeps | split
theorem State.readersPhase_keeps {s x : State} (hk : Keeps s x) : Keeps s (x.readersPhase) := by
  unfold State.readersPhase; try dsimp only
  repeat' first | with_reducible exact hk | with_reducible apply State.readFitted_keeps | with_reducible apply State.powerFresh_keeps
theorem State.wakeEnd_keeps {s x : State} (hk : Keeps s x) : Keeps s (x.wakeEnd) := by
  unfold State.wakeEnd; try dsimp only
  repeat' first | with_reducible exact hk | with_reducible apply State.updPower_keeps | with_reducible apply State.attn_keeps | with_reducible apply State.updHalt_keeps | with_reducible apply State.enterHalt_keeps | with_reducible apply State.setPowerState_keeps | with_reducible apply State.requeueMotors_keeps | with_reducible apply State.reviewBoth_keeps | split
theorem State.interruptFp_keeps {s x : State} (hk : Keeps s x) (d : Side) (c : Cause) : Keeps s (x.interruptFp d c) := by
  unfold State.interruptFp; try dsimp only
  repeat' first | with_reducible exact hk | with_reducible apply State.updSale_keeps | with_reducible apply State.updFp_keeps | with_reducible apply State.requestSale_keeps | with_reducible apply State.endSale_keeps | with_reducible apply State.endAuth_keeps | with_reducible apply State.setFpState_keeps | split
theorem State.disableValves_keeps {s x : State} (hk : Keeps s x) : Keeps s (x.disableValves) := by
  unfold State.disableValves; try dsimp only
  repeat' first | with_reducible exact hk | with_reducible apply State.updValveSide_keeps | with_reducible apply State.closeAll_keeps
theorem State.disableDrives_keeps {s x : State} (hk : Keeps s x) : Keeps s (x.disableDrives) := by
  unfold State.disableDrives; try dsimp only
  repeat' first | with_reducible exact hk | with_reducible apply State.disableValves_keeps | with_reducible apply State.stopDrives_keeps | with_reducible apply State.updPower_keeps
theorem State.leaveHalt_keeps {s x : State} (hk : Keeps s x) : Keeps s (x.leaveHalt) := by
  unfold State.leaveHalt; try dsimp only
  repeat' first | with_reducible exact hk | with_reducible apply State.updHalt_keeps | with_reducible apply State.attn_keeps | split
theorem State.failActions_keeps {s x : State} (hk : Keeps s x) (c : Cause) (off : OffCause) : Keeps s (x.failActions c off) := by
  unfold State.failActions; try dsimp only
  repeat' first | with_reducible exact hk | with_reducible apply State.disableDrives_keeps | with_reducible apply State.setPowerState_keeps | with_reducible apply State.interruptFp_keeps | with_reducible apply State.readerOffFor_keeps | with_reducible apply State.updDisp_keeps | with_reducible apply State.leaveHalt_keeps | with_reducible apply State.updPower_keeps | with_reducible apply State.updStore_keeps
theorem State.beginShutdown_keeps {s x : State} (hk : Keeps s x) : Keeps s (x.beginShutdown) := by
  unfold State.beginShutdown; try dsimp only
  repeat' first | with_reducible exact hk | with_reducible apply State.setPowerState_keeps | with_reducible apply State.closeAll_keeps | with_reducible apply State.stopDrives_keeps | with_reducible apply State.readerOff_keeps | with_reducible apply State.reviewBoth_keeps | with_reducible apply State.updStore_keeps | with_reducible apply State.updPower_keeps | with_reducible apply State.dropMessages_keeps | with_reducible apply State.askCall_keeps | split
theorem State.deviceReset_keeps {s x : State} (hk : Keeps s x) (c : WakeCause) : Keeps s (x.deviceReset c) := by
  unfold State.deviceReset; try dsimp only
  repeat' first | with_reducible exact hk | with_reducible apply State.failActions_keeps | with_reducible apply State.updPower_keeps | split

/-! ## Machine/Fueling.lean -/

theorem State.authorizeFp_keeps {s x : State} (hk : Keeps s x) (d : Side) : Keeps s (x.authorizeFp d) := by
  unfold State.authorizeFp; try dsimp only
  repeat' first | with_reducible exact hk | with_reducible apply State.updFp_keeps | with_reducible apply State.setFpState_keeps
theorem State.refuseHose_keeps {s x : State} (hk : Keeps s x) (d : Side) (h : Option Hose) : Keeps s (x.refuseHose d h) := by
  unfold State.refuseHose; try dsimp only
  repeat' first | with_reducible exact hk | with_reducible apply State.updFp_keeps | with_reducible apply State.attn_keeps
theorem State.grantAuth_keeps {s x : State} (hk : Keeps s x) (d : Side) : Keeps s (x.grantAuth d) := by
  unfold State.grantAuth; try dsimp only
  repeat' first | with_reducible exact hk | with_reducible apply State.openSale_keeps | with_reducible apply State.authorizeFp_keeps | with_reducible apply State.refuseHose_keeps | split
theorem State.orderAuthorize_keeps {s x : State} (hk : Keeps s x) (o : Order) (d : Side) : Keeps s (x.orderAuthorize o d) := by
  unfold State.orderAuthorize; try dsimp only
  have hf (n : Nat) : Keeps s { x with free := n } := hk.same rfl rfl rfl rfl rfl
  repeat' first | with_reducible exact hk | with_reducible exact hf _ | with_reducible apply State.complete_keeps | with_reducible apply State.updFp_keeps | with_reducible apply State.grantAuth_keeps | split
theorem State.unlessHalted_keeps {s x : State} (hk : Keeps s x) (o : Order) (act : State → State) (ha : ∀ y, Keeps y (act y)) :
    Keeps s (x.unlessHalted o act) := by
  unfold State.unlessHalted; split
  · exact State.complete_keeps hk _ _ _
  · exact hk.trans (ha x)
theorem State.orderDeauthorize_keeps {s x : State} (hk : Keeps s x) (o : Order) (d : Side) : Keeps s (x.orderDeauthorize o d) := by
  unfold State.orderDeauthorize; try dsimp only
  repeat' first | with_reducible exact hk | (apply State.unlessHalted_keeps hk; intro y; clear hk; have hk := Keeps.refl y) | with_reducible apply State.endAuthReady_keeps | with_reducible apply State.complete_keeps | split
theorem State.orderStop_keeps {s x : State} (hk : Keeps s x) (o : Order) (d : Side) : Keeps s (x.orderStop o d) := by
  unfold State.orderStop; try dsimp only
  repeat' first | with_reducible exact hk | (apply State.unlessHalted_keeps hk; intro y; clear hk; have hk := Keeps.refl y) | with_reducible apply State.takeCause_keeps | with_reducible apply State.complete_keeps | split
theorem State.pauseFp_keeps {s x : State} (hk : Keeps s x) (d : Side) : Keeps s (x.pauseFp d) := by
  unfold State.pauseFp; try dsimp only
  repeat' first | with_reducible exact hk | with_reducible apply State.closeSide_keeps | with_reducible apply State.stopBlend_keeps | with_reducible apply State.dropAll_keeps | with_reducible apply State.updFp_keeps | with_reducible apply State.setFpState_keeps
theorem State.orderPause_keeps {s x : State} (hk : Keeps s x) (o : Order) (d : Side) : Keeps s (x.orderPause o d) := by
  unfold State.orderPause; try dsimp only
  repeat' first | with_reducible exact hk | (apply State.unlessHalted_keeps hk; intro y; clear hk; have hk := Keeps.refl y) | with_reducible apply State.pauseFp_keeps | with_reducible apply State.complete_keeps | split
theorem State.resumeFp_keeps {s x : State} (hk : Keeps s x) (d : Side) : Keeps s (x.resumeFp d) := by
  unfold State.resumeFp; try dsimp only
  repeat' first | with_reducible exact hk | with_reducible apply State.updFp_keeps | with_reducible apply State.enterStarting_keeps | with_reducible apply State.raiseAll_keeps | with_reducible apply State.evalStarting_keeps | split
theorem State.orderResume_keeps {s x : State} (hk : Keeps s x) (o : Order) (d : Side) : Keeps s (x.orderResume o d) := by
  unfold State.orderResume; try dsimp only
  repeat' first | with_reducible exact hk | (apply State.unlessHalted_keeps hk; intro y; clear hk; have hk := Keeps.refl y) | with_reducible apply State.resumeFp_keeps | with_reducible apply State.complete_keeps | split
theorem State.orderSettle_keeps {s x : State} (hk : Keeps s x) (o : Order) (d : Side) : Keeps s (x.orderSettle o d) := by
  unfold State.orderSettle; try dsimp only
  repeat' first | with_reducible exact hk | with_reducible apply State.complete_keeps | with_reducible apply State.updRetSide_keeps | split
theorem State.unlockFp_keeps {s x : State} (hk : Keeps s x) (d : Side) : Keeps s (x.unlockFp d) := by
  unfold State.unlockFp
  apply State.setFpState_keeps; apply State.updFp_keeps
  exact keeps_foldl _ _ (State.updRetSide_keeps hk _ _ _) (fun _ _ => State.updMeter_keeps (.refl _) _ _)
theorem State.orderClearLock_keeps {s x : State} (hk : Keeps s x) (o : Order) (d : Side) : Keeps s (x.orderClearLock o d) := by
  unfold State.orderClearLock; try dsimp only
  repeat' first | with_reducible exact hk | (apply State.unlessHalted_keeps hk; intro y; clear hk; have hk := Keeps.refl y) | with_reducible apply State.complete_keeps | with_reducible apply State.unlockFp_keeps | split
theorem State.liftAuthorized_keeps {s x : State} (hk : Keeps s x) (d : Side) (h : Hose) : Keeps s (x.liftAuthorized d h) := by
  unfold State.liftAuthorized; try dsimp only
  repeat' first | with_reducible exact hk | with_reducible apply State.openSale_keeps | with_reducible apply State.refuseHose_keeps | split
theorem State.liftHose_keeps {s x : State} (hk : Keeps s x) (d : Side) (h : Hose) : Keeps s (x.liftHose d h) := by
  unfold State.liftHose; try dsimp only
  repeat' first | with_reducible exact hk | with_reducible apply State.updFp_keeps | with_reducible apply State.setFpState_keeps | with_reducible apply State.liftAuthorized_keeps | split
theorem State.hangHose_keeps {s x : State} (hk : Keeps s x) (d : Side) (h : Hose) : Keeps s (x.hangHose d h) := by
  unfold State.hangHose; try dsimp only
  repeat' first | with_reducible exact hk | with_reducible apply State.updFp_keeps | with_reducible apply State.takeCause_keeps | with_reducible apply State.setFpState_keeps | split
theorem State.pressButton_keeps {s x : State} (hk : Keeps s x) (d : Side) (g : Grade) : Keeps s (x.pressButton d g) := by
  unfold State.pressButton; try dsimp only
  repeat' first | with_reducible exact hk | with_reducible apply State.updFp_keeps | with_reducible apply State.evalStarting_keeps | split
theorem State.expireAuth_keeps {s x : State} (hk : Keeps s x) (d : Side) : Keeps s (x.expireAuth d) := by
  unfold State.expireAuth; try dsimp only
  repeat' first | with_reducible exact hk | with_reducible apply State.endAuthReady_keeps | split
theorem State.saleTimeout_keeps {s x : State} (hk : Keeps s x) (d : Side) (st : FpState) (t : Timer) (c : Cause) : Keeps s (x.saleTimeout d st t c) := by
  unfold State.saleTimeout; try dsimp only
  repeat' first | with_reducible exact hk | with_reducible apply State.takeCause_keeps | split

/-! ## Machine/PricesHalt.lean -/

theorem State.supersede_keeps {s x : State} (hk : Keeps s x) (version : Nat) : Keeps s (x.supersede version) := by
  unfold State.supersede; try dsimp only
  repeat' first | with_reducible exact hk | with_reducible apply State.completeOpt_keeps | with_reducible apply State.setPriceOrder_keeps | split
theorem State.orderPriceSet_keeps {s x : State} (hk : Keeps s x) (o : Order) : Keeps s (x.orderPriceSet o) := by
  unfold State.orderPriceSet; try dsimp only
  repeat' first | with_reducible exact hk | with_reducible apply State.complete_keeps | with_reducible apply State.supersede_keeps | with_reducible apply State.setPending_keeps | with_reducible apply State.setMark_keeps | with_reducible apply State.clearPending_keeps | with_reducible apply State.setPriceOrder_keeps | with_reducible apply State.attn_keeps | with_reducible apply State.applyBoth_keeps | split
theorem State.clearHalt_keeps {s x : State} (hk : Keeps s x) : Keeps s (x.clearHalt) := by
  unfold State.clearHalt; try dsimp only
  repeat' first | with_reducible exact hk | with_reducible apply State.updHalt_keeps | with_reducible apply State.updPower_keeps | with_reducible apply State.requeueMotors_keeps | with_reducible apply State.attn_keeps | with_reducible apply State.reviewBoth_keeps | with_reducible apply State.applyBoth_keeps
theorem State.orderClearHalt_keeps {s x : State} (hk : Keeps s x) (o : Order) : Keeps s (x.orderClearHalt o) := by
  unfold State.orderClearHalt; try dsimp only
  repeat' first | with_reducible exact hk | with_reducible apply State.complete_keeps | with_reducible apply State.clearHalt_keeps | split

/-! ## Machine/Metering.lean -/

theorem State.checkTargets_keeps {s x : State} (hk : Keeps s x) (d : Side) : Keeps s (x.checkTargets d) := by
  unfold State.checkTargets; try dsimp only
  repeat' first | with_reducible exact hk | with_reducible apply State.slowSide_keeps | with_reducible apply State.takeCause_keeps | split
theorem State.checkOverrun_keeps {s x : State} (hk : Keeps s x) (d : Side) : Keeps s (x.checkOverrun d) := by
  unfold State.checkOverrun; try dsimp only
  repeat' first | with_reducible exact hk | with_reducible apply State.updFp_keeps | with_reducible apply State.takeCause_keeps | split
theorem State.checkFlow_keeps {s x : State} (hk : Keeps s x) (d : Side) : Keeps s (x.checkFlow d) := by
  unfold State.checkFlow; try dsimp only
  repeat' first | with_reducible exact hk | with_reducible apply State.updFp_keeps | with_reducible apply State.reportHalt_keeps | split
theorem State.measureOverrun_keeps {s x : State} (hk : Keeps s x) (d : Side) : Keeps s (x.measureOverrun d) := by
  unfold State.measureOverrun; try dsimp only
  repeat' first | with_reducible exact hk | with_reducible apply State.updFp_keeps
theorem State.addToSale_keeps {s x : State} (hk : Keeps s x) (m : Meter) (rise : Nat) : Keeps s (x.addToSale m rise) := by
  unfold State.addToSale; try dsimp only
  repeat' first | with_reducible exact hk | with_reducible apply State.updSale_keeps | with_reducible apply State.updRetMeter_keeps | with_reducible apply State.requestSale_keeps | with_reducible apply State.measureOverrun_keeps | with_reducible apply State.checkTargets_keeps | with_reducible apply State.checkOverrun_keeps | with_reducible apply State.checkFlow_keeps | split
theorem State.addLockFlow_keeps {s x : State} (hk : Keeps s x) (d : Side) (rise : Nat) : Keeps s (x.addLockFlow d rise) := by
  unfold State.addLockFlow; try dsimp only
  repeat' first | with_reducible exact hk | with_reducible apply State.updFp_keeps | with_reducible apply State.reportHalt_keeps | split
theorem State.addUnassigned_keeps {s x : State} (hk : Keeps s x) (m : Meter) (rise : Nat) : Keeps s (x.addUnassigned m rise) := by
  unfold State.addUnassigned; try dsimp only
  repeat' first | with_reducible exact hk | with_reducible apply State.updRetMeter_keeps | with_reducible apply State.addLockFlow_keeps
theorem State.countVolume_keeps {s x : State} (hk : Keeps s x) (m : Meter) : Keeps s (x.countVolume m) := by
  unfold State.countVolume; try dsimp only
  repeat' first | with_reducible exact hk | with_reducible apply State.updMeter_keeps | with_reducible apply State.addToSale_keeps | with_reducible apply State.addUnassigned_keeps | split
theorem State.restartTimers_keeps {s x : State} (hk : Keeps s x) (m : Meter) : Keeps s (x.restartTimers m) := by
  unfold State.restartTimers; try dsimp only
  repeat' first | with_reducible exact hk | with_reducible apply State.updPower_keeps | with_reducible apply State.updFp_keeps | split
theorem State.tallyPulse_keeps {s x : State} (hk : Keeps s x) (m : Meter) : Keeps s (x.tallyPulse m) := by
  unfold State.tallyPulse; try dsimp only
  repeat' first | with_reducible exact hk | with_reducible apply State.updMeter_keeps | with_reducible apply State.takeCause_keeps | split
theorem State.countPulse_keeps {s x : State} (hk : Keeps s x) (m : Meter) : Keeps s (x.countPulse m) := by
  unfold State.countPulse; try dsimp only
  repeat' first | with_reducible exact hk | with_reducible apply State.restartTimers_keeps | with_reducible apply State.countVolume_keeps | with_reducible apply State.tallyPulse_keeps | split
theorem State.forward_keeps {s x : State} (hk : Keeps s x) (m : Meter) : Keeps s (x.forward m) := by
  unfold State.forward; try dsimp only
  repeat' first | with_reducible exact hk | with_reducible apply State.updMeter_keeps | with_reducible apply State.countPulse_keeps | split
theorem State.pulserFault_keeps {s x : State} (hk : Keeps s x) (m : Meter) : Keeps s (x.pulserFault m) := by
  unfold State.pulserFault; try dsimp only
  repeat' first | with_reducible exact hk | with_reducible apply State.updMeter_keeps | with_reducible apply State.takeCause_keeps | split
theorem State.backward_keeps {s x : State} (hk : Keeps s x) (m : Meter) : Keeps s (x.backward m) := by
  unfold State.backward; try dsimp only
  repeat' first | with_reducible exact hk | with_reducible apply State.updMeter_keeps | with_reducible apply State.pulserFault_keeps | split
theorem State.decoded_keeps {s x : State} (hk : Keeps s x) (act : State → State) (ha : ∀ y, Keeps y (act y)) :
    Keeps s (x.decoded act) := by
  unfold State.decoded; split
  · exact hk.trans (ha x)
  · exact hk
theorem State.quarter_keeps {s x : State} (hk : Keeps s x) (m : Meter) (i : MeterInput) : Keeps s (x.quarter m i) := by
  unfold State.quarter; try dsimp only
  repeat' first | with_reducible exact hk | with_reducible apply State.updMeter_keeps | with_reducible apply State.forward_keeps | with_reducible apply State.backward_keeps | split
theorem State.illegal_keeps {s x : State} (hk : Keeps s x) (m : Meter) : Keeps s (x.illegal m) := by
  unfold State.illegal; try dsimp only
  repeat' first | with_reducible exact hk | with_reducible apply State.updMeter_keeps | with_reducible apply State.pulserFault_keeps | split
theorem State.subwindow_keeps {s x : State} (hk : Keeps s x) (m : Meter) : Keeps s (x.subwindow m) := by
  unfold State.subwindow; try dsimp only
  repeat' first | with_reducible exact hk | with_reducible apply State.updMeter_keeps

/-! ## Machine/Drives.lean -/

theorem State.boundary_keeps {s x : State} (hk : Keeps s x) : Keeps s (x.boundary) := by
  unfold State.boundary; try dsimp only
  repeat' first | with_reducible exact hk | with_reducible apply State.updValveSide_keeps | split
theorem State.pullInEnd_keeps {s x : State} (hk : Keeps s x) (v : Meter) : Keeps s (x.pullInEnd v) := by
  unfold State.pullInEnd; try dsimp only
  repeat' first | with_reducible exact hk | with_reducible apply State.updValve_keeps | split
theorem State.correctBlend_keeps {s x : State} (hk : Keeps s x) (d : Side) (error : Int) : Keeps s (x.correctBlend d error) := by
  unfold State.correctBlend; try dsimp only
  repeat' first | with_reducible exact hk | with_reducible apply State.updBlend_keeps | with_reducible apply State.updValveSide_keeps
theorem State.blendExpiry_keeps {s x : State} (hk : Keeps s x) (d : Side) : Keeps s (x.blendExpiry d) := by
  unfold State.blendExpiry; try dsimp only
  repeat' first | with_reducible exact hk | with_reducible apply State.updBlend_keeps | with_reducible apply State.takeCause_keeps | with_reducible apply State.correctBlend_keeps | split
theorem State.startExpiry_keeps {s x : State} (hk : Keeps s x) (m : Product) : Keeps s (x.startExpiry m) := by
  unfold State.startExpiry; try dsimp only
  repeat' first | with_reducible exact hk | with_reducible apply State.updMotor_keeps | with_reducible apply State.evalBoth_keeps | with_reducible apply State.grant_keeps | split
theorem State.tripSide_keeps {s x : State} (hk : Keeps s x) (d : Side) (m : Product) : Keeps s (x.tripSide d m) := by
  unfold State.tripSide; try dsimp only
  repeat' first | with_reducible exact hk | with_reducible apply State.takeCause_keeps | split
theorem State.closeIfDrawn_keeps {s x : State} (hk : Keeps s x) (d : Side) (m : Product) : Keeps s (x.closeIfDrawn d m) := by
  unfold State.closeIfDrawn; try dsimp only
  repeat' first | with_reducible exact hk | with_reducible apply State.closeSide_keeps | split
theorem State.tripMotor_keeps {s x : State} (hk : Keeps s x) (m : Product) : Keeps s (x.tripMotor m) := by
  unfold State.tripMotor; try dsimp only
  repeat' first | with_reducible exact hk | with_reducible apply State.updMotor_keeps | with_reducible apply State.setStartQueue_keeps | with_reducible apply State.attn_keeps | with_reducible apply State.closeIfDrawn_keeps | with_reducible apply State.tripSide_keeps | with_reducible apply State.grant_keeps
theorem State.tripAssert_keeps {s x : State} (hk : Keeps s x) (m : Product) : Keeps s (x.tripAssert m) := by
  unfold State.tripAssert; try dsimp only
  repeat' first | with_reducible exact hk | with_reducible apply State.updMotor_keeps | with_reducible apply State.tripMotor_keeps | split
theorem State.clearMotor_keeps {s x : State} (hk : Keeps s x) (m : Product) : Keeps s (x.clearMotor m) := by
  unfold State.clearMotor; try dsimp only
  repeat' first | with_reducible exact hk | with_reducible apply State.updMotor_keeps | with_reducible apply State.attn_keeps | with_reducible apply State.joinQueue_keeps | with_reducible apply State.evalBoth_keeps | split
theorem State.orderMotorClear_keeps {s x : State} (hk : Keeps s x) (o : Order) : Keeps s (x.orderMotorClear o) := by
  unfold State.orderMotorClear; try dsimp only
  repeat' first | with_reducible exact hk | with_reducible apply State.complete_keeps | with_reducible apply State.clearMotor_keeps | split

/-! ## Machine/DisplayBus.lean -/

theorem State.orderShowMessage_keeps {s x : State} (hk : Keeps s x) (o : Order) : Keeps s (x.orderShowMessage o) := by
  unfold State.orderShowMessage; try dsimp only
  repeat' first | with_reducible exact hk | with_reducible apply State.complete_keeps | with_reducible apply State.completeOpt_keeps | with_reducible apply State.updLine_keeps | with_reducible apply State.requestMessage_keeps | split
theorem State.putOnBus_keeps {s x : State} (hk : Keeps s x) (f : Flight) : Keeps s (x.putOnBus f) := State.updDisp_keeps hk _
theorem State.startFrame_keeps {s x : State} (hk : Keeps s x) : Keeps s (x.startFrame) := by
  unfold State.startFrame; try dsimp only
  repeat' first | with_reducible exact hk | with_reducible apply State.updDisp_keeps | with_reducible apply State.putOnBus_keeps | split
theorem State.onFlight_keeps {s x : State} (hk : Keeps s x) (act : State → Flight → State) (ha : ∀ y f, Keeps y (act y f)) :
    Keeps s (x.onFlight act) := by
  unfold State.onFlight
  repeat' first | with_reducible exact hk | with_reducible exact hk.trans (ha x _) | split
theorem State.stretched_keeps {s x : State} (hk : Keeps s x) : Keeps s x.stretched := by
  unfold State.stretched
  split
  · exact State.updDisp_keeps hk _
  · exact State.onFlight_keeps hk _ (fun _ _ => State.flightFailed_keeps (State.updDisp_keeps (.refl _) _) _ _)
theorem State.loseBus_keeps {s x : State} (hk : Keeps s x) : Keeps s x.loseBus := by
  unfold State.loseBus
  split
  · exact State.updDisp_keeps hk _
  · exact State.onFlight_keeps hk _ (fun _ _ => State.updDisp_keeps (.refl _) _)
theorem State.callSent_keeps {s x : State} (hk : Keeps s x) : Keeps s (x.callSent) := by
  unfold State.callSent; try dsimp only
  repeat' first | with_reducible exact hk | with_reducible apply State.updDisp_keeps
theorem State.testSent_keeps {s x : State} (hk : Keeps s x) : Keeps s (x.testSent) := by
  unfold State.testSent; try dsimp only
  repeat' first | with_reducible exact hk | with_reducible apply State.updDisp_keeps
theorem State.wakeBlankSent_keeps {s x : State} (hk : Keeps s x) : Keeps s (x.wakeBlankSent) := by
  unfold State.wakeBlankSent; try dsimp only
  repeat' first | with_reducible exact hk | with_reducible apply State.endSegmentTest_keeps | with_reducible apply State.setPhase_keeps | with_reducible apply State.readersPhase_keeps | with_reducible apply State.drivesPhase_keeps | with_reducible apply State.wakeEnd_keeps
theorem State.shutdownBlankSent_keeps {s x : State} (hk : Keeps s x) : Keeps s (x.shutdownBlankSent) := by
  unfold State.shutdownBlankSent; try dsimp only
  repeat' first | with_reducible exact hk | with_reducible apply State.parkDisplay_keeps | with_reducible apply State.disableDrives_keeps | with_reducible apply State.updPower_keeps
theorem State.callDone_keeps {s x : State} (hk : Keeps s x) (c : GeneralCall) : Keeps s (x.callDone c) := by
  unfold State.callDone; try dsimp only
  repeat' first | with_reducible exact hk | with_reducible apply State.callSent_keeps | with_reducible apply State.testSent_keeps | with_reducible apply State.blankHeads_keeps | with_reducible apply State.wakeBlankSent_keeps | with_reducible apply State.shutdownBlankSent_keeps | with_reducible apply State.updDisp_keeps | split

/-! ## Machine/Readers.lean -/

theorem State.orderReaderSend_keeps {s x : State} (hk : Keeps s x) (o : Order) (d : Side) : Keeps s (x.orderReaderSend o d) := by
  unfold State.orderReaderSend; try dsimp only
  repeat' first | with_reducible exact hk | with_reducible apply State.complete_keeps | with_reducible apply State.updReader_keeps | split
theorem State.restartReader_keeps {s x : State} (hk : Keeps s x) (o : Order) (d : Side) : Keeps s (x.restartReader o d) := by
  unfold State.restartReader; try dsimp only
  repeat' first | with_reducible exact hk | with_reducible apply State.powerFresh_keeps | with_reducible apply State.complete_keeps
theorem State.restartTampered_keeps {s x : State} (hk : Keeps s x) (o : Order) (d : Side) : Keeps s (x.restartTampered o d) := by
  unfold State.restartTampered; try dsimp only
  have hf (n : Nat) : Keeps s { x with free := n } := hk.same rfl rfl rfl rfl rfl
  repeat' first | with_reducible exact hk | with_reducible exact hf _ | with_reducible apply State.complete_keeps | with_reducible apply State.updReader_keeps | with_reducible apply State.restartReader_keeps | split
theorem State.orderReaderRestart_keeps {s x : State} (hk : Keeps s x) (o : Order) (d : Side) : Keeps s (x.orderReaderRestart o d) := by
  unfold State.orderReaderRestart; try dsimp only
  repeat' first | with_reducible exact hk | with_reducible apply State.restartReader_keeps | with_reducible apply State.restartTampered_keeps | with_reducible apply State.complete_keeps | split
theorem State.replyRead_keeps {s x : State} (hk : Keeps s x) (d : Side) (r : Reply) : Keeps s (x.replyRead d r) := by
  unfold State.replyRead; try dsimp only
  repeat' first | with_reducible exact hk | with_reducible apply State.replyTaken_keeps | with_reducible apply State.readerMiss_keeps | with_reducible apply State.updReader_keeps | split
theorem State.warmUpFailed_keeps {s x : State} (hk : Keeps s x) (d : Side) : Keeps s (x.warmUpFailed d) := by
  unfold State.warmUpFailed; try dsimp only
  repeat' first | with_reducible exact hk | with_reducible apply State.cutReader_keeps | with_reducible apply State.updReader_keeps | split
theorem State.tamperReader_keeps {s x : State} (hk : Keeps s x) (d : Side) : Keeps s (x.tamperReader d) := by
  unfold State.tamperReader; try dsimp only
  repeat' first | with_reducible exact hk | with_reducible apply State.cutReader_keeps | with_reducible apply State.updReader_keeps | with_reducible apply State.setReaderState_keeps | split

/-! ## Machine/Metrology.lean -/

theorem State.calibrate_keeps {s x : State} (hk : Keeps s x) (o : Order) (m : Meter) : Keeps s (x.calibrate o m) := by
  unfold State.calibrate; try dsimp only
  repeat' first | with_reducible exact hk | with_reducible apply State.storeEffect_keeps | with_reducible apply State.takeCalibration_keeps
theorem State.orderCalibrate_keeps {s x : State} (hk : Keeps s x) (o : Order) : Keeps s (x.orderCalibrate o) := by
  unfold State.orderCalibrate; try dsimp only
  repeat' first | with_reducible exact hk | with_reducible apply State.complete_keeps | with_reducible apply State.calibrate_keeps | split
theorem State.setSettings_keeps {s x : State} (hk : Keeps s x) (o : Order) : Keeps s (x.setSettings o) := by
  unfold State.setSettings; try dsimp only
  repeat' first | with_reducible exact hk | with_reducible apply State.storeEffect_keeps | with_reducible apply State.tellUsers_keeps | with_reducible apply State.evalBoth_keeps
theorem State.orderSetSettings_keeps {s x : State} (hk : Keeps s x) (o : Order) : Keeps s (x.orderSetSettings o) := by
  unfold State.orderSetSettings; try dsimp only
  repeat' first | with_reducible exact hk | with_reducible apply State.complete_keeps | with_reducible apply State.setSettings_keeps | split
theorem keeps_retMet {s y : State} (h : Keeps s y) (r : Retention) (v : Revisions) (m : Sides (Three Channel)) :
    Keeps s { y with ret := r, rev := v, met := m } := h.same rfl rfl rfl rfl rfl
theorem State.initTotals_keeps {s x : State} (hk : Keeps s x) (o : Order) : Keeps s (x.initTotals o) := by
  unfold State.initTotals
  apply State.reviewBoth_keeps; apply State.updPower_keeps
  with_reducible refine keeps_retMet ?_ _ _ _
  apply State.storeEffect_keeps; exact hk
theorem State.orderInitTotals_keeps {s x : State} (hk : Keeps s x) (o : Order) : Keeps s (x.orderInitTotals o) := by
  unfold State.orderInitTotals; try dsimp only
  repeat' first | with_reducible exact hk | with_reducible apply State.complete_keeps | with_reducible apply State.initTotals_keeps | split
theorem State.clearLog_keeps {s x : State} (hk : Keeps s x) (o : Order) : Keeps s (x.clearLog o) := by
  unfold State.clearLog; try dsimp only
  repeat' first | with_reducible exact hk | with_reducible apply State.storeEffect_keeps
theorem State.orderClearLog_keeps {s x : State} (hk : Keeps s x) (o : Order) : Keeps s (x.orderClearLog o) := by
  unfold State.orderClearLog; try dsimp only
  repeat' first | with_reducible exact hk | with_reducible apply State.complete_keeps | with_reducible apply State.clearLog_keeps | split
theorem State.mismatch_keeps {s x : State} (hk : Keeps s x) : Keeps s (x.mismatch) := by
  unfold State.mismatch; try dsimp only
  repeat' first | with_reducible exact hk | with_reducible apply State.updStore_keeps | with_reducible apply State.reportHalt_keeps
theorem State.checkExpiry_keeps {s x : State} (hk : Keeps s x) (stored : Word16) : Keeps s (x.checkExpiry stored) := by
  unfold State.checkExpiry; try dsimp only
  repeat' first | with_reducible exact hk | with_reducible apply State.updStore_keeps | with_reducible apply State.mismatch_keeps | split
theorem State.reloadDone_keeps {s x : State} (hk : Keeps s x) (image : List Host.Cell) : Keeps s (x.reloadDone image) := by
  unfold State.reloadDone
  apply State.evalBoth_keeps; apply State.reviewBoth_keeps
  refine keeps_foldl _ _ ?_ (fun _ _ => State.takeCalibration_keeps (.refl _) _)
  apply State.tellUsers_keeps; apply State.updStore_keeps; apply State.loadStore_keeps; exact hk

/-! ## Machine/PowerEvents.lean -/

theorem State.orderStandby_keeps {s x : State} (hk : Keeps s x) (o : Order) : Keeps s (x.orderStandby o) := by
  unfold State.orderStandby; try dsimp only
  repeat' first | with_reducible exact hk | with_reducible apply State.complete_keeps | with_reducible apply State.setWakeTime_keeps | with_reducible apply State.updPower_keeps | with_reducible apply State.beginShutdown_keeps | split
theorem State.orderWake_keeps {s x : State} (hk : Keeps s x) (o : Order) : Keeps s (x.orderWake o) := by
  unfold State.orderWake; try dsimp only
  repeat' first | with_reducible exact hk | with_reducible apply State.complete_keeps | with_reducible apply State.wakeStart_keeps | split
theorem State.checkWakeTime_keeps {s x : State} (hk : Keeps s x) : Keeps s (x.checkWakeTime) := by
  unfold State.checkWakeTime; try dsimp only
  repeat' first | with_reducible exact hk | with_reducible apply State.wakeStart_keeps | with_reducible apply State.updPower_keeps | split
theorem State.orderSetClock_keeps {s x : State} (hk : Keeps s x) (o : Order) : Keeps s (x.orderSetClock o) := by
  unfold State.orderSetClock
  dsimp only
  have h1 : Keeps s { x with rtc := BitVec.ofNat 32 (x.bodyField o.ref.slot 0 4) } := hk.same rfl rfl rfl rfl rfl
  repeat' first | with_reducible exact hk | with_reducible exact h1 | with_reducible apply State.complete_keeps | with_reducible apply State.checkWakeTime_keeps | with_reducible apply State.rewrite_keeps | split
theorem State.degrade_keeps {s x : State} (hk : Keeps s x) (why : ClockFail) : Keeps s (x.degrade why) := by
  unfold State.degrade; try dsimp only
  repeat' first | with_reducible exact hk | with_reducible apply State.updPower_keeps | with_reducible apply State.attn_keeps
theorem State.endClock_keeps {s x : State} (hk : Keeps s x) : Keeps s (x.endClock) := by
  unfold State.endClock; try dsimp only
  repeat' first | with_reducible exact hk | with_reducible apply State.updPower_keeps | with_reducible apply State.setPhase_keeps
theorem State.degradeSale_keeps {s x : State} (hk : Keeps s x) (d : Side) : Keeps s (x.degradeSale d) := by
  unfold State.degradeSale; try dsimp only
  repeat' first | with_reducible exact hk | with_reducible apply State.updSale_keeps | split
theorem State.storeLoaded_keeps {s x : State} (hk : Keeps s x) (image : List Host.Cell) (levels : Sides (Three LevelPair)) : Keeps s (x.storeLoaded image levels) := by
  unfold State.storeLoaded; try dsimp only
  repeat' first | with_reducible exact hk | with_reducible apply State.loadStore_keeps | with_reducible apply State.updStore_keeps | with_reducible apply State.setPhase_keeps | with_reducible apply State.retentionPhase_keeps | with_reducible apply State.startDecoding_keeps | with_reducible apply State.reviewBoth_keeps | with_reducible apply State.enterDisplay_keeps
theorem State.updPort_asleep_keeps {s x : State} (hk : Keeps s x) :
    Keeps s (x.updPort (fun p => { p with posts := [], asleep := !p.awake })) :=
  hk.trans ⟨rfl, rfl, fun l => ⟨l.memory, l.numbers, l.width, by simp, by simp⟩⟩
theorem State.enterStandby_keeps {s x : State} (hk : Keeps s x) : Keeps s x.enterStandby := by
  unfold State.enterStandby
  dsimp only
  split
  · apply State.wakeStart_keeps; apply State.updPort_asleep_keeps; apply State.completeOpt_keeps; apply State.updPower_keeps
    apply State.setPowerState_keeps; apply State.updStore_keeps; apply State.stopDecoding_keeps; apply State.disableDrives_keeps
    exact hk
  · apply State.updPort_asleep_keeps; apply State.completeOpt_keeps; apply State.updPower_keeps
    apply State.setPowerState_keeps; apply State.updStore_keeps; apply State.stopDecoding_keeps; apply State.disableDrives_keeps
    exact hk
theorem State.endResetHold_keeps {s x : State} (hk : Keeps s x) : Keeps s (x.endResetHold) := by
  unfold State.endResetHold; try dsimp only
  repeat' first | with_reducible exact hk | with_reducible apply State.zeroExchange_keeps | with_reducible apply State.updPower_keeps | split
theorem State.failStandby_keeps {s x : State} (hk : Keeps s x) : Keeps s (x.failStandby) := by
  unfold State.failStandby; try dsimp only
  repeat' first | with_reducible exact hk | with_reducible apply State.completeOpt_keeps | with_reducible apply State.updPower_keeps
theorem State.powerFailWarning_keeps {s x : State} (hk : Keeps s x) : Keeps s (x.powerFailWarning) := by
  unfold State.powerFailWarning; try dsimp only
  repeat' first | with_reducible exact hk | with_reducible apply State.failActions_keeps | with_reducible apply State.failStandby_keeps | with_reducible apply State.updPower_keeps | with_reducible apply State.endResetHold_keeps | split
theorem State.powerGood_keeps {s x : State} (hk : Keeps s x) : Keeps s (x.powerGood) := by
  unfold State.powerGood; try dsimp only
  repeat' first | with_reducible exact hk | with_reducible apply State.updPower_keeps | with_reducible apply State.zeroExchange_keeps | with_reducible apply State.wakeStart_keeps | split
theorem State.mainsLost_keeps {s x : State} (hk : Keeps s x) : Keeps s x.mainsLost :=
  hk.trans ⟨rfl, rfl, fun _ => ⟨rfl, rfl, by simp [State.mainsLost, Port.zeroed], by simp [State.mainsLost, Port.zeroed], by simp [State.mainsLost, Port.zeroed]⟩⟩
theorem State.resetHoldEnd_keeps {s x : State} (hk : Keeps s x) : Keeps s (x.resetHoldEnd) := by
  unfold State.resetHoldEnd; try dsimp only
  repeat' first | with_reducible exact hk | with_reducible apply State.zeroExchange_keeps | with_reducible apply State.updPower_keeps | with_reducible apply State.wakeStart_keeps | split

/-! ## Machine/PortEvents.lean -/

theorem State.onPort_keeps {s x : State} (hk : Keeps s x) (act : State → State) (ha : ∀ y, Keeps y (act y)) :
    Keeps s (x.onPort act) := by
  unfold State.onPort; split
  · exact hk.trans (ha x)
  · exact hk
theorem State.ignorePost_keeps {s x : State} (hk : Keeps s x) (value : Nat) (why : IgnoreReason) : Keeps s (x.ignorePost value why) :=
  State.rewrite_keeps (State.attn_keeps (State.updPort_keeps hk _ rfl rfl) _) _
theorem State.post_keeps {s x : State} (hk : Keeps s x) (value : Word16) : Keeps s (x.post value) := by
  unfold State.post
  dsimp only
  split
  · exact State.ignorePost_keeps hk _ _
  · split
    · exact State.ignorePost_keeps hk _ _
    · split
      · exact State.ignorePost_keeps hk _ _
      · rename_i h1 _ h3
        refine hk.trans ⟨rfl, rfl, fun l => ⟨l.memory, l.numbers, l.width, ?_, ?_⟩⟩
        · intro n hn
          simp only [State.updPort_port, List.mem_append, List.mem_singleton] at hn
          rcases hn with hn | rfl
          · exact l.slots n hn
          · omega
        · simp only [State.updPort_port]
          refine List.nodup_append.2 ⟨l.once, by simp, ?_⟩
          intro a ha b hb
          simp only [List.mem_singleton] at hb
          subst hb
          intro e; subst e
          simp only [List.contains_iff_mem] at h3
          exact h3 ha
theorem State.setEnable_keeps {s x : State} (hk : Keeps s x) (mask : Word16) : Keeps s (x.setEnable mask) := State.updPort_keeps hk _ rfl rfl
theorem State.clearAttn_keeps {s x : State} (hk : Keeps s x) (mask : Word16) : Keeps s (x.clearAttn mask) := State.updPort_keeps hk _ rfl rfl
theorem State.writeReset_keeps {s x : State} (hk : Keeps s x) (value : Bool) : Keeps s (x.writeReset value) := by
  unfold State.writeReset; try dsimp only
  repeat' first | with_reducible exact hk | with_reducible apply State.deviceReset_keeps | split
theorem State.writeAwake_keeps {s x : State} (hk : Keeps s x) (value : Bool) : Keeps s (x.writeAwake value) := State.updPort_keeps hk _ rfl rfl
theorem State.writeRegister_keeps {s x : State} (hk : Keeps s x) (a : Nat) (v : Word16) : Keeps s (x.writeRegister a v) := by
  unfold State.writeRegister; try dsimp only
  repeat' first | with_reducible exact hk | with_reducible apply State.setEnable_keeps | with_reducible apply State.clearAttn_keeps | with_reducible apply State.post_keeps | with_reducible apply State.writeAwake_keeps | with_reducible apply State.writeReset_keeps | split
theorem State.hostByte_keeps {s x : State} (hk : Keeps s x) (a : Nat) (b : Byte) : Keeps s (x.hostByte a b) := by
  unfold State.hostByte
  repeat' first | with_reducible exact hk | with_reducible apply State.updReader_keeps | with_reducible exact State.setMem_keeps hk _ (fun w => Memory.write_wf w _ _) | split
theorem State.takeHead_keeps {s x : State} (hk : Keeps s x) (act : State → Nat → State) (ha : ∀ y n, Keeps y (act y n)) :
    Keeps s (x.takeHead act) := by
  unfold State.takeHead
  repeat' first | with_reducible exact hk | with_reducible exact hk.trans (ha x _) | split
theorem State.takeAndAnswer_keeps {s x : State} (hk : Keeps s x) (n : Nat) (code : ResultCode) (detail : Nat) :
    Keeps s (x.takeAndAnswer n code detail) := State.complete_keeps (State.takeSlot_keeps hk n) _ _ _
theorem State.hostBytes_keeps {s x : State} (hk : Keeps s x) (a : Nat) (bs : List Byte) : Keeps s (x.hostBytes a bs) := by
  induction bs generalizing x a with
  | nil => exact hk
  | cons b rest ih => exact ih (State.hostByte_keeps hk a b) (a + 1)
theorem State.hostRegisters_keeps {s x : State} (hk : Keeps s x) (a : Nat) (bs : List Byte) : Keeps s (x.hostRegisters a bs) := by
  fun_induction State.hostRegisters x a bs with
  | case1 x a h l rest ih => exact ih (State.writeRegister_keeps hk _ _)
  | case2 => exact hk

/-! ## The close of an event -/

@[simp] theorem publish_pending (s t : State) : (publish s t).pending = t.pending := rfl
@[simp] theorem publish_readBack (s t : State) : (publish s t).readBack = t.readBack := rfl
@[simp] theorem publish_free (s t : State) : (publish s t).free = t.free := rfl
@[simp] theorem publish_pw (s t : State) : (publish s t).pw = t.pw := rfl
@[simp] theorem publish_rtc (s t : State) : (publish s t).rtc = t.rtc := rfl
@[simp] theorem publish_ret (s t : State) : (publish s t).ret = t.ret := rfl
@[simp] theorem publish_port (s t : State) : (publish s t).port = t.port := rfl
@[simp] theorem publish_mem (s t : State) : (publish s t).mem = t.mem := rfl
@[simp] theorem publish_fp (s t : State) : (publish s t).fp = t.fp := rfl
@[simp] theorem publish_met (s t : State) : (publish s t).met = t.met := rfl
@[simp] theorem publish_vlv (s t : State) : (publish s t).vlv = t.vlv := rfl
@[simp] theorem publish_mot (s t : State) : (publish s t).mot = t.mot := rfl
@[simp] theorem publish_price (s t : State) : (publish s t).price = t.price := rfl
@[simp] theorem publish_disp (s t : State) : (publish s t).disp = t.disp := rfl
@[simp] theorem publish_rdr (s t : State) : (publish s t).rdr = t.rdr := rfl
@[simp] theorem publish_halt (s t : State) : (publish s t).halt = t.halt := rfl
@[simp] theorem publish_store (s t : State) : (publish s t).store = t.store := rfl
@[simp] theorem publish_rev (s t : State) : (publish s t).rev = nextRevisions s t := rfl

theorem publish_keeps {s x : State} (hk : Keeps s x) (b : State) : Keeps s (publish b x) := hk.same rfl rfl rfl rfl rfl

theorem commit_keeps {s x : State} (hk : Keeps s x) (b : State) : Keeps s (commit b x) := by
  unfold commit
  split
  · exact publish_keeps hk b
  · exact (State.reportHalt_keeps hk _).same rfl rfl rfl rfl rfl

/-- An event that writes no retention memory, or whose writes read back good, ends with the revision words (R170, R185). -/
theorem commit_eq {s t : State} (h : t.rev.wrote.all s.readsGood = true) : commit s t = publish s t := if_pos h

theorem event_eq {s : State} {f : State → State} (hm : s.pw.mains = true) (h : (f s).rev.wrote.all s.readsGood = true) :
    event s f = .next (publish s (f s)) := by
  simp [event, hm, commit_eq h]

/-- The close of an event where a write to retention memory fails its read-back (R86, R170): it differs from the close without the
failure by the report of RETENTION_FAULT and the values that stand as they were found. -/
theorem commit_failed {s t : State} (h : t.rev.wrote.all s.readsGood = false) :
    commit s t = publish s { t.reportHalt { code := .retentionFault, first := none, second := none, flow := 0 } with
      ret := s.readBackOf (t.reportHalt { code := .retentionFault, first := none, second := none, flow := 0 }).ret
        (t.reportHalt { code := .retentionFault, first := none, second := none, flow := 0 }).rev.wrote } :=
  if_neg (by simp [h])

/-- An event while mains is present and retention memory reads back good. -/
theorem event_steady {s : State} {f : State → State} (h : s.steady) : event s f = .next (publish s (f s)) :=
  event_eq h.1 (List.all_eq_true.mpr fun p _ => h.2 p)

/-- An event leaves the state alone while mains is absent (R152). -/
theorem event_off {s : State} {f : State → State} (h : s.pw.mains = false) : event s f = .next s := by simp [event, h]

end Sys2Proof.Machine
end

