-- ==== Sys2Proof/Laws/Orders.lean ====
section
/-! SUPPORT. What an owner is handed at a take: the order's body as the slot holds it, and a state that differs in the slot alone. -/

namespace Sys2Proof.Machine

/-- A take leaves the bytes of the body alone (R184). -/
theorem Memory.readAll_body (m : Memory) (n st code done detail : Nat) (take : Option Word32) (off len : Nat) :
    (m.writeHeader n st code done detail take).readAll (slotAddr n + 16 + off) len = m.readAll (slotAddr n + 16 + off) len :=
  Memory.readAll_congr (fun i _ => Memory.writeHeader_kept _ _ _ _ _ _ _ _ (by unfold keptBySlot; omega))

@[simp] theorem State.takeSlot_bodyBytes (s : State) (n off len : Nat) : (s.takeSlot n).1.bodyBytes n off len = s.bodyBytes n off len := by
  simp only [State.bodyBytes, State.takeSlot_mem, Memory.readAll_body]
@[simp] theorem State.takeSlot_bodyField (s : State) (n off len : Nat) : (s.takeSlot n).1.bodyField n off len = s.bodyField n off len := by
  simp only [State.bodyField, Memory.field, State.takeSlot_mem, Memory.readAll_body]
@[simp] theorem State.takeSlot_authBody (s : State) (n : Nat) : (s.takeSlot n).1.authBody n = s.authBody n := by
  simp only [State.authBody, State.takeSlot_bodyField]; rfl
@[simp] theorem State.takeSlot_priceField (s : State) (n : Nat) : (s.takeSlot n).1.priceField n = s.priceField n := by
  simp only [State.priceField, State.bodyPrice, State.takeSlot_bodyField]; rfl
@[simp] theorem State.takeSlot_bodySet (s : State) (n : Nat) : (s.takeSlot n).1.bodySet n = s.bodySet n := by
  simp only [State.bodySet, State.bodyPrice, State.takeSlot_bodyField]
@[simp] theorem State.takeSlot_calibrateField (s : State) (n : Nat) : (s.takeSlot n).1.calibrateField n = s.calibrateField n := by
  simp only [State.calibrateField, State.takeSlot_bodyField]
@[simp] theorem State.takeSlot_settingsField (s : State) (n : Nat) : (s.takeSlot n).1.settingsField n = s.settingsField n := by
  simp only [State.settingsField, State.takeSlot_bodyField]
@[simp] theorem State.takeSlot_totalsField (s : State) (n : Nat) : (s.takeSlot n).1.totalsField n = s.totalsField n := by
  simp only [State.totalsField, State.takeSlot_bodyField]

/-! ## A take changes the slot and the port alone: what is read elsewhere stands -/

@[simp] theorem State.takeSlot_fpState (s : State) (n : Nat) (d : Side) : (s.takeSlot n).1.fpState d = s.fpState d := rfl
@[simp] theorem State.takeSlot_inSale (s : State) (n : Nat) (d : Side) : (s.takeSlot n).1.inSale d = s.inSale d := rfl
@[simp] theorem State.takeSlot_sale (s : State) (n : Nat) (d : Side) : (s.takeSlot n).1.sale d = s.sale d := rfl
@[simp] theorem State.takeSlot_meter (s : State) (n : Nat) (m : Meter) : (s.takeSlot n).1.meter m = s.meter m := rfl
@[simp] theorem State.takeSlot_motor (s : State) (n : Nat) (m : Product) : (s.takeSlot n).1.motor m = s.motor m := rfl
@[simp] theorem State.takeSlot_head (s : State) (n : Nat) (r : Role) : (s.takeSlot n).1.head r = s.head r := rfl
@[simp] theorem State.takeSlot_meets (s : State) (n : Nat) (d : Side) (p : Prereq) : (s.takeSlot n).1.meets d p = s.meets d p := by
  cases p <;> rfl
@[simp] theorem State.takeSlot_fuelable (s : State) (n : Nat) (d : Side) : (s.takeSlot n).1.fuelable d = s.fuelable d := rfl
@[simp] theorem State.takeSlot_liveMask (s : State) (n : Nat) (d : Side) (m : Five Bool) :
    (s.takeSlot n).1.liveMask d m = s.liveMask d m := rfl
@[simp] theorem State.takeSlot_supplyOn (s : State) (n : Nat) (d : Side) : (s.takeSlot n).1.supplyOn d = s.supplyOn d := rfl

/-! ## The event of an order that stands at the head of the queue -/

theorem State.Offers.sideEvent {s : State} {k : OrderKind} {n : Nat} {d : Side} (h : s.Offers k n (sideCode d))
    (owner : State → Order → Side → State) :
    event s (fun s => s.withSideOrder k owner) = .next (publish s (owner (s.takeSlot n).1 (s.takeSlot n).2 d)) := by
  rw [event_steady h.steady, h.withSideOrder]

theorem State.Offers.plainEvent {s : State} {k : OrderKind} {n : Nat} (h : s.Offers k n 0)
    (owner : State → Order → State) :
    event s (fun s => s.withPlainOrder k owner) = .next (publish s (owner (s.takeSlot n).1 (s.takeSlot n).2)) := by
  rw [event_steady h.steady, h.withPlainOrder]

theorem State.Offers.orderEvent {s : State} {k : OrderKind} {n target : Nat} (h : s.Offers k n target)
    (owner : State → Order → State) :
    event s (fun s => s.withOrder k owner) = .next (publish s (owner (s.takeSlot n).1 (s.takeSlot n).2)) := by
  rw [event_steady h.steady, h.withOrder]

/-! ## The answer in the take event -/

@[simp] theorem flagsOf_nil : flagsOf [] = 0 := rfl
@[simp] theorem flagsOf_cons (f : Attn) (fs : List Attn) : flagsOf (f :: fs) = f.mask ||| flagsOf fs := rfl

/-- An order taken in this event and completed by its owner in the same event (R189, R190, R191). -/
theorem State.Offers.answeredNow {s u : State} {k : OrderKind} {n target : Nat} (h : s.Offers k n target) (b : State)
    (code : ResultCode) (detail : Nat) (fs : List Attn) (hm : u.mem = (s.takeSlot n).1.mem)
    (hp : u.port = { (s.takeSlot n).1.port with attn := s.port.attn ||| flagsOf fs }) :
    s.Answered (publish b (u.complete (s.takeSlot n).2.ref code detail)) n code detail fs := by
  have hn := h.slot_lt
  have ht : u.port.takes = (s.takeSlot n).1.port.takes := by rw [hp]
  obtain ⟨h1, h2⟩ := State.just_taken h.port hn hm ht
  have hc := State.complete_taken (u := u) (r := (s.takeSlot n).2.ref) h1 h2 code detail
  refine h.answered code detail fs hm (by rw [hp]) rfl (by simp) ?_ ?_
  · rw [publish_port, hc]; rfl
  · simp only [publish_port, hc, State.attn_port, State.setMem_port, hp, flagsOf_cons]
    rw [BitVec.or_assoc, BitVec.or_comm (flagsOf fs)]

/-- The registers of the port after an order taken in this event is answered: the attention flags alone differ from the take's. -/
theorem State.Offers.answered_port {s u : State} {k : OrderKind} {n target : Nat} (h : s.Offers k n target)
    (code : ResultCode) (detail : Nat) (hm : u.mem = (s.takeSlot n).1.mem) (ht : u.port.takes = (s.takeSlot n).1.port.takes) :
    u.complete (s.takeSlot n).2.ref code detail =
      (u.setMem (u.mem.writeHeader n 3 code.code (doneTime s.rtc u.rtc) detail none)).attn .order := by
  obtain ⟨h1, h2⟩ := State.just_taken h.port h.slot_lt hm ht
  exact State.complete_taken h1 h2 code detail

end Sys2Proof.Machine
end

