-- ==== Sys2Proof/Laws/Sales.lean ====
section
/-! SUPPORT. What the shared operations of fueling points, valves and motors do, one field at a time. -/

namespace Sys2Proof.Machine

/-! ## Attribution (R36) and the change of a fueling point's state (R2) -/

theorem Channel.attribute_unassigned {c : Channel} (h : c.attr = .unassigned) : c.attribute .unassigned = c := by
  simp [Channel.attribute, h]

@[simp] theorem State.reattribute_pending (s : State) (d : Side) : (s.reattribute d).pending = s.pending := rfl
@[simp] theorem State.reattribute_readBack (s : State) (d : Side) : (s.reattribute d).readBack = s.readBack := rfl
@[simp] theorem State.reattribute_free (s : State) (d : Side) : (s.reattribute d).free = s.free := rfl
@[simp] theorem State.reattribute_pw (s : State) (d : Side) : (s.reattribute d).pw = s.pw := rfl
@[simp] theorem State.reattribute_rtc (s : State) (d : Side) : (s.reattribute d).rtc = s.rtc := rfl
@[simp] theorem State.reattribute_ret (s : State) (d : Side) : (s.reattribute d).ret = s.ret := rfl
@[simp] theorem State.reattribute_port (s : State) (d : Side) : (s.reattribute d).port = s.port := rfl
@[simp] theorem State.reattribute_mem (s : State) (d : Side) : (s.reattribute d).mem = s.mem := rfl
@[simp] theorem State.reattribute_rev (s : State) (d : Side) : (s.reattribute d).rev = s.rev := rfl
@[simp] theorem State.reattribute_fp (s : State) (d : Side) : (s.reattribute d).fp = s.fp := rfl
@[simp] theorem State.reattribute_vlv (s : State) (d : Side) : (s.reattribute d).vlv = s.vlv := rfl
@[simp] theorem State.reattribute_mot (s : State) (d : Side) : (s.reattribute d).mot = s.mot := rfl
@[simp] theorem State.reattribute_price (s : State) (d : Side) : (s.reattribute d).price = s.price := rfl
@[simp] theorem State.reattribute_disp (s : State) (d : Side) : (s.reattribute d).disp = s.disp := rfl
@[simp] theorem State.reattribute_rdr (s : State) (d : Side) : (s.reattribute d).rdr = s.rdr := rfl
@[simp] theorem State.reattribute_halt (s : State) (d : Side) : (s.reattribute d).halt = s.halt := rfl
@[simp] theorem State.reattribute_store (s : State) (d : Side) : (s.reattribute d).store = s.store := rfl
/-- A side's three meters take the attribution R36 gives; the other side's meters stand. -/
theorem State.reattribute_meter (s : State) (d : Side) (m : Meter) : (s.reattribute d).meter m =
    if m.side = d then (s.meter m).attribute (attributed (s.fpState d) (s.sale d) m.product) else s.meter m := by
  obtain ⟨e, p⟩ := m
  cases d <;> cases e <;> cases p <;> rfl
@[simp] theorem State.reattribute_met_other (s : State) (d : Side) : (s.reattribute d).met.get d.other = s.met.get d.other := by
  cases d <;> rfl

@[simp] theorem State.setFpState_pending (s : State) (d : Side) (st : FpState) : (s.setFpState d st).pending = s.pending := by
  unfold State.setFpState; split <;> simp
@[simp] theorem State.setFpState_readBack (s : State) (d : Side) (st : FpState) : (s.setFpState d st).readBack = s.readBack := by
  unfold State.setFpState; split <;> simp
@[simp] theorem State.setFpState_free (s : State) (d : Side) (st : FpState) : (s.setFpState d st).free = s.free := by
  unfold State.setFpState; split <;> simp
@[simp] theorem State.setFpState_pw (s : State) (d : Side) (st : FpState) : (s.setFpState d st).pw = s.pw := by
  unfold State.setFpState; split <;> simp
@[simp] theorem State.setFpState_rtc (s : State) (d : Side) (st : FpState) : (s.setFpState d st).rtc = s.rtc := by
  unfold State.setFpState; split <;> simp
@[simp] theorem State.setFpState_ret (s : State) (d : Side) (st : FpState) : (s.setFpState d st).ret = s.ret := by
  unfold State.setFpState; split <;> simp
@[simp] theorem State.setFpState_mem (s : State) (d : Side) (st : FpState) : (s.setFpState d st).mem = s.mem := by
  unfold State.setFpState; split <;> simp
@[simp] theorem State.setFpState_rev (s : State) (d : Side) (st : FpState) : (s.setFpState d st).rev = s.rev := by
  unfold State.setFpState; split <;> simp
@[simp] theorem State.setFpState_vlv (s : State) (d : Side) (st : FpState) : (s.setFpState d st).vlv = s.vlv := by
  unfold State.setFpState; split <;> simp
@[simp] theorem State.setFpState_mot (s : State) (d : Side) (st : FpState) : (s.setFpState d st).mot = s.mot := by
  unfold State.setFpState; split <;> simp
@[simp] theorem State.setFpState_price (s : State) (d : Side) (st : FpState) : (s.setFpState d st).price = s.price := by
  unfold State.setFpState; split <;> simp
@[simp] theorem State.setFpState_disp (s : State) (d : Side) (st : FpState) : (s.setFpState d st).disp = s.disp := by
  unfold State.setFpState; split <;> simp
@[simp] theorem State.setFpState_rdr (s : State) (d : Side) (st : FpState) : (s.setFpState d st).rdr = s.rdr := by
  unfold State.setFpState; split <;> simp
@[simp] theorem State.setFpState_halt (s : State) (d : Side) (st : FpState) : (s.setFpState d st).halt = s.halt := by
  unfold State.setFpState; split <;> simp
@[simp] theorem State.setFpState_store (s : State) (d : Side) (st : FpState) : (s.setFpState d st).store = s.store := by
  unfold State.setFpState; split <;> simp
@[simp] theorem State.setFpState_fp (s : State) (d : Side) (st : FpState) :
    (s.setFpState d st).fp = s.fp.set d { s.fp.get d with state := st } := by
  unfold State.setFpState
  split
  · rename_i h
    have : ({ s.fp.get d with state := st } : FuelPoint) = s.fp.get d := by rw [← h]; rfl
    rw [this, Sides.set_get]
  · simp
@[simp] theorem State.attnIf_port (s : State) (c : Bool) (f : Attn) :
    (s.attnIf c f).port = { s.port with attn := if c then s.port.attn ||| f.mask else s.port.attn } := by
  cases c <;> rfl
theorem State.setFpState_port (s : State) (d : Side) (st : FpState) :
    (s.setFpState d st).port = if s.fpState d = st then s.port else
      { s.port with attn := if st = .calling then (s.port.attn ||| (fpFlag d).mask) ||| Attn.call.mask
                            else s.port.attn ||| (fpFlag d).mask } := by
  unfold State.setFpState
  split
  · rfl
  · by_cases h : st = .calling <;> simp [h]
@[simp] theorem State.setFpState_port_takes (s : State) (d : Side) (st : FpState) :
    (s.setFpState d st).port.takes = s.port.takes := by rw [State.setFpState_port]; split <;> rfl
theorem State.setFpState_meter (s : State) (d : Side) (st : FpState) (m : Meter) (h : s.fpState d ≠ st) :
    (s.setFpState d st).meter m =
      if m.side = d then (s.meter m).attribute (attributed st (s.sale d) m.product) else s.meter m := by
  unfold State.setFpState
  rw [if_neg h, State.reattribute_meter]
  simp [State.fpState, State.meter, State.sale]
@[simp] theorem State.setFpState_met_other (s : State) (d : Side) (st : FpState) :
    (s.setFpState d st).met.get d.other = s.met.get d.other := by
  unfold State.setFpState
  split <;> simp
/-- A change to a state with no sale leaves an UNASSIGNED meter alone. -/
theorem State.setFpState_meter_kept (s : State) (d : Side) (st : FpState) (m : Meter)
    (hm : m.side ≠ d ∨ (s.meter m).attr = .unassigned)
    (ha : m.side = d → attributed st (s.sale d) m.product = .unassigned) : (s.setFpState d st).meter m = s.meter m := by
  by_cases h : s.fpState d = st
  · simp [State.setFpState, h]
  · rw [State.setFpState_meter _ _ _ _ h]
    split
    · rename_i hd
      rcases hm with hm | hm
      · exact absurd hd hm
      · rw [ha hd, Channel.attribute_unassigned hm]
    · rfl

/-! ## Motors (R67, R68, R69) -/

@[simp] theorem State.grant_pending (s : State) : (s.grant).pending = s.pending := by
  unfold State.grant; split <;> [split; skip] <;> rfl
@[simp] theorem State.grant_readBack (s : State) : (s.grant).readBack = s.readBack := by
  unfold State.grant; split <;> [split; skip] <;> rfl
@[simp] theorem State.grant_free (s : State) : (s.grant).free = s.free := by
  unfold State.grant; split <;> [split; skip] <;> rfl
@[simp] theorem State.grant_pw (s : State) : (s.grant).pw = s.pw := by
  unfold State.grant; split <;> [split; skip] <;> rfl
@[simp] theorem State.grant_rtc (s : State) : (s.grant).rtc = s.rtc := by
  unfold State.grant; split <;> [split; skip] <;> rfl
@[simp] theorem State.grant_ret (s : State) : (s.grant).ret = s.ret := by
  unfold State.grant; split <;> [split; skip] <;> rfl
@[simp] theorem State.grant_port (s : State) : (s.grant).port = s.port := by
  unfold State.grant; split <;> [split; skip] <;> rfl
@[simp] theorem State.grant_mem (s : State) : (s.grant).mem = s.mem := by
  unfold State.grant; split <;> [split; skip] <;> rfl
@[simp] theorem State.grant_rev (s : State) : (s.grant).rev = s.rev := by
  unfold State.grant; split <;> [split; skip] <;> rfl
@[simp] theorem State.grant_fp (s : State) : (s.grant).fp = s.fp := by
  unfold State.grant; split <;> [split; skip] <;> rfl
@[simp] theorem State.grant_met (s : State) : (s.grant).met = s.met := by
  unfold State.grant; split <;> [split; skip] <;> rfl
@[simp] theorem State.grant_vlv (s : State) : (s.grant).vlv = s.vlv := by
  unfold State.grant; split <;> [split; skip] <;> rfl
@[simp] theorem State.grant_price (s : State) : (s.grant).price = s.price := by
  unfold State.grant; split <;> [split; skip] <;> rfl
@[simp] theorem State.grant_disp (s : State) : (s.grant).disp = s.disp := by
  unfold State.grant; split <;> [split; skip] <;> rfl
@[simp] theorem State.grant_rdr (s : State) : (s.grant).rdr = s.rdr := by
  unfold State.grant; split <;> [split; skip] <;> rfl
@[simp] theorem State.grant_halt (s : State) : (s.grant).halt = s.halt := by
  unfold State.grant; split <;> [split; skip] <;> rfl
@[simp] theorem State.grant_store (s : State) : (s.grant).store = s.store := by
  unfold State.grant; split <;> [split; skip] <;> rfl
@[simp] theorem State.joinQueue_pending (s : State) (m : Product) : (s.joinQueue m).pending = s.pending := by simp [State.joinQueue]
@[simp] theorem State.joinQueue_readBack (s : State) (m : Product) : (s.joinQueue m).readBack = s.readBack := by simp [State.joinQueue]
@[simp] theorem State.joinQueue_free (s : State) (m : Product) : (s.joinQueue m).free = s.free := by simp [State.joinQueue]
@[simp] theorem State.joinQueue_pw (s : State) (m : Product) : (s.joinQueue m).pw = s.pw := by simp [State.joinQueue]
@[simp] theorem State.joinQueue_rtc (s : State) (m : Product) : (s.joinQueue m).rtc = s.rtc := by simp [State.joinQueue]
@[simp] theorem State.joinQueue_ret (s : State) (m : Product) : (s.joinQueue m).ret = s.ret := by simp [State.joinQueue]
@[simp] theorem State.joinQueue_port (s : State) (m : Product) : (s.joinQueue m).port = s.port := by simp [State.joinQueue]
@[simp] theorem State.joinQueue_mem (s : State) (m : Product) : (s.joinQueue m).mem = s.mem := by simp [State.joinQueue]
@[simp] theorem State.joinQueue_rev (s : State) (m : Product) : (s.joinQueue m).rev = s.rev := by simp [State.joinQueue]
@[simp] theorem State.joinQueue_fp (s : State) (m : Product) : (s.joinQueue m).fp = s.fp := by simp [State.joinQueue]
@[simp] theorem State.joinQueue_met (s : State) (m : Product) : (s.joinQueue m).met = s.met := by simp [State.joinQueue]
@[simp] theorem State.joinQueue_vlv (s : State) (m : Product) : (s.joinQueue m).vlv = s.vlv := by simp [State.joinQueue]
@[simp] theorem State.joinQueue_price (s : State) (m : Product) : (s.joinQueue m).price = s.price := by simp [State.joinQueue]
@[simp] theorem State.joinQueue_disp (s : State) (m : Product) : (s.joinQueue m).disp = s.disp := by simp [State.joinQueue]
@[simp] theorem State.joinQueue_rdr (s : State) (m : Product) : (s.joinQueue m).rdr = s.rdr := by simp [State.joinQueue]
@[simp] theorem State.joinQueue_halt (s : State) (m : Product) : (s.joinQueue m).halt = s.halt := by simp [State.joinQueue]
@[simp] theorem State.joinQueue_store (s : State) (m : Product) : (s.joinQueue m).store = s.store := by simp [State.joinQueue]
@[simp] theorem State.raiseDemand_pending (s : State) (d : Side) (m : Product) : (s.raiseDemand d m).pending = s.pending := by
  unfold State.raiseDemand; dsimp only; repeat' first | rfl | exact (State.joinQueue_pending _ _).trans rfl | split
@[simp] theorem State.raiseDemand_readBack (s : State) (d : Side) (m : Product) : (s.raiseDemand d m).readBack = s.readBack := by
  unfold State.raiseDemand; dsimp only; repeat' first | rfl | exact (State.joinQueue_readBack _ _).trans rfl | split
@[simp] theorem State.raiseDemand_free (s : State) (d : Side) (m : Product) : (s.raiseDemand d m).free = s.free := by
  unfold State.raiseDemand; dsimp only; repeat' first | rfl | exact (State.joinQueue_free _ _).trans rfl | split
@[simp] theorem State.raiseDemand_pw (s : State) (d : Side) (m : Product) : (s.raiseDemand d m).pw = s.pw := by
  unfold State.raiseDemand; dsimp only; repeat' first | rfl | exact (State.joinQueue_pw _ _).trans rfl | split
@[simp] theorem State.raiseDemand_rtc (s : State) (d : Side) (m : Product) : (s.raiseDemand d m).rtc = s.rtc := by
  unfold State.raiseDemand; dsimp only; repeat' first | rfl | exact (State.joinQueue_rtc _ _).trans rfl | split
@[simp] theorem State.raiseDemand_ret (s : State) (d : Side) (m : Product) : (s.raiseDemand d m).ret = s.ret := by
  unfold State.raiseDemand; dsimp only; repeat' first | rfl | exact (State.joinQueue_ret _ _).trans rfl | split
@[simp] theorem State.raiseDemand_port (s : State) (d : Side) (m : Product) : (s.raiseDemand d m).port = s.port := by
  unfold State.raiseDemand; dsimp only; repeat' first | rfl | exact (State.joinQueue_port _ _).trans rfl | split
@[simp] theorem State.raiseDemand_mem (s : State) (d : Side) (m : Product) : (s.raiseDemand d m).mem = s.mem := by
  unfold State.raiseDemand; dsimp only; repeat' first | rfl | exact (State.joinQueue_mem _ _).trans rfl | split
@[simp] theorem State.raiseDemand_rev (s : State) (d : Side) (m : Product) : (s.raiseDemand d m).rev = s.rev := by
  unfold State.raiseDemand; dsimp only; repeat' first | rfl | exact (State.joinQueue_rev _ _).trans rfl | split
@[simp] theorem State.raiseDemand_fp (s : State) (d : Side) (m : Product) : (s.raiseDemand d m).fp = s.fp := by
  unfold State.raiseDemand; dsimp only; repeat' first | rfl | exact (State.joinQueue_fp _ _).trans rfl | split
@[simp] theorem State.raiseDemand_met (s : State) (d : Side) (m : Product) : (s.raiseDemand d m).met = s.met := by
  unfold State.raiseDemand; dsimp only; repeat' first | rfl | exact (State.joinQueue_met _ _).trans rfl | split
@[simp] theorem State.raiseDemand_vlv (s : State) (d : Side) (m : Product) : (s.raiseDemand d m).vlv = s.vlv := by
  unfold State.raiseDemand; dsimp only; repeat' first | rfl | exact (State.joinQueue_vlv _ _).trans rfl | split
@[simp] theorem State.raiseDemand_price (s : State) (d : Side) (m : Product) : (s.raiseDemand d m).price = s.price := by
  unfold State.raiseDemand; dsimp only; repeat' first | rfl | exact (State.joinQueue_price _ _).trans rfl | split
@[simp] theorem State.raiseDemand_disp (s : State) (d : Side) (m : Product) : (s.raiseDemand d m).disp = s.disp := by
  unfold State.raiseDemand; dsimp only; repeat' first | rfl | exact (State.joinQueue_disp _ _).trans rfl | split
@[simp] theorem State.raiseDemand_rdr (s : State) (d : Side) (m : Product) : (s.raiseDemand d m).rdr = s.rdr := by
  unfold State.raiseDemand; dsimp only; repeat' first | rfl | exact (State.joinQueue_rdr _ _).trans rfl | split
@[simp] theorem State.raiseDemand_halt (s : State) (d : Side) (m : Product) : (s.raiseDemand d m).halt = s.halt := by
  unfold State.raiseDemand; dsimp only; repeat' first | rfl | exact (State.joinQueue_halt _ _).trans rfl | split
@[simp] theorem State.raiseDemand_store (s : State) (d : Side) (m : Product) : (s.raiseDemand d m).store = s.store := by
  unfold State.raiseDemand; dsimp only; repeat' first | rfl | exact (State.joinQueue_store _ _).trans rfl | split
@[simp] theorem State.dropDemand_pending (s : State) (d : Side) (m : Product) : (s.dropDemand d m).pending = s.pending := by
  unfold State.dropDemand; dsimp only; repeat' first | rfl | exact (State.grant_pending _).trans rfl | split
@[simp] theorem State.dropDemand_readBack (s : State) (d : Side) (m : Product) : (s.dropDemand d m).readBack = s.readBack := by
  unfold State.dropDemand; dsimp only; repeat' first | rfl | exact (State.grant_readBack _).trans rfl | split
@[simp] theorem State.dropDemand_free (s : State) (d : Side) (m : Product) : (s.dropDemand d m).free = s.free := by
  unfold State.dropDemand; dsimp only; repeat' first | rfl | exact (State.grant_free _).trans rfl | split
@[simp] theorem State.dropDemand_pw (s : State) (d : Side) (m : Product) : (s.dropDemand d m).pw = s.pw := by
  unfold State.dropDemand; dsimp only; repeat' first | rfl | exact (State.grant_pw _).trans rfl | split
@[simp] theorem State.dropDemand_rtc (s : State) (d : Side) (m : Product) : (s.dropDemand d m).rtc = s.rtc := by
  unfold State.dropDemand; dsimp only; repeat' first | rfl | exact (State.grant_rtc _).trans rfl | split
@[simp] theorem State.dropDemand_ret (s : State) (d : Side) (m : Product) : (s.dropDemand d m).ret = s.ret := by
  unfold State.dropDemand; dsimp only; repeat' first | rfl | exact (State.grant_ret _).trans rfl | split
@[simp] theorem State.dropDemand_port (s : State) (d : Side) (m : Product) : (s.dropDemand d m).port = s.port := by
  unfold State.dropDemand; dsimp only; repeat' first | rfl | exact (State.grant_port _).trans rfl | split
@[simp] theorem State.dropDemand_mem (s : State) (d : Side) (m : Product) : (s.dropDemand d m).mem = s.mem := by
  unfold State.dropDemand; dsimp only; repeat' first | rfl | exact (State.grant_mem _).trans rfl | split
@[simp] theorem State.dropDemand_rev (s : State) (d : Side) (m : Product) : (s.dropDemand d m).rev = s.rev := by
  unfold State.dropDemand; dsimp only; repeat' first | rfl | exact (State.grant_rev _).trans rfl | split
@[simp] theorem State.dropDemand_fp (s : State) (d : Side) (m : Product) : (s.dropDemand d m).fp = s.fp := by
  unfold State.dropDemand; dsimp only; repeat' first | rfl | exact (State.grant_fp _).trans rfl | split
@[simp] theorem State.dropDemand_met (s : State) (d : Side) (m : Product) : (s.dropDemand d m).met = s.met := by
  unfold State.dropDemand; dsimp only; repeat' first | rfl | exact (State.grant_met _).trans rfl | split
@[simp] theorem State.dropDemand_vlv (s : State) (d : Side) (m : Product) : (s.dropDemand d m).vlv = s.vlv := by
  unfold State.dropDemand; dsimp only; repeat' first | rfl | exact (State.grant_vlv _).trans rfl | split
@[simp] theorem State.dropDemand_price (s : State) (d : Side) (m : Product) : (s.dropDemand d m).price = s.price := by
  unfold State.dropDemand; dsimp only; repeat' first | rfl | exact (State.grant_price _).trans rfl | split
@[simp] theorem State.dropDemand_disp (s : State) (d : Side) (m : Product) : (s.dropDemand d m).disp = s.disp := by
  unfold State.dropDemand; dsimp only; repeat' first | rfl | exact (State.grant_disp _).trans rfl | split
@[simp] theorem State.dropDemand_rdr (s : State) (d : Side) (m : Product) : (s.dropDemand d m).rdr = s.rdr := by
  unfold State.dropDemand; dsimp only; repeat' first | rfl | exact (State.grant_rdr _).trans rfl | split
@[simp] theorem State.dropDemand_halt (s : State) (d : Side) (m : Product) : (s.dropDemand d m).halt = s.halt := by
  unfold State.dropDemand; dsimp only; repeat' first | rfl | exact (State.grant_halt _).trans rfl | split
@[simp] theorem State.dropDemand_store (s : State) (d : Side) (m : Product) : (s.dropDemand d m).store = s.store := by
  unfold State.dropDemand; dsimp only; repeat' first | rfl | exact (State.grant_store _).trans rfl | split
@[simp] theorem State.dropAll_pending (s : State) (d : Side) : (s.dropAll d).pending = s.pending := by simp [State.dropAll]
@[simp] theorem State.dropAll_readBack (s : State) (d : Side) : (s.dropAll d).readBack = s.readBack := by simp [State.dropAll]
@[simp] theorem State.dropAll_free (s : State) (d : Side) : (s.dropAll d).free = s.free := by simp [State.dropAll]
@[simp] theorem State.dropAll_pw (s : State) (d : Side) : (s.dropAll d).pw = s.pw := by simp [State.dropAll]
@[simp] theorem State.dropAll_rtc (s : State) (d : Side) : (s.dropAll d).rtc = s.rtc := by simp [State.dropAll]
@[simp] theorem State.dropAll_ret (s : State) (d : Side) : (s.dropAll d).ret = s.ret := by simp [State.dropAll]
@[simp] theorem State.dropAll_port (s : State) (d : Side) : (s.dropAll d).port = s.port := by simp [State.dropAll]
@[simp] theorem State.dropAll_mem (s : State) (d : Side) : (s.dropAll d).mem = s.mem := by simp [State.dropAll]
@[simp] theorem State.dropAll_rev (s : State) (d : Side) : (s.dropAll d).rev = s.rev := by simp [State.dropAll]
@[simp] theorem State.dropAll_fp (s : State) (d : Side) : (s.dropAll d).fp = s.fp := by simp [State.dropAll]
@[simp] theorem State.dropAll_met (s : State) (d : Side) : (s.dropAll d).met = s.met := by simp [State.dropAll]
@[simp] theorem State.dropAll_vlv (s : State) (d : Side) : (s.dropAll d).vlv = s.vlv := by simp [State.dropAll]
@[simp] theorem State.dropAll_price (s : State) (d : Side) : (s.dropAll d).price = s.price := by simp [State.dropAll]
@[simp] theorem State.dropAll_disp (s : State) (d : Side) : (s.dropAll d).disp = s.disp := by simp [State.dropAll]
@[simp] theorem State.dropAll_rdr (s : State) (d : Side) : (s.dropAll d).rdr = s.rdr := by simp [State.dropAll]
@[simp] theorem State.dropAll_halt (s : State) (d : Side) : (s.dropAll d).halt = s.halt := by simp [State.dropAll]
@[simp] theorem State.dropAll_store (s : State) (d : Side) : (s.dropAll d).store = s.store := by simp [State.dropAll]

theorem State.grant_demand (s : State) (m : Product) : (s.grant.motor m).demand = (s.motor m).demand := by
  unfold State.grant
  split
  · split
    · rfl
    · rename_i q _ _
      by_cases h : m = q
      · subst h; simp [State.motor]
      · simp [State.motor, Three.get_set_ne _ _ h]
  · rfl
theorem State.joinQueue_demand (s : State) (q m : Product) : ((s.joinQueue q).motor m).demand = (s.motor m).demand := by
  unfold State.joinQueue
  rw [State.grant_demand]
  by_cases h : m = q
  · subst h; simp [State.motor]
  · simp [State.motor, Three.get_set_ne _ _ h]
theorem State.updMotor_demand (s : State) (q m : Product) (f : MotorRec → MotorRec) (h : ∀ r, (f r).demand = r.demand) :
    ((s.updMotor q f).motor m).demand = (s.motor m).demand := by
  by_cases e : m = q
  · subst e; simp [State.motor, h]
  · simp [State.motor, Three.get_set_ne _ _ e]
theorem State.setStartQueue_demand (s : State) (q : List Product) (m : Product) :
    ((s.setStartQueue q).motor m).demand = (s.motor m).demand := rfl
theorem State.updMotor_setDemand (s : State) (d : Side) (q m : Product) (b : Bool) :
    ((s.updMotor q (fun r => { r with demand := r.demand.set d b })).motor m).demand =
      if m = q then (s.motor m).demand.set d b else (s.motor m).demand := by
  by_cases h : m = q
  · subst h; simp [State.motor]
  · simp [State.motor, Three.get_set_ne _ _ h, h]

/-- A withdrawal takes the side out of the motor's demand set, and touches no other demand (R67). -/
theorem State.dropDemand_demand (s : State) (d : Side) (q m : Product) :
    ((s.dropDemand d q).motor m).demand = if m = q then (s.motor m).demand.set d false else (s.motor m).demand := by
  rw [← State.updMotor_setDemand]
  unfold State.dropDemand
  dsimp only
  split
  · split
    · exact (State.setStartQueue_demand _ _ _).trans (State.updMotor_demand _ _ _ _ (fun _ => rfl))
    · exact (State.grant_demand _ _).trans (State.updMotor_demand _ _ _ _ (fun _ => rfl))
    · split <;> exact State.updMotor_demand _ _ _ _ (fun _ => rfl)
    · rfl
  · rfl
/-- A raise puts the side into the motor's demand set, and touches no other demand (R67). -/
theorem State.raiseDemand_demand (s : State) (d : Side) (q m : Product) :
    ((s.raiseDemand d q).motor m).demand = if m = q then (s.motor m).demand.set d true else (s.motor m).demand := by
  rw [← State.updMotor_setDemand]
  unfold State.raiseDemand
  dsimp only
  split
  · split
    · split
      · rw [State.joinQueue_demand]
      · rfl
    · exact State.updMotor_demand _ _ _ _ (fun _ => rfl)
    · rfl
  · rfl
/-- A fueling point that withdraws its demand demands no motor; the other side's demand stands (R67). -/
theorem State.dropAll_demand (s : State) (d : Side) (m : Product) : ((s.dropAll d).motor m).demand = (s.motor m).demand.set d false := by
  unfold State.dropAll
  rw [State.dropDemand_demand, State.dropDemand_demand, State.dropDemand_demand]
  cases m <;> simp

/-! ## The end of a sale (R21) -/

@[simp] theorem State.endSale_pending (s : State) (d : Side) (c : Cause) : (s.endSale d c).pending = s.pending := by
  unfold State.endSale; dsimp only; split <;> simp [State.closeSide, State.stopBlend]
@[simp] theorem State.endSale_readBack (s : State) (d : Side) (c : Cause) : (s.endSale d c).readBack = s.readBack := by
  unfold State.endSale; dsimp only; split <;> simp [State.closeSide, State.stopBlend]
@[simp] theorem State.endSale_free (s : State) (d : Side) (c : Cause) : (s.endSale d c).free = s.free := by
  unfold State.endSale; dsimp only; split <;> simp [State.closeSide, State.stopBlend]
@[simp] theorem State.endSale_pw (s : State) (d : Side) (c : Cause) : (s.endSale d c).pw = s.pw := by
  unfold State.endSale; dsimp only; split <;> simp [State.closeSide, State.stopBlend]
@[simp] theorem State.endSale_rtc (s : State) (d : Side) (c : Cause) : (s.endSale d c).rtc = s.rtc := by
  unfold State.endSale; dsimp only; split <;> simp [State.closeSide, State.stopBlend]
@[simp] theorem State.endSale_mem (s : State) (d : Side) (c : Cause) : (s.endSale d c).mem = s.mem := by
  unfold State.endSale; dsimp only; split <;> simp [State.closeSide, State.stopBlend]
@[simp] theorem State.endSale_rev (s : State) (d : Side) (c : Cause) : (s.endSale d c).rev = s.rev.wroteTo [.side d (.sale .endCause)] := by
  unfold State.endSale; dsimp only; split <;> simp [State.closeSide, State.stopBlend]
@[simp] theorem State.endSale_price (s : State) (d : Side) (c : Cause) : (s.endSale d c).price = s.price := by
  unfold State.endSale; dsimp only; split <;> simp [State.closeSide, State.stopBlend]
@[simp] theorem State.endSale_disp (s : State) (d : Side) (c : Cause) : (s.endSale d c).disp = s.disp := by
  unfold State.endSale; dsimp only; split <;> simp [State.closeSide, State.stopBlend]
@[simp] theorem State.endSale_rdr (s : State) (d : Side) (c : Cause) : (s.endSale d c).rdr = s.rdr := by
  unfold State.endSale; dsimp only; split <;> simp [State.closeSide, State.stopBlend]
@[simp] theorem State.endSale_halt (s : State) (d : Side) (c : Cause) : (s.endSale d c).halt = s.halt := by
  unfold State.endSale; dsimp only; split <;> simp [State.closeSide, State.stopBlend]
@[simp] theorem State.endSale_store (s : State) (d : Side) (c : Cause) : (s.endSale d c).store = s.store := by
  unfold State.endSale; dsimp only; split <;> simp [State.closeSide, State.stopBlend]
theorem State.endSale_port (s : State) (d : Side) (c : Cause) (h : s.fpState d ≠ .settling) :
    (s.endSale d c).port = { s.port with attn := s.port.attn ||| (fpFlag d).mask } := by
  unfold State.endSale
  dsimp only
  rw [State.setFpState_port]
  have h' : (s.fp.get d).state ≠ .settling := h
  split <;> (split <;> simp_all [State.closeSide, State.stopBlend, State.fpState])

/-- A cause that is not of class LOCK ends a sale that can still be ended (R21). -/
theorem State.takeCause_ends {s : State} {d : Side} {c : Cause} (h : (s.fpState d).endable = true) (hc : c.isLock = false) :
    s.takeCause d c = s.endSale d c := by
  unfold State.takeCause
  revert h
  cases s.fpState d <;> simp [FpState.endable, hc]
/-- A cause that is not of class LOCK has no effect on any other state (R21, R23). -/
theorem State.takeCause_passes {s : State} {d : Side} {c : Cause} (h : (s.fpState d).endable = false) (hc : c.isLock = false) :
    s.takeCause d c = s := by
  unfold State.takeCause
  revert h
  cases s.fpState d <;> simp [FpState.endable, hc]

/-! ## Finalization (R44, R45, R84, R157) and the messages at standby entry (R111) -/

theorem Sale.recompute_eq_reckoned (x : Sale) : x.recompute = x.reckoned := rfl
theorem Sale.cutOff_eq_reckoned (x : Sale) : x.cutOff = { x.reckoned with endCause := some (x.endCause.getD .powerLoss) } := rfl

/-- A sale whose figures already follow from its product volumes, as R45 has it of every sale in progress, keeps them at its finalization, and
no figure is written. -/
theorem Sale.cutOff_of_consistent {x : Sale} (h : x.reckoned = x) :
    x.cutOff = { x with endCause := some (x.endCause.getD .powerLoss) } ∧ x.cutParts = if x.endCause.isSome then [] else [.endCause] := by
  refine ⟨by rw [Sale.cutOff_eq_reckoned, h], ?_⟩
  simp [Sale.cutParts, Sale.recompute_eq_reckoned, h]

/-- A completion reads nothing of the display bus controller and leaves it as it was. -/
theorem State.completeOpt_withDisp (s : State) (x : Display) (r : Option OrderRef) (c : ResultCode) (n : Nat) :
    ({ s with disp := x } : State).completeOpt r c n = { s.completeOpt r c n with disp := x } := by
  cases r with
  | none => rfl
  | some r => 
    have taken : ({ s with disp := x } : State).slotTaken r.slot = s.slotTaken r.slot := rfl
    have number : ({ s with disp := x } : State).takeNumber r.slot = s.takeNumber r.slot := rfl
    simp only [State.completeOpt, State.complete, taken, number]
    split <;> rfl

/-- All that dropping the messages does: the orders in flight complete, and both lines are cleared. -/
theorem State.dropMessages_eq (s : State) :
    s.dropMessages = { s.messagesDropped with disp := { s.disp with lines := ⟨.cleared, .cleared⟩ } } := by
  have h (u : State) (d : Side) (f : MessageLine → MessageLine) :
      u.updLine d f = { u with disp := { u.disp with lines := u.disp.lines.set d (f (u.disp.lines.get d)) } } := rfl
  simp only [State.dropMessages, State.messagesDropped, h, State.completeOpt_withDisp, State.completeOpt_disp]
  rfl

end Sys2Proof.Machine
end

