-- ==== Sys2Proof/Laws/Reads.lean ====
section
/-! SUPPORT. Reads of one part (a meter, a valve, a motor, a head, a sale) after an update of that part or of another, and what a sale entry shows of absent fields. -/

namespace Sys2Proof.Machine

/-! ## The close of an event writes the revision words alone -/

@[simp] theorem publish_meter (s t : State) (m : Meter) : (publish s t).meter m = t.meter m := rfl
@[simp] theorem publish_valve (s t : State) (v : Meter) : (publish s t).valve v = t.valve v := rfl
@[simp] theorem publish_motor (s t : State) (m : Product) : (publish s t).motor m = t.motor m := rfl
@[simp] theorem publish_head (s t : State) (r : Role) : (publish s t).head r = t.head r := rfl
@[simp] theorem publish_sale (s t : State) (d : Side) : (publish s t).sale d = t.sale d := rfl
@[simp] theorem publish_fpState (s t : State) (d : Side) : (publish s t).fpState d = t.fpState d := rfl

/-! ## Containers -/

@[simp] theorem Three.get_map {α β : Type} (x : Three α) (f : α → β) (p : Product) : (x.map f).get p = f (x.get p) := by cases p <;> rfl
@[simp] theorem Eight.get_ofFun {α : Type} (f : Role → α) (r : Role) : (Eight.ofFun f).get r = f r := by cases r <;> rfl

/-! ## Meters, valves, motors, heads -/

@[simp] theorem State.updMeter_meter (s : State) (m : Meter) (f : Channel → Channel) : (s.updMeter m f).meter m = f (s.meter m) := by
  obtain ⟨d, p⟩ := m; cases d <;> cases p <;> rfl
theorem State.updMeter_meter_ne (s : State) {m x : Meter} (f : Channel → Channel) (h : x ≠ m) :
    (s.updMeter m f).meter x = s.meter x := by
  obtain ⟨d, p⟩ := m; obtain ⟨e, q⟩ := x
  cases d <;> cases e <;> cases p <;> cases q <;> first | rfl | exact absurd rfl h
@[simp] theorem State.updMeter_met_other (s : State) (m : Meter) (f : Channel → Channel) :
    (s.updMeter m f).met.get m.side.other = s.met.get m.side.other := by
  obtain ⟨d, p⟩ := m; cases d <;> rfl
@[simp] theorem State.updMotor_motor (s : State) (m : Product) (f : MotorRec → MotorRec) : (s.updMotor m f).motor m = f (s.motor m) := by
  cases m <;> rfl
theorem State.updMotor_motor_ne (s : State) {m x : Product} (f : MotorRec → MotorRec) (h : x ≠ m) :
    (s.updMotor m f).motor x = s.motor x := by
  cases m <;> cases x <;> first | rfl | exact absurd rfl h
@[simp] theorem State.updHead_head (s : State) (r : Role) (f : Head → Head) : (s.updHead r f).head r = f (s.head r) := by
  cases r <;> rfl
theorem State.updHead_head_ne (s : State) {r q : Role} (f : Head → Head) (h : q ≠ r) : (s.updHead r f).head q = s.head q := by
  cases r <;> cases q <;> first | rfl | exact absurd rfl h
@[simp] theorem State.updValve_valve (s : State) (v : Meter) (f : ValveDrive → ValveDrive) : (s.updValve v f).valve v = f (s.valve v) := by
  obtain ⟨d, p⟩ := v; cases d <;> cases p <;> rfl

/-! ## The entry of a sale (R196, file 11): a field whose presence bit is clear reads 0 -/

@[simp] theorem shownIf_true (v : Nat) : shownIf true v = v := rfl
@[simp] theorem shownIf_false (v : Nat) : shownIf false v = 0 := rfl

/-- Without the number bit, an entry does not show the number that retention memory holds. -/
theorem Sale.image_number (x : Sale) (n : Nat) (h : x.hasNumber = false) : { x with number := n }.image = x.image := by
  unfold Sale.image
  have h' : Sale.hasNumber { x with number := n } = false := h
  rw [h, h', shownIf_false, shownIf_false]
  rfl

/-- Without the bit of the grade fields, an entry shows none of what retention memory holds in their places. -/
theorem Sale.image_grade (x : Sale) (version price closeTarget : Nat) (products : Three Nat) (startTime : Word32) (h : x.hasGrade = false) :
    { x with version := version, price := price, closeTarget := closeTarget, products := products, startTime := startTime }.image
      = x.image := by
  have h' : Sale.hasGrade { x with version := version, price := price, closeTarget := closeTarget, products := products,
                                   startTime := startTime } = false := h
  unfold Sale.image Sale.presence Sale.hasSecond
  rw [h, h', Bool.false_and, Bool.false_and]
  rfl

/-! ## The commands of the metering unit -/

/-- A command of the metering unit while it decodes (R31). -/
theorem event_decoded {s : State} {f : State → State} (hs : s.steady) (hd : s.pw.decoding = true) :
    event s (fun s => s.decoded f) = .next (publish s (f s)) := by
  have : event s (fun s => s.decoded f) = event s f := by simp [event, State.decoded, hd]
  rw [this]; exact event_steady hs

end Sys2Proof.Machine
end

