-- ==== Sys2Proof/Laws/Motors.lean ====
section
/-! SUPPORT. The motors after a raise or a withdrawal of demand on all of them, and the end of a sale (R21, R67, R68, R69, R71). -/

namespace Sys2Proof.Machine

@[simp] theorem State.setStartQueue_motor (s : State) (q : List Product) (m : Product) : (s.setStartQueue q).motor m = s.motor m := rfl

theorem State.arbiterFree_iff (s : State) : s.arbiterFree = true ↔ ∀ m, (s.motor m).state ≠ .starting := by
  simp only [State.arbiterFree, Bool.and_eq_true, decide_eq_true_eq, and_assoc]
  exact ⟨fun ⟨a, b, c⟩ m => by cases m; exacts [a, b, c], fun h => ⟨h .p1, h .p2, h .p3⟩⟩

/-- A grant with the arbiter free: the head of the queue starts. -/
theorem State.grant_free_eq (s : State) (h : ∀ m, (s.motor m).state ≠ .starting) :
    s.grant.mot.queue = s.mot.queue.tail ∧ ∀ x, s.grant.motor x =
      if s.mot.queue.head? = some x then { s.motor x with state := .starting, timer := some s.startTime } else s.motor x := by
  have hf := (State.arbiterFree_iff s).mpr h
  cases hq : s.mot.queue with
  | nil => simp [State.grant, hf, hq]
  | cons m rest =>
    refine ⟨by simp [State.grant, hf, hq], fun x => ?_⟩
    by_cases hx : m = x
    · subst hx; simp [State.grant, hf, hq]
    · simp only [State.grant, hf, hq]
      simp [hx, State.updMotor_motor_ne _ _ (Ne.symm hx)]

/-- A grant while a motor is STARTING does nothing. -/
theorem State.grant_busy_eq (s : State) (m : Product) (h : (s.motor m).state = .starting) : s.grant = s := by
  have : ¬ s.arbiterFree = true := fun hf => (State.arbiterFree_iff s).mp hf m h
  simp [State.grant, this]

/-- The condition under which a withdrawal leaves a motor without demand (R67). -/
theorem State.aloneDemands_iff (s : State) (d : Side) (m : Product) :
    ((s.motor m).demand.get d = true ∧ demandCount ((s.motor m).demand.set d false) = 0) ↔ s.aloneDemands d m = true := by
  unfold State.aloneDemands
  generalize (s.motor m).demand = x
  obtain ⟨xa, xb⟩ := x
  cases d <;> cases xa <;> cases xb <;> decide

/-- What `State.dropDemand` does, by the state of the motor. -/
theorem State.dropDemand_eq (s : State) (d : Side) (m : Product) :
    s.dropDemand d m =
      let t := s.updMotor m (fun r => { r with demand := r.demand.set d false })
      if s.aloneDemands d m then
        match (s.motor m).state with
        | .queued => (t.updMotor m (fun r => { r with state := .off })).setStartQueue (s.mot.queue.filter (fun q => decide (q ≠ m)))
        | .starting => (t.updMotor m (fun r => { r with state := .off, timer := none })).grant
        | .running =>
          if s.runOnTime = 0 then t.updMotor m (fun r => { r with state := .off })
          else t.updMotor m (fun r => { r with state := .runOn, timer := some s.runOnTime })
        | _ => t
      else t := by
  unfold State.dropDemand
  simp only [State.updMotor_motor, State.aloneDemands_iff]
  all_goals rfl

/-- The start queue without the motors that are gone. -/
def State.dropQueue (s : State) (gone : Product → Bool) : List Product := s.mot.queue.filter (fun m => !gone m)

/-- No motor is STARTING but those that are gone. -/
def State.dropFree (s : State) (gone : Product → Bool) : Bool :=
  [Product.p1, .p2, .p3].all (fun m => decide ((s.motor m).state ≠ .starting) || gone m)

/-- The motor `x` once the demand of side `d` on it is withdrawn or not, it being gone or not, and it being the one that starts or not. -/
def State.dropRec (s : State) (d : Side) (starts gone done : Bool) (timer : Timer) (x : Product) : MotorRec :=
  let r : MotorRec := if done then { s.motor x with demand := (s.motor x).demand.set d false } else s.motor x
  if starts then { r with state := .starting, timer := some s.startTime }
  else if gone then
    match r.state with
    | .queued => { r with state := .off, timer := if r.timer = none then none else timer }
    | .starting => { r with state := .off, timer := none }
    | .running => if s.runOnTime = 0 then { r with state := .off } else { r with state := .runOn, timer := some s.runOnTime }
    | _ => r
  else r

/-- The withdrawal of the demand of side `d` on the motors `done`, of which those that it alone demanded are gone (R67, R68, R69, R71). -/
structure State.DropsOn (s t : State) (d : Side) (done gone : Product → Bool) : Prop where
  store : t.store = s.store
  queue : t.mot.queue = if s.dropFree gone then (s.dropQueue gone).tail else s.dropQueue gone
  motors : ∀ x, t.motor x =
    s.dropRec d (s.dropFree gone && decide ((s.dropQueue gone).head? = some x)) (gone x) (done x) (t.motor x).timer x

theorem State.dropFree_iff (s : State) (gone : Product → Bool) :
    s.dropFree gone = true ↔ ∀ x, (s.motor x).state = .starting → gone x = true := by
  simp only [State.dropFree, List.all_cons, List.all_nil, Bool.and_true, Bool.and_eq_true, Bool.or_eq_true, decide_eq_true_eq]
  constructor
  · rintro ⟨a, b, c⟩ x hx
    cases x
    exacts [a.resolve_left (absurd hx), b.resolve_left (absurd hx), c.resolve_left (absurd hx)]
  · exact fun h => ⟨or_iff_not_imp_left.mpr fun a => h _ (not_not.mp a), or_iff_not_imp_left.mpr fun a => h _ (not_not.mp a),
      or_iff_not_imp_left.mpr fun a => h _ (not_not.mp a)⟩

/-- Nothing is withdrawn yet: the motors and the store are as in `s`. -/
theorem State.DropsOn.refl {s t : State} (h : s.DriveLaw) (d : Side) (hm : t.mot = s.mot) (hst : t.store = s.store) :
    s.DropsOn t d (fun _ => false) (fun _ => false) := by
  have hq : s.dropFree (fun _ => false) = true → s.mot.queue = [] := fun hf =>
    h.granted ((State.arbiterFree_iff s).mpr fun m hm => by simpa using (State.dropFree_iff s _).mp hf m hm)
  have hmot : ∀ x, t.motor x = s.motor x := fun x => by simp [State.motor, hm]
  refine ⟨hst, ?_, fun x => ?_⟩
  · simp only [hm, State.dropQueue, Bool.not_false, List.filter_true]
    split
    · rename_i hf; simp [hq hf]
    · rfl
  · by_cases hf : s.dropFree (fun _ => false) = true
    · simp [State.dropRec, State.dropQueue, hq hf, hmot]
    · simp [State.dropRec, hf, hmot]

/-- A motor whose demand goes stays demanded by the other side, or was not demanded by this one. -/
theorem State.DropsOn.keep {s t : State} {d : Side} {done gone : Product → Bool} (ht : s.DropsOn t d done gone) (m : Product)
    (hm : done m = false) (hg : gone m = false) (ha : s.aloneDemands d m = false) :
    s.DropsOn (t.dropDemand d m) d (fun x => done x || decide (x = m)) gone := by
  have hd : (t.motor m).demand = (s.motor m).demand := by
    rw [ht.motors m]; simp only [State.dropRec, hm, hg]; split <;> simp
  have hat : t.aloneDemands d m = false := by simpa [State.aloneDemands, hd] using ha
  rw [State.dropDemand_eq]
  simp only [hat, Bool.false_eq_true, if_false]
  refine ⟨ht.store, ht.queue, fun x => ?_⟩
  by_cases hx : x = m
  · subst hx
    rw [State.updMotor_motor, ht.motors x]
    simp only [State.dropRec, hm, hg]
    split <;> simp
  · rw [State.updMotor_motor_ne _ _ hx]
    simpa [hx] using ht.motors x

/-- Where nothing starts it, a motor that is gone, or that was not STARTING, is not STARTING. -/
theorem State.dropRec_idle (s : State) (d : Side) (gone done : Bool) (timer : Timer) (x : Product)
    (h : gone = true ∨ (s.motor x).state ≠ .starting) : (s.dropRec d false gone done timer x).state ≠ .starting := by
  have hr : (if done then { s.motor x with demand := (s.motor x).demand.set d false } else s.motor x : MotorRec).state = (s.motor x).state := by
    split <;> rfl
  unfold State.dropRec
  simp only [Bool.false_eq_true, if_false]
  rw [← hr] at h
  generalize (if done then { s.motor x with demand := (s.motor x).demand.set d false } else s.motor x : MotorRec) = r at h
  clear hr
  obtain ⟨st, _, _, _, _⟩ := r
  cases st <;> cases gone <;> simp_all
  split <;> simp

/-- The motors, once one of them has left its start and the arbiter, free again, has granted the next. -/
theorem State.DropsOn.granted {s w : State} {d : Side} {done gone : Product → Bool} {queue : List Product} (hst : w.startTime = s.startTime)
    (hidle : ∀ x, (w.motor x).state ≠ .starting) (hq : w.mot.queue = queue) (hgone : ∀ x ∈ queue, gone x = false)
    (hw : ∀ x, ∀ timer, timer = (w.motor x).timer → w.motor x = s.dropRec d false (gone x) (done x) timer x) (x : Product) :
    w.grant.motor x = s.dropRec d (decide (queue.head? = some x)) (gone x) (done x) (w.grant.motor x).timer x := by
  rw [(State.grant_free_eq w hidle).2 x, hq]
  by_cases hx : queue.head? = some x
  · have hg := hgone x (List.mem_of_mem_head? hx)
    rw [if_pos hx, hw x _ rfl, hst]
    simp [State.dropRec, hg, hx]
  · rw [if_neg hx]
    simpa [hx] using hw x _ rfl

/-- A motor that side `d` alone demanded goes. -/
theorem State.DropsOn.go {s t : State} {d : Side} {done gone : Product → Bool} (h : s.DriveLaw) (ht : s.DropsOn t d done gone)
    (m : Product) (hm : done m = false) (hg : gone m = false) (ha : s.aloneDemands d m = true) :
    s.DropsOn (t.dropDemand d m) d (fun x => done x || decide (x = m)) (fun x => gone x || decide (x = m)) := by
  have htm : t.motor m = s.dropRec d (s.dropFree gone && decide ((s.dropQueue gone).head? = some m)) false false (t.motor m).timer m := by
    have := ht.motors m
    rwa [hm, hg] at this
  have hd : (t.motor m).demand = (s.motor m).demand := by
    rw [htm]; simp only [State.dropRec]; split <;> simp
  have hat : t.aloneDemands d m = true := by simpa [State.aloneDemands, hd] using ha
  have hst : t.startTime = s.startTime := by simp [State.startTime, State.copyField, ht.store]
  have hro : t.runOnTime = s.runOnTime := by simp [State.runOnTime, State.copyField, ht.store]
  have hnd : (s.dropQueue gone).Nodup := h.queueOnce.filter _
  have hmem : m ∈ s.dropQueue gone ↔ (s.motor m).state = .queued := by simp [State.dropQueue, hg, h.queued]
  have hQ' : s.dropQueue (fun x => gone x || decide (x = m)) = (s.dropQueue gone).filter (fun q => decide (q ≠ m)) := by
    simp [State.dropQueue, List.filter_filter, Bool.and_comm]
  have hin : ∀ x ∈ s.dropQueue gone, gone x = false := by simp [State.dropQueue]
  rw [State.dropDemand_eq]
  simp only [hat, if_true]
  -- what the motors other than `m` hold
  have hother : ∀ x, x ≠ m → s.dropFree gone = true ∨ (s.motor m).state = .starting →
      ¬(s.dropFree gone = true ∧ (s.dropQueue gone).head? = some x) →
      t.motor x = s.dropRec d false (gone x) (done x) (t.motor x).timer x ∧ (t.motor x).state ≠ .starting := by
    intro x hx hc hn
    have hs : (s.dropFree gone && decide ((s.dropQueue gone).head? = some x)) = false := by
      simpa [Bool.and_eq_false_iff] using fun a => fun b => hn ⟨a, b⟩
    have := ht.motors x
    rw [hs] at this
    refine ⟨this, ?_⟩
    rw [this]
    refine State.dropRec_idle _ _ _ _ _ _ ?_
    by_cases hgx : gone x = true
    · exact .inl hgx
    · refine .inr fun hsx => ?_
      rcases hc with hc | hc
      · exact hgx ((State.dropFree_iff _ _).mp hc x hsx)
      · exact hx (h.oneStart x m hsx hc)
  -- the arbiter grants the next as `m` leaves its start
  have hgrant : s.dropFree (fun x => gone x || decide (x = m)) = true → s.dropQueue (fun x => gone x || decide (x = m)) = t.mot.queue →
      (∀ x, x ≠ m → (s.dropFree gone = true ∨ (s.motor m).state = .starting) ∧ ¬(s.dropFree gone = true ∧ (s.dropQueue gone).head? = some x)) →
      { t.motor m with state := .off, timer := none } = { s.motor m with state := .off, timer := none } →
      (s.motor m).state = .queued ∨ (s.motor m).state = .starting →
      s.DropsOn ((t.updMotor m (fun r => { r with demand := r.demand.set d false })).updMotor m (fun r => { r with state := .off, timer := none })).grant
        d (fun x => done x || decide (x = m)) (fun x => gone x || decide (x = m)) := by
    intro hf hq hx hmm hms
    have hw : ∀ x, (((t.updMotor m (fun r => { r with demand := r.demand.set d false })).updMotor m (fun r => { r with state := .off, timer := none })).motor x)
        = if x = m then { s.motor m with demand := (s.motor m).demand.set d false, state := .off, timer := none } else t.motor x := by
      intro x
      split
      · rename_i e
        subst e
        simp only [State.updMotor_motor]
        simp only [MotorRec.mk.injEq] at hmm ⊢
        simp [hmm]
      · rename_i e
        rw [State.updMotor_motor_ne _ _ e, State.updMotor_motor_ne _ _ e]
    have hidle : ∀ x, (((t.updMotor m (fun r => { r with demand := r.demand.set d false })).updMotor m (fun r => { r with state := .off, timer := none })).motor x).state ≠ .starting := by
      intro x
      rw [hw]
      split
      · simp
      · rename_i e
        exact (hother x e (hx x e).1 (hx x e).2).2
    refine ⟨?_, ?_, fun x => ?_⟩
    · simp [ht.store]
    · rw [(State.grant_free_eq _ hidle).1, if_pos hf, hq]
      rfl
    · rw [hf, hq, Bool.true_and]
      refine State.DropsOn.granted (s := s) (d := d) (done := fun x => done x || decide (x = m)) (gone := fun x => gone x || decide (x = m))
        (queue := t.mot.queue) ?_ hidle rfl ?_ ?_ x
      · exact hst
      · rw [← hq]; simp [State.dropQueue]
      · intro y timer hy
        rw [hw] at hy ⊢
        by_cases e : y = m
        · subst e
          simp only [if_true] at hy ⊢
          rcases hms with hms | hms <;> simp [State.dropRec, hms, hy]
        · simp only [e, if_false, decide_false, Bool.or_false] at hy ⊢
          rw [hy]
          exact (hother y e (hx y e).1 (hx y e).2).1
  by_cases h1 : s.dropFree gone = true ∧ (s.dropQueue gone).head? = some m
  · have hms : (t.motor m).state = .starting := by rw [htm]; simp [State.dropRec, h1]
    have hmq : (s.motor m).state = .queued := hmem.mp (List.mem_of_mem_head? h1.2)
    have hfree : s.dropFree (fun x => gone x || decide (x = m)) = true := by
      simp only [State.dropFree_iff] at h1 ⊢
      exact fun x hx => by simp [h1.1 x hx]
    have hq1 : t.mot.queue = (s.dropQueue gone).tail := by rw [ht.queue, if_pos h1.1]
    have hq2 : s.dropQueue (fun x => gone x || decide (x = m)) = (s.dropQueue gone).tail := by
      rw [hQ']
      cases hc : s.dropQueue gone with
      | nil => rfl
      | cons a rest =>
        rw [hc] at hnd h1
        obtain rfl : a = m := by simpa using h1.2
        have := (List.nodup_cons.mp hnd).1
        simp only [ne_eq, not_true, decide_false, Bool.false_eq_true, not_false_eq_true, List.filter_cons_of_neg, List.tail_cons]
        exact List.filter_eq_self.mpr fun x hx => by
          simp only [decide_eq_true_eq]
          exact fun e => this (e ▸ hx)
    simp only [hms]
    refine hgrant hfree (hq2.trans hq1.symm) (fun x hx => ⟨.inl h1.1, fun hn => hx (Option.some_inj.mp (hn.2.symm.trans h1.2))⟩) ?_ (.inl hmq)
    rw [htm]
    simp [State.dropRec, h1]
  · have htm' : t.motor m = s.motor m := by
      have : (s.dropFree gone && decide ((s.dropQueue gone).head? = some m)) = false := by simpa [Bool.and_eq_false_iff] using fun a b => h1 ⟨a, b⟩
      rw [htm, this]
      simp [State.dropRec]
    by_cases hs : (s.motor m).state = .starting
    · have hnf : ¬ s.dropFree gone = true := fun hf => by simpa [hg] using (State.dropFree_iff _ _).mp hf m hs
      have hmQ : m ∉ s.dropQueue gone := by rw [hmem, hs]; decide
      have hfree : s.dropFree (fun x => gone x || decide (x = m)) = true :=
        (State.dropFree_iff _ _).mpr fun x hx => by simp [h.oneStart x m hx hs]
      have hq2 : s.dropQueue (fun x => gone x || decide (x = m)) = t.mot.queue := by
        rw [hQ', ht.queue, if_neg hnf]
        exact List.filter_eq_self.mpr fun x hx => by
          simp only [decide_eq_true_eq]
          exact fun e => hmQ (e ▸ hx)
      simp only [htm', hs]
      exact hgrant hfree hq2 (fun x _ => ⟨.inr hs, fun hn => hnf hn.1⟩) (by rw [htm']) (.inr hs)
    · have hfree : s.dropFree (fun x => gone x || decide (x = m)) = s.dropFree gone := by
        rw [Bool.eq_iff_iff, State.dropFree_iff, State.dropFree_iff]
        refine forall_congr' fun x => forall_congr' fun hx => ?_
        have : x ≠ m := fun e => hs (e ▸ hx)
        simp [this]
      have hhead : s.dropFree gone = true → ∀ x, ((s.dropQueue gone).filter (fun q => decide (q ≠ m))).head? = some x ↔ (s.dropQueue gone).head? = some x := by
        intro hf x
        cases hc : s.dropQueue gone with
        | nil => simp
        | cons a rest =>
          have : a ≠ m := fun e => h1 ⟨hf, by simp [hc, e]⟩
          simp [this]
      have hqueue : t.mot.queue.filter (fun q => decide (q ≠ m)) =
          if s.dropFree gone then ((s.dropQueue gone).filter (fun q => decide (q ≠ m))).tail else (s.dropQueue gone).filter (fun q => decide (q ≠ m)) := by
        rw [ht.queue]
        split
        · rename_i hf
          cases hc : s.dropQueue gone with
          | nil => simp
          | cons a rest =>
            have : a ≠ m := fun e => h1 ⟨hf, by simp [hc, e]⟩
            simp [this]
        · rfl
      have hstart : ∀ x, (s.dropFree gone && decide (((s.dropQueue gone).filter (fun q => decide (q ≠ m))).head? = some x))
          = (s.dropFree gone && decide ((s.dropQueue gone).head? = some x)) := by
        intro x
        cases hf : s.dropFree gone
        · rfl
        · simp only [Bool.true_and, decide_eq_decide]
          exact hhead hf x
      -- only the record of `m` and its place in the queue change
      have hstay : ∀ u : State, u.store = t.store → u.mot.queue = t.mot.queue.filter (fun q => decide (q ≠ m)) → (∀ x, x ≠ m → u.motor x = t.motor x) →
          u.motor m = s.dropRec d false true true (u.motor m).timer m →
          s.DropsOn u d (fun x => done x || decide (x = m)) (fun x => gone x || decide (x = m)) := by
        intro u hus huq hux hum
        refine ⟨hus.trans ht.store, ?_, fun x => ?_⟩
        · rw [huq, hfree, hQ', hqueue]
        · rw [hfree, hQ', hstart]
          by_cases hx : x = m
          · subst hx
            have : (s.dropFree gone && decide ((s.dropQueue gone).head? = some x)) = false := by
              simpa [Bool.and_eq_false_iff] using fun a b => h1 ⟨a, b⟩
            rw [this]
            simpa using hum
          · rw [hux x hx]
            simpa [hx] using ht.motors x
      have hsame : (s.motor m).state ≠ .queued → t.mot.queue = t.mot.queue.filter (fun q => decide (q ≠ m)) := by
        intro hnq
        have hmQ : m ∉ s.dropQueue gone := fun hin => hnq (hmem.mp hin)
        refine (List.filter_eq_self.mpr fun x hx => ?_).symm
        simp only [decide_eq_true_eq]
        rintro rfl
        refine hmQ ?_
        rw [ht.queue] at hx
        split at hx
        · exact List.mem_of_mem_tail hx
        · exact hx
      simp only [htm', hro]
      cases hms : (s.motor m).state with
      | starting => exact absurd hms hs
      | queued =>
        refine hstay _ rfl rfl (fun x hx => ?_) ?_
        · rw [State.setStartQueue_motor, State.updMotor_motor_ne _ _ hx, State.updMotor_motor_ne _ _ hx]
        · simp only [State.setStartQueue_motor, State.updMotor_motor, htm']
          simp [State.dropRec, hms]
      | running =>
        have hne : (s.motor m).state ≠ .queued := by rw [hms]; decide
        dsimp only
        split
        · refine hstay _ rfl (hsame hne) (fun x hx => ?_) ?_
          · rw [State.updMotor_motor_ne _ _ hx, State.updMotor_motor_ne _ _ hx]
          · rename_i h0
            simp [State.dropRec, hms, htm', h0]
        · refine hstay _ rfl (hsame hne) (fun x hx => ?_) ?_
          · rw [State.updMotor_motor_ne _ _ hx, State.updMotor_motor_ne _ _ hx]
          · rename_i h0
            simp [State.dropRec, hms, htm', h0]
      | _ =>
        have hne : (s.motor m).state ≠ .queued := by rw [hms]; decide
        refine hstay _ rfl (hsame hne) (fun x hx => State.updMotor_motor_ne _ _ hx) ?_
        simp [State.dropRec, hms, htm']

/-- The withdrawal on one motor, whichever it is. -/
theorem State.DropsOn.step {s t : State} {d : Side} {done : Product → Bool} (h : s.DriveLaw) (ht : s.DropsOn t d done (fun x => done x && s.aloneDemands d x))
    (m : Product) (hm : done m = false) :
    s.DropsOn (t.dropDemand d m) d (fun x => done x || decide (x = m)) (fun x => (done x || decide (x = m)) && s.aloneDemands d x) := by
  by_cases ha : s.aloneDemands d m = true
  · have := ht.go h m hm (by simp [hm]) ha
    have e : (fun x => (done x && s.aloneDemands d x) || decide (x = m)) = fun x => (done x || decide (x = m)) && s.aloneDemands d x := by
      funext x
      by_cases hx : x = m
      · simp [hx, ha]
      · simp [hx]
    rwa [e] at this
  · have := ht.keep m hm (by simp [hm]) (by simpa using ha)
    have e : (fun x => done x && s.aloneDemands d x) = fun x => (done x || decide (x = m)) && s.aloneDemands d x := by
      funext x
      by_cases hx : x = m
      · simp [hx, ha]
      · simp [hx]
    rwa [e] at this

/-- What the withdrawal of a side's demand on every motor does, from a state `t` with the motors and the store of `s` (R67, R68, R69, R71). -/
theorem State.dropAll_dropped {s t : State} (h : s.DriveLaw) (d : Side) (hm : t.mot = s.mot) (hst : t.store = s.store) :
    s.DemandDropped (t.dropAll d) d := by
  have key := (((State.DropsOn.refl h d hm hst).step (done := fun _ => false) h .p1 rfl).step h .p2 (by decide)).step h .p3 (by decide)
  have hd : (fun x => ((false || decide (x = Product.p1)) || decide (x = Product.p2)) || decide (x = Product.p3)) = fun _ => true := by
    funext x; cases x <;> decide
  have hg : (fun x => (((false || decide (x = Product.p1)) || decide (x = Product.p2)) || decide (x = Product.p3)) && s.aloneDemands d x)
      = s.aloneDemands d := by
    funext x; cases x <;> simp
  rw [hd, hg] at key
  refine ⟨key.queue, fun m => (key.motors m).trans ?_⟩
  cases hs : (s.motor m).state <;>
    simp [State.dropRec, State.dropFree, State.freeWithout, State.dropQueue, State.queueWithout, State.dropAll, hs]

theorem State.DemandDropped.congr {s t u : State} {d : Side} (h : s.DemandDropped t d) (hm : u.mot = t.mot) : s.DemandDropped u d := by
  have hu : ∀ m, u.motor m = t.motor m := fun m => by simp [State.motor, hm]
  exact ⟨hm ▸ h.queue, fun m => by rw [hu]; exact h.motors m⟩

/-! ## A raise of demand -/

/-- The motor `x` once side `d` demands it or not, it having joined the start queue or not, and it being the one that starts or not. -/
def State.raiseRec (s : State) (d : Side) (starts joined done : Bool) (x : Product) : MotorRec :=
  let r : MotorRec := if done then { s.motor x with demand := (s.motor x).demand.set d true } else s.motor x
  if starts then { r with state := .starting, timer := some s.startTime }
  else if joined then { r with state := .queued }
  else if done ∧ (s.motor x).demand = ⟨false, false⟩ ∧ r.state = .runOn then { r with state := .running, timer := none }
  else r

theorem State.raiseRec_idle (s : State) (d : Side) (joined done : Bool) (x : Product) (h : (s.motor x).state ≠ .starting) :
    (s.raiseRec d false joined done x).state ≠ .starting := by
  unfold State.raiseRec
  cases joined <;> cases done <;> simp [h]
  split <;> simp [h]

/-- Side `d` has demanded the motors of `set`, in the order M1, M2, M3, from the state `s` on (R67, R68, R69). -/
structure State.RaisesOn (s t : State) (d : Side) (set : Three Bool) : Prop where
  pw : t.pw = s.pw
  store : t.store = s.store
  queue : t.mot.queue = if s.arbiterFree then (s.mot.queue ++ s.joining set).tail else s.mot.queue ++ s.joining set
  motors : ∀ x, t.motor x = s.raiseRec d (s.arbiterFree && decide ((s.mot.queue ++ s.joining set).head? = some x))
    (decide (x ∈ s.joining set)) (set.get x) x

/-- Whether a motor joins the start queue as a side demands it (R68). -/
def State.joins (s : State) (m : Product) : Bool := decide ((s.motor m).state = .off) && decide ((s.motor m).demand = ⟨false, false⟩)

theorem State.joining_eq (s : State) (set : Three Bool) : s.joining set = [Product.p1, .p2, .p3].filter (fun m => set.get m && s.joins m) := by
  simp [State.joining, State.joins, Bool.and_assoc]

theorem demandCount_zero (x : Sides Bool) : demandCount x = 0 ↔ x = ⟨false, false⟩ := by
  obtain ⟨a, b⟩ := x; cases a <;> cases b <;> decide

/-- One motor more is demanded, the last in the order so far. -/
theorem State.RaisesOn.step {s t : State} {d : Side} {set : Three Bool} (h : s.DriveLaw) (ha : s.pw.state = .active) (ht : s.RaisesOn t d set)
    (m : Product) (hm : set.get m = false) (hJ : s.joining (set.set m true) = s.joining set ++ (if s.joins m then [m] else [])) :
    s.RaisesOn (t.raiseDemand d m) d (set.set m true) := by
  have hset : ∀ x, (set.set m true).get x = if x = m then true else set.get x := by
    intro x; cases m <;> cases x <;> rfl
  have hnJ : m ∉ s.joining set := by simp [State.joining, hm]
  have hnh : s.arbiterFree = true → (s.mot.queue ++ s.joining set).head? ≠ some m := by
    intro hf e
    rw [h.granted hf, List.nil_append] at e
    exact hnJ (List.mem_of_mem_head? e)
  have hns : (s.arbiterFree && decide ((s.mot.queue ++ s.joining set).head? = some m)) = false := by
    simpa only [Bool.and_eq_false_imp, decide_eq_false_iff_not] using hnh
  have htm : t.motor m = s.motor m := by
    rw [ht.motors m]
    rw [hns]
    simp [State.raiseRec, hnJ, hm]
  -- where `m` does not join, only its record changes
  have hstay : s.joins m = false → ∀ u : State, u.pw = t.pw → u.store = t.store → u.mot.queue = t.mot.queue → (∀ x, x ≠ m → u.motor x = t.motor x) →
      u.motor m = s.raiseRec d false false true m → s.RaisesOn u d (set.set m true) := by
    intro hj u hup hus huq hux hum
    have hJ' : s.joining (set.set m true) = s.joining set := by simp [hJ, hj]
    refine ⟨hup.trans ht.pw, hus.trans ht.store, by rw [huq, hJ']; exact ht.queue, fun x => ?_⟩
    rw [hJ', hset]
    by_cases hx : x = m
    · subst hx
      rw [hns]
      simpa [hnJ] using hum
    · rw [hux x hx]
      simpa [hx] using ht.motors x
  unfold State.raiseDemand
  dsimp only
  simp only [htm, ht.pw, ha, if_true]
  by_cases hc : demandCount (s.motor m).demand = 0
  · have hc' := (demandCount_zero _).mp hc
    simp only [hc, if_true]
    cases hs : (s.motor m).state with
    | off =>
      have hj : s.joins m = true := by simp [State.joins, hs, hc']
      rw [hj, if_pos rfl] at hJ
      unfold State.joinQueue
      by_cases hf : s.arbiterFree = true ∧ s.joining set = []
      · -- `m` starts at once
        obtain ⟨hf, he⟩ := hf
        have hq := h.granted hf
        have hall := (State.arbiterFree_iff s).mp hf
        have hidle : ∀ x, ((((t.updMotor m (fun r => { r with demand := r.demand.set d true })).updMotor m (fun r => { r with state := .queued })).setStartQueue
            ((t.updMotor m (fun r => { r with demand := r.demand.set d true })).mot.queue ++ [m])).motor x).state ≠ .starting := by
          intro x
          rw [State.setStartQueue_motor]
          by_cases hx : x = m
          · subst hx; simp
          · rw [State.updMotor_motor_ne _ _ hx, State.updMotor_motor_ne _ _ hx, ht.motors x]
            simp only [he, hq, List.append_nil, List.head?_nil, reduceCtorEq, decide_false, Bool.and_false]
            exact State.raiseRec_idle s d _ _ x (hall x)
        have htq : t.mot.queue = [] := by rw [ht.queue, if_pos hf, he, hq]; rfl
        refine ⟨by simp [ht.pw], by simp [ht.store], ?_, fun x => ?_⟩
        · rw [(State.grant_free_eq _ hidle).1, if_pos hf, hJ, he, hq]
          simp [htq]
        · rw [(State.grant_free_eq _ hidle).2 x, hJ, he, hq, hset]
          by_cases hx : x = m
          · subst hx
            simp [htq, hf, State.raiseRec, htm, State.startTime, State.copyField, ht.store]
          · have hxm : m ≠ x := Ne.symm hx
            simp only [State.setStartQueue_motor, State.updMotor_motor_ne _ _ hx]
            have := ht.motors x
            rw [he, hq] at this
            simpa [htq, hx, hxm] using this
      · -- `m` waits in the queue
        have hbusy : ∃ n, n ≠ m ∧ (t.motor n).state = .starting := by
          by_cases hf' : s.arbiterFree = true
          · cases hc : s.joining set with
            | nil => exact absurd ⟨hf', hc⟩ hf
            | cons a rest =>
              refine ⟨a, fun e => hnJ (e ▸ hc ▸ List.mem_cons_self), ?_⟩
              rw [ht.motors a, hc, h.granted hf']
              simp [State.raiseRec, hf']
          · rw [State.arbiterFree_iff] at hf'
            simp only [ne_eq, not_forall, not_not] at hf'
            obtain ⟨n, hn⟩ := hf'
            have hnm : n ≠ m := fun e => by rw [e, hs] at hn; exact absurd hn (by decide)
            have hff : s.arbiterFree = false := by
              simpa using fun hf => (State.arbiterFree_iff s).mp hf n hn
            have hnj : n ∉ s.joining set := by simp [State.joining, hn]
            refine ⟨n, hnm, ?_⟩
            rw [ht.motors n, hff]
            simp only [State.raiseRec, Bool.false_and, Bool.false_eq_true, if_false, hnj, decide_false]
            split <;> split <;> simp_all
        obtain ⟨n, hnm, hn⟩ := hbusy
        rw [State.grant_busy_eq _ n (by
          rw [State.setStartQueue_motor, State.updMotor_motor_ne _ _ hnm, State.updMotor_motor_ne _ _ hnm]; exact hn)]
        have hhead : s.arbiterFree = true → ∀ x, (s.mot.queue ++ (s.joining set ++ [m])).head? = some x ↔ (s.mot.queue ++ s.joining set).head? = some x := by
          intro hf' x
          cases hc : s.joining set with
          | nil => exact absurd ⟨hf', hc⟩ hf
          | cons a rest => simp [h.granted hf']
        refine ⟨ht.pw, ht.store, ?_, fun x => ?_⟩
        · rw [hJ]
          show t.mot.queue ++ [m] = _
          rw [ht.queue]
          split
          · rename_i hf'
            cases hc : s.joining set with
            | nil => exact absurd ⟨hf', hc⟩ hf
            | cons a rest => simp [h.granted hf']
          · simp
        · have hst' : (s.arbiterFree && decide ((s.mot.queue ++ s.joining (set.set m true)).head? = some x))
              = (s.arbiterFree && decide ((s.mot.queue ++ s.joining set).head? = some x)) := by
            cases hf' : s.arbiterFree
            · rfl
            · simp only [Bool.true_and, decide_eq_decide, hJ]
              exact hhead hf' x
          rw [hst', hset, State.setStartQueue_motor]
          by_cases hx : x = m
          · subst hx
            rw [hns]
            simp [hJ, State.raiseRec, htm]
          · rw [State.updMotor_motor_ne _ _ hx, State.updMotor_motor_ne _ _ hx]
            simpa [hJ, hx] using ht.motors x
    | runOn =>
      refine hstay (by simp [State.joins, hs]) _ rfl rfl rfl (fun x hx => ?_) ?_
      · rw [State.updMotor_motor_ne _ _ hx, State.updMotor_motor_ne _ _ hx]
      · simp [State.raiseRec, hs, hc', htm]
    | _ =>
      refine hstay (by simp [State.joins, hs]) _ rfl rfl rfl (fun x hx => State.updMotor_motor_ne _ _ hx) ?_
      simp [State.raiseRec, hs, htm]
  · simp only [hc, if_false]
    have hc' : (s.motor m).demand ≠ ⟨false, false⟩ := fun e => hc ((demandCount_zero _).mpr e)
    refine hstay (by simp [State.joins, hc']) _ rfl rfl rfl (fun x hx => State.updMotor_motor_ne _ _ hx) ?_
    simp [State.raiseRec, hc', htm]

/-- One motor more is demanded where the product set holds it. -/
theorem State.RaisesOn.stepIf {s t : State} {d : Side} {set : Three Bool} (h : s.DriveLaw) (ha : s.pw.state = .active) (ht : s.RaisesOn t d set)
    (m : Product) (f : Bool) (hm : set.get m = false) (hJ : s.joining (set.set m true) = s.joining set ++ (if s.joins m then [m] else [])) :
    s.RaisesOn (if f then t.raiseDemand d m else t) d (set.set m f) := by
  cases f
  · have : set.set m false = set := by
      obtain ⟨a, b, c⟩ := set
      cases m <;> simp_all [Three.set, Three.get]
    simpa [this] using ht
  · simpa using ht.step h ha m hm hJ

/-- What a side's demand on every motor of its product set does, from a state `t` with the motors of `s` (R67, R68, R69). -/
theorem State.raiseAll_raised {s t : State} (h : s.DriveLaw) (ha : s.pw.state = .active) (d : Side) (hm : t.mot = s.mot) (hp : t.pw = s.pw)
    (hst : t.store = s.store) : s.DemandRaised (t.raiseAll d) d (t.sale d).drawn := by
  have h0 : s.RaisesOn t d ⟨false, false, false⟩ := by
    have hJ : s.joining ⟨false, false, false⟩ = [] := by simp [State.joining, Three.get]
    refine ⟨hp, hst, ?_, fun x => ?_⟩
    · rw [hJ, hm]
      split
      · rename_i hf; simp [h.granted hf]
      · simp
    · have hmot : t.motor x = s.motor x := by simp [State.motor, hm]
      have : (s.arbiterFree && decide ((s.mot.queue ++ s.joining ⟨false, false, false⟩).head? = some x)) = false := by
        cases hf : s.arbiterFree
        · rfl
        · simp [hJ, h.granted hf]
      rw [this, hmot, hJ]
      cases x <;> simp [State.raiseRec, Three.get]
  have key : s.RaisesOn (t.raiseAll d) d (t.sale d).drawn := by
    unfold State.raiseAll
    have hsale : ∀ (u : State) (m : Product), (u.raiseDemand d m).sale d = u.sale d := fun u m => by simp [State.sale]
    have hif : ∀ (f : Prop) [Decidable f] (u v : State), (if f then u else v).sale d = if f then u.sale d else v.sale d :=
      fun f _ u v => by split <;> rfl
    simp only [hif, hsale, ite_self]
    refine ((h0.stepIf h ha .p1 ((t.sale d).drawn.get .p1) rfl ?_).stepIf h ha .p2 ((t.sale d).drawn.get .p2) rfl ?_).stepIf
      h ha .p3 ((t.sale d).drawn.get .p3) rfl ?_
    all_goals
      rw [State.joining_eq, State.joining_eq]
      simp only [List.filter, Three.get, Three.set]
      cases (t.sale d).drawn.p1 <;> cases (t.sale d).drawn.p2 <;> cases s.joins .p1 <;> cases s.joins .p2 <;> cases s.joins .p3 <;> rfl
  exact ⟨key.queue, fun m => by rw [key.motors m]; simp [State.raiseRec]⟩

/-! ## The end of a sale -/

theorem Channel.under_eq_attribute (c : Channel) (a : Attribution) : c.under a = c.attribute a := rfl

theorem attributed_settling (x : Sale) (p : Product) : attributed .settling x p = x.claims p := by
  cases h : x.grade <;> simp [attributed, Sale.claims, h]

/-- What the first cause does to a sale in STARTING, FUELING or PAUSED (R21, R36, R49, R61, R63, R67, R68, R69, R71). -/
theorem State.endSale_ends (s : State) (d : Side) (c : Cause) (hd : s.fpState d ≠ .settling) : s.SaleEnds (s.endSale d c) d (s.fp.get d) c := by
  unfold State.endSale
  dsimp only
  constructor
  · by_cases hp : s.fpState d = .paused
    · have hp' : (s.fp.get d).state = .paused := hp
      simp [hp, hp', State.closeSide, State.stopBlend, FuelPoint.ended]
    · have hp' : ¬ (s.fp.get d).state = .paused := hp
      simp [hp, hp', State.closeSide, State.stopBlend, FuelPoint.ended]
  · split <;> simp [State.sale, State.closeSide, State.stopBlend]
  · split <;> simp [State.closeSide, State.stopBlend]
  · intro m
    have := State.dropAll_demand ((((s.updSale d [.endCause] fun x => { x with endCause := some c }).closeSide d).stopBlend d)) d m
    split <;> simp_all [State.motor, State.closeSide, State.stopBlend]
  · intro h
    refine (State.dropAll_dropped (t := ((s.updSale d [.endCause] fun x => { x with endCause := some c }).closeSide d).stopBlend d) h d
      (by simp [State.closeSide, State.stopBlend]) (by simp [State.closeSide, State.stopBlend])).congr ?_
    split <;> simp
  · intro p
    by_cases hp : s.fpState d = .paused <;> simp only [hp, if_true, if_false]
    all_goals
      rw [State.setFpState_meter _ _ _ _ (by simpa [State.fpState, State.closeSide, State.stopBlend] using hd)]
      rw [Channel.under_eq_attribute, ← attributed_settling]
      simp [State.sale, State.meter, State.closeSide, State.stopBlend, attributed]
  · split <;> simp [State.closeSide, State.stopBlend]

end Sys2Proof.Machine
end

