-- ==== Sys2Proof/Tests/Slice0.lean ====
section
/-! SUPPORT. Tests: ill-formed commands are refused by the check, single commands checked against values worked from the spec, and for
every statement with hypotheses a concrete state and operands that meet them. -/

namespace Sys2Proof.Tests
open Sys2Proof.Machine

set_option Elab.async false

/-! ## Small states -/

/-- The state a command leads to. -/
def after (c : Instr) (s : State) : State :=
  match exec c s with
  | .next t => t
  | _ => State.reset

/-- A calibration image: side A and side B sell G1 (product 1), G2 (a blend of 50 %) and G5 (product 3); every meter has 1,000,000 pulses
a litre, band limits of 100, 200 and 300 mL/s and no correction; four heads and no reader are configured. -/
def image : Memory :=
  let grades : List Byte := [1,1,0,0, 1,1,1,0xF4, 1,1,3,0xE8, 0,1,0,0, 1,2,0,0]
  let meter : List Byte := bytesBE 4 1000000 ++ bytesBE 2 100 ++ bytesBE 2 200 ++ bytesBE 2 300 ++ List.replicate 10 0
  let settings : List Byte := [0,40, 0,20, 3,0xE8, 0,2, 0x20,0x21,0x22,0x23,0,0,0,0, 1,1,1,1, 0]
  Memory.writeAll [] 0 ([1, 0] ++ grades ++ grades ++ meter ++ meter ++ meter ++ meter ++ meter ++ meter ++ settings)

/-- The image's CRC (R171). -/
def imageCheck : Word16 := 0xB9C2

theorem test_image_crc : imageCrc image = imageCheck := by decide +kernel

/-- The same image as the store holds it, its CRC behind it. -/
def storeImage : List Host.Cell := image.writeAll 1154 (bytesBE 2 imageCheck.toNat)

def prices : PriceSet := { version := 7, level1 := ⟨1859, 1959, 2059, 2159, 999⟩, level2 := ⟨1759, 1859, 1959, 2059, 899⟩ }

def readyHead (addr : Nat) : Head := { Head.unconfigured 0 with addr := addr, state := .ready, refresh := some 1000 }

abbrev a1 : Meter := ⟨.a, .p1⟩

abbrev a2 : Meter := ⟨.a, .p2⟩

abbrev a3 : Meter := ⟨.a, .p3⟩

abbrev b3 : Meter := ⟨.b, .p3⟩

def channel : Channel := { Channel.powerUp with k := 1000000, cal := some ⟨100, 200, 300, 0, 0, 0, 0⟩ }

/-- An ACTIVE device: outputs enabled, heads READY, both sides IDLE, nothing queued. -/
def ready : State :=
  { State.reset with
    readBack := some true
    rtc := 1000
    pw := { Power.powerUp with state := .active, phase := .none, crystalWatch := none, drives := true, decoding := true, clock := .crystal, pll := true }
    store := { StorePort.powerUp with copy := some image, refCrc := imageCheck, switchOn := true, check := some 10000 }
    disp := { Display.powerUp with
      rail := true
      heads := ⟨{ readyHead 0x20 with stale := some 2500 }, { readyHead 0x21 with stale := some 2500 }, readyHead 0x22, readyHead 0x23,
        .unconfigured 0, .unconfigured 0, .unconfigured 0, .unconfigured 0⟩ }
    ret := { Retention.never with intact := true, appliedArea := ⟨⟨true, prices⟩, ⟨true, prices⟩⟩ }
    fp := ⟨{ FuelPoint.powerUp false with state := .idle }, { FuelPoint.powerUp false with state := .idle }⟩
    met := ⟨⟨channel, channel, channel⟩, ⟨channel, channel, channel⟩⟩ }

/-- The state with an order posted in slot `n`, alone in the post queue. -/
def posted (s : State) (n : Nat) (k : OrderKind) (target : Nat) (body : List Byte) : State :=
  { s with
    mem := (s.mem.writeAll (slotAddr n) [1, 0, BitVec.ofNat 8 k.code, BitVec.ofNat 8 target]).writeAll (slotAddr n + 16) body
    port := { s.port with posts := [n] } }

def withFp (s : State) (d : Side) (f : FuelPoint → FuelPoint) : State := { s with fp := s.fp.set d (f (s.fp.get d)) }

def withPw (s : State) (f : Power → Power) : State := { s with pw := f s.pw }

def withStore (s : State) (f : StorePort → StorePort) : State := { s with store := f s.store }

def withDisp (s : State) (f : Display → Display) : State := { s with disp := f s.disp }

def withHead (s : State) (r : Role) (f : Head → Head) : State := withDisp s (fun x => { x with heads := x.heads.set r (f (x.heads.get r)) })

def withRdr (s : State) (d : Side) (f : Reader → Reader) : State := { s with rdr := s.rdr.set d (f (s.rdr.get d)) }

def withMotor (s : State) (m : Product) (f : MotorRec → MotorRec) : State :=
  { s with mot := { s.mot with recs := s.mot.recs.set m (f (s.mot.recs.get m)) } }

def withMeter (s : State) (m : Meter) (f : Channel → Channel) : State :=
  { s with met := s.met.set m.side ((s.met.get m.side).set m.product (f (s.meter m))) }

def withSide (s : State) (d : Side) (f : RetSide → RetSide) : State :=
  { s with ret := { s.ret with sides := s.ret.sides.set d (f (s.ret.sides.get d)) } }

def withValve (s : State) (v : Meter) (x : ValveDrive) : State :=
  { s with vlv := s.vlv.set v.side { s.vlv.get v.side with valves := (s.vlv.get v.side).valves.set v.product x } }

/-- An open sale of the 50 % blend on side A at 1.859, drawing on products 1 and 2, 10.00 litres sold, to be closed at 50.00 litres. -/
def openSale (d : Side) : Sale :=
  { Sale.empty d with
    status := .opened, grade := some .g2, price := 1859, version := 7, closeTarget := 5000, volume := 1000, amount := 1859
    drawn := ⟨true, true, false⟩, products := ⟨5000, 5000, 0⟩ }

/-- Side A with that sale in a state of the fueling point: hose 1 is lifted, the meters count for it, and while it is FUELING its valves
are open and its motors run. -/
def selling (st : FpState) : State :=
  let s := withSide ready .a (fun r => { r with sale := openSale .a })
  let s := withFp s .a (fun f => { f with
    state := st, lift1 := some 900, calling := some .h1, auth := some ⟨.console, .level1, maskOf 0x1F, .none, 0, false, 890⟩
    start := if st = .starting then some 60000 else none, noFlow := if st = .fueling then some 60000 else none
    pause := if st = .paused then some 300000 else none, settle := if st = .settling then some 500 else none
    gate1 := decide (st = .starting) })
  let s := withMeter (withMeter s ⟨.a, .p1⟩ (fun c => { c with attr := .sale })) ⟨.a, .p2⟩ (fun c => { c with attr := .sale })
  let s := { s with vlv := s.vlv.set .a { s.vlv.a with
    valves := if st = .fueling then ⟨⟨.opened, 127, 127, 0⟩, ⟨.opened, 128, 128, 0⟩, .shut⟩ else s.vlv.a.valves
    blend := { share := 500, dutyH := 128, dutyL := 127, lastError := 0, count := 0, timer := if st = .fueling then some 200 else none,
               setUp := true } } }
  if st = .fueling then
    withMotor (withMotor s .p1 (fun r => { r with state := .running, demand := ⟨true, false⟩ })) .p2
      (fun r => { r with state := .running, demand := ⟨true, false⟩ })
  else s

/-! ## What makes the hypotheses of the statements decidable -/

theorem all_side {p : Side → Prop} : (∀ d, p d) ↔ p .a ∧ p .b :=
  ⟨fun h => ⟨h _, h _⟩, fun h d => by cases d; exacts [h.1, h.2]⟩

theorem all_product {p : Product → Prop} : (∀ m, p m) ↔ p .p1 ∧ p .p2 ∧ p .p3 :=
  ⟨fun h => ⟨h _, h _, h _⟩, fun h m => by cases m; exacts [h.1, h.2.1, h.2.2]⟩

theorem all_meter {p : Meter → Prop} : (∀ m, p m) ↔ (∀ q, p ⟨.a, q⟩) ∧ ∀ q, p ⟨.b, q⟩ :=
  ⟨fun h => ⟨fun _ => h _, fun _ => h _⟩, fun h m => by obtain ⟨d, q⟩ := m; cases d; exacts [h.1 q, h.2 q]⟩

theorem all_role {p : Role → Prop} :
    (∀ r, p r) ↔ p .saleA ∧ p .saleB ∧ p .priceA ∧ p .priceB ∧ p .mirror1 ∧ p .mirror2 ∧ p .mirror3 ∧ p .mirror4 :=
  ⟨fun h => ⟨h _, h _, h _, h _, h _, h _, h _, h _⟩, fun h r => by
    obtain ⟨h1, h2, h3, h4, h5, h6, h7, h8⟩ := h
    cases r <;> assumption⟩

theorem all_grade {p : Grade → Prop} : (∀ g, p g) ↔ p .g1 ∧ p .g2 ∧ p .g3 ∧ p .g4 ∧ p .g5 :=
  ⟨fun h => ⟨h _, h _, h _, h _, h _⟩, fun h g => by
    obtain ⟨h1, h2, h3, h4, h5⟩ := h
    cases g <;> assumption⟩

theorem steady_iff (s : State) : s.steady ↔ s.pw.mains = true ∧ ∀ p, s.readsGood p = true := Iff.rfl

/-- Every write to retention memory reads back good in a state of the tests, whose own choice says so. -/
theorem good {s : State} (h : s.readBack = some true) : ∀ p, s.readsGood p = true := fun p => by simp [State.readsGood, h]

theorem portLaw_iff (s : State) :
    s.PortLaw ↔ s.mem.wf = true ∧ s.port.takes.length = 16 ∧ (∀ x ∈ s.port.takes, x < 65536) ∧ (∀ n ∈ s.port.posts, n < 16)
      ∧ s.port.posts.Nodup :=
  ⟨fun h => ⟨h.1, h.2, h.3, h.4, h.5⟩, fun ⟨a, b, c, d, e⟩ => ⟨a, b, c, d, e⟩⟩

theorem offers_iff (s : State) (k : OrderKind) (n t : Nat) :
    s.Offers k n t ↔ s.steady ∧ s.PortLaw ∧ s.port.posts.head? = some n ∧ takenIn s.pw.state k = true ∧ s.slotPosted n = true
      ∧ s.slotKind n = k.code ∧ s.slotTarget n = t :=
  ⟨fun h => ⟨h.1, h.2, h.3, h.4, h.5, h.6, h.7⟩, fun ⟨a, b, c, d, e, f, g⟩ => ⟨a, b, c, d, e, f, g⟩⟩

theorem driveLaw_iff (s : State) :
    s.DriveLaw ↔ (s.pw.mains = false → s.pw.state = .powerFail) ∧ (∀ d, (s.fpState d).live = true → s.pw.state = .active)
      ∧ (∀ v, s.valve v ≠ .shut → s.fpState v.side = .fueling)
      ∧ (s.pw.state ≠ .active → ∀ m, (s.motor m).state = .off ∨ (s.motor m).state = .fault)
      ∧ s.mot.queue.Nodup ∧ (∀ m, m ∈ s.mot.queue ↔ (s.motor m).state = .queued)
      ∧ (∀ m n, (s.motor m).state = .starting → (s.motor n).state = .starting → m = n) ∧ (s.arbiterFree = true → s.mot.queue = []) :=
  ⟨fun h => ⟨h.1, h.2, h.3, h.4, h.5, h.6, h.7, h.8⟩, fun ⟨a, b, c, d, e, f, g, i⟩ => ⟨a, b, c, d, e, f, g, i⟩⟩

theorem channelLaw_iff (c : Channel) :
    c.Law ↔ (-3 ≤ c.position ∧ c.position ≤ 3) ∧ c.pendingRev ≤ 65535 ∧ c.illegal ≤ 255 ∧ c.tally ≤ 20
      ∧ (c.saleAcc < 2 ^ 64 ∧ c.unAcc < 2 ^ 64) ∧ c.rate ≤ 2000 :=
  ⟨fun h => ⟨h.1, h.2, h.3, h.4, h.5, h.6⟩, fun ⟨a, b, c, d, e, f⟩ => ⟨a, b, c, d, e, f⟩⟩

theorem between {p : Nat → Prop} {n : Nat} : (∀ i, 1 ≤ i → i ≤ n → p i) ↔ ∀ i, i < n + 1 → 1 ≤ i → p i :=
  ⟨fun h i a b => h i b (by omega), fun h i a b => h i (by omega) a⟩
theorem betweenLt {p : Nat → Prop} {n : Nat} : (∀ i, 1 ≤ i → i < n → p i) ↔ ∀ i, i < n → 1 ≤ i → p i :=
  ⟨fun h i a b => h i b a, fun h i a b => h i b a⟩

theorem copy_wf (s : State) (h : s.store.copy.all Memory.wf = true) : ∀ m, s.store.copy = some m → m.wf = true := by
  intro m hm
  simpa [hm] using h

/-! ## The hypotheses of the statements are met -/

/-- The hypothesis of the second clause of `StepRunsTheFrontCommand` is met. -/
theorem witness_StepRunsTheFrontCommand : ready.pending = [] := by decide

/-- The hypothesis of the last clause of `EveryCommandCompletesAndLeavesTheQueue` is met. -/
theorem witness_EveryCommandCompletesAndLeavesTheQueue : ready.rev.wrote = [] := by decide

/-- Side A's hose 1 is about to be lifted. -/
def aboutToLift : State := { ready with pending := [.hoseLift .a .h1] }

/-- The hypotheses of `DataLawKeptByEveryStep` are met. -/
theorem witness_DataLawKeptByEveryStep : aboutToLift.DataLaw ∧ step aboutToLift = .next (after (.hoseLift .a .h1) ready) := by
  refine ⟨⟨?_, ?_, ?_⟩, rfl⟩
  · simp only [portLaw_iff]
    decide +kernel
  · simp only [channelLaw_iff, all_meter, all_product]
    decide +kernel
  · exact copy_wf _ (by decide +kernel)

/-- The hypotheses of `DriveLawKeptByEveryStep` are met. -/
theorem witness_DriveLawKeptByEveryStep :
    ({ selling .fueling with pending := [.hoseHang .a .h1] } : State).DriveLaw
    ∧ step { selling .fueling with pending := [.hoseHang .a .h1] } = .next (after (.hoseHang .a .h1) (selling .fueling)) := by
  refine ⟨?_, rfl⟩
  simp only [driveLaw_iff, all_side, all_meter, all_product]
  and_intros <;> decide +kernel

/-- Mains is absent. -/
def unpowered : State := { ready with pw := Power.lost, rtc := 4294967295 }

/-- The hypotheses of `NothingElseActsWithoutMains` are met. -/
theorem witness_NothingElseActsWithoutMains :
    unpowered.pw.mains = false ∧ Instr.stop ≠ .rtcSecond ∧ Instr.stop ≠ .retentionSupplyLow ∧ ∀ w, Instr.stop ≠ .mainsReturn w := by
  decide

/-- Slot 15 was taken under take number 65,535 at second 1000; it is now second 67,535. -/
def taken : State :=
  { ready with rtc := 67535, mem := Memory.writeAll [] (slotAddr 15) [2, 0, 1, 1], port := { ready.port with takes := List.replicate 16 65535 } }
def refOf (slot take : Nat) : OrderRef := ⟨slot, take, 1000⟩

/-- The hypotheses of `CompletionIsWrittenOrDiscarded` are met, clause by clause. -/
theorem witness_CompletionIsWrittenOrDiscarded :
    (∃ s : State, (s.slotState (refOf 0 0).slot ≠ 2 ∨ s.takeNumber (refOf 0 0).slot ≠ (refOf 0 0).take))
    ∧ (∃ s : State, (s.slotState (refOf 15 65534).slot ≠ 2 ∨ s.takeNumber (refOf 15 65534).slot ≠ (refOf 15 65534).take))
    ∧ (∃ s : State, s.slotState (refOf 15 65535).slot = 2 ∧ s.takeNumber (refOf 15 65535).slot = (refOf 15 65535).take ∧ s.mem.wf = true) := by
  refine ⟨⟨ready, ?_⟩, ⟨taken, ?_⟩, ⟨taken, ?_⟩⟩
  all_goals and_intros
  all_goals first | exact good rfl | decide +kernel

/-- AUTHORIZE from the console at LEVEL_1, every grade, a VOLUME preset of 20 litres. -/
def authorizingIn (s : State) (mask : Byte) : State := posted s 0 .authorize 1 [1, 1, mask, 1, 0, 0, 0x07, 0xD0]
def authorizing : State := authorizingIn ready 0x1F
/-- AUTHORIZE without a preset: its value is not read. -/
def presetless : State := posted ready 0 .authorize 1 [1, 1, 0x1F, 0, 0, 0, 0, 0]
/-- AUTHORIZE for side B with an AMOUNT preset of 1,000,000. -/
def clamping : State := posted ready 15 .authorize 2 [1, 2, 0x02, 2, 0x00, 0x0F, 0x42, 0x40]
def plainBody : AuthBody := ⟨.console, .level1, maskOf 0x1F, .volume, 2000⟩
def hoseOneBody : AuthBody := { plainBody with mask := maskOf 0x0F }
def presetlessBody : AuthBody := ⟨.console, .level1, maskOf 0x1F, .none, (Config.unreadPreset 0).toNat⟩
/-- Side A is CALLING, this hose having called; the hoses given are lifted. -/
def callingWith (h : Hose) (lift1 lift2 : Timer) : State :=
  withFp ready .a (fun f => { f with state := .calling, calling := some h, lift1 := lift1.map (BitVec.ofNat 32), lift2 := lift2.map (BitVec.ofNat 32) })
def clampBody : AuthBody := ⟨.console, .level2, maskOf 2, .amount, 1000000⟩
def fullList (s : State) : State := withSide s .a (fun r => { r with list := List.replicate 3 (openSale .a) })
def halted (s : State) : State := withPw s (fun p => { p with state := .halted })
def authorized (s : State) : State :=
  withFp s .a (fun f => { f with
    state := .authorized, expiry := some 120000, auth := some ⟨.console, .level1, maskOf 0x13, .none, 0, false, 990⟩ })
def locked (s : State) : State :=
  withSide (withFp s .a (fun f => { f with state := .locked })) .a (fun r => { r with locked := true, lockCause := some .overrun })

/-- The hypotheses of `AuthorizeTestsThenGrants` are met, clause by clause. -/
theorem witness_AuthorizeTestsThenGrants :
    (∃ s : State, s.Offers .authorize 0 (sideCode .a) ∧ s.pw.state = .active ∧ (s.ret.sides.get .a).list.length < 3 ∧
      s.authBody 0 = Except.ok plainBody ∧ (plainBody.origin = .reader → (s.rdr.get .a).state = .ready) ∧
      maskCode (s.liveMask .a plainBody.mask) ≠ 0 ∧ (plainBody.kind = .none ∨ 100 ≤ plainBody.preset) ∧ s.fpState .a = .idle)
    ∧ (∃ s : State, s.Offers .authorize 15 (sideCode .b) ∧ s.pw.state = .active ∧ (s.ret.sides.get .b).list.length < 3 ∧
      s.authBody 15 = Except.ok clampBody ∧ (clampBody.origin = .reader → (s.rdr.get .b).state = .ready) ∧
      maskCode (s.liveMask .b clampBody.mask) ≠ 0 ∧ (clampBody.kind = .none ∨ 100 ≤ clampBody.preset) ∧ s.fpState .b = .idle)
    ∧ (∃ s : State, s.Offers .authorize 0 (sideCode .a) ∧ s.pw.state = .active ∧ (s.ret.sides.get .a).list.length < 3 ∧
      s.authBody 0 = Except.ok plainBody ∧ (plainBody.origin = .reader → (s.rdr.get .a).state = .ready) ∧
      maskCode (s.liveMask .a plainBody.mask) ≠ 0 ∧ (plainBody.kind = .none ∨ 100 ≤ plainBody.preset) ∧ s.fpState .a = .calling ∧ (s.fp.get .a).calling = some .h1 ∧
      HoseMeets (s.liveMask .a plainBody.mask) .h1 ∧ (s.disp.lines.get .a).order = none)
    ∧ (∃ s : State, s.Offers .authorize 0 (sideCode .a) ∧ s.pw.state = .active ∧ (s.ret.sides.get .a).list.length < 3 ∧
      s.authBody 0 = Except.ok hoseOneBody ∧ (hoseOneBody.origin = .reader → (s.rdr.get .a).state = .ready) ∧
      maskCode (s.liveMask .a hoseOneBody.mask) ≠ 0 ∧ (hoseOneBody.kind = .none ∨ 100 ≤ hoseOneBody.preset) ∧ s.fpState .a = .calling ∧ (s.fp.get .a).calling = some .h2 ∧
      ¬ HoseMeets (s.liveMask .a hoseOneBody.mask) .h2 ∧ ((s.fp.get .a).lift .h1).isSome = true ∧
      HoseMeets (s.liveMask .a hoseOneBody.mask) .h1 ∧ (s.disp.lines.get .a).order = none)
    ∧ (∃ s : State, s.Offers .authorize 0 (sideCode .a) ∧ s.pw.state = .active ∧ (s.ret.sides.get .a).list.length < 3 ∧
      s.authBody 0 = Except.ok hoseOneBody ∧ (hoseOneBody.origin = .reader → (s.rdr.get .a).state = .ready) ∧
      maskCode (s.liveMask .a hoseOneBody.mask) ≠ 0 ∧ (hoseOneBody.kind = .none ∨ 100 ≤ hoseOneBody.preset) ∧ s.fpState .a = .calling ∧ (s.fp.get .a).calling = some .h2 ∧
      ¬ HoseMeets (s.liveMask .a hoseOneBody.mask) .h2 ∧ ¬ (((s.fp.get .a).lift .h1).isSome = true ∧
      HoseMeets (s.liveMask .a hoseOneBody.mask) .h1))
    ∧ (∃ s : State, s.Offers .authorize 0 (sideCode .a) ∧ s.authBody 0 = Except.ok plainBody ∧ s.pw.state = .halted)
    ∧ (∃ s : State, s.Offers .authorize 0 (sideCode .a) ∧ s.authBody 0 = Except.ok plainBody ∧ s.pw.state = .active ∧ s.fpState .a = .locked)
    ∧ (∃ s : State, s.Offers .authorize 0 (sideCode .a) ∧ s.authBody 0 = Except.ok plainBody ∧ 260 = 256 + (s.fpState .a).code ∧
      s.pw.state = .active ∧ s.fpState .a ≠ .locked ∧ s.fpState .a ≠ .unavailable ∧ s.fpState .a ≠ .idle ∧ s.fpState .a ≠ .calling)
    ∧ (∃ s : State, s.Offers .authorize 0 (sideCode .a) ∧ s.authBody 0 = Except.ok plainBody ∧ s.pw.state = .active ∧
      (s.fpState .a = .idle ∨ s.fpState .a = .calling) ∧ (s.ret.sides.get .a).list.length = 3) := by
  refine ⟨⟨authorizing, ?_⟩, ⟨clamping, ?_⟩, ⟨authorizingIn (callingWith .h1 (some 999) none) 0x1F, ?_⟩,
    ⟨authorizingIn (callingWith .h2 (some 999) (some 998)) 0x0F, ?_⟩, ⟨authorizingIn (callingWith .h2 none (some 998)) 0x0F, ?_⟩,
    ⟨halted authorizing, ?_⟩, ⟨locked authorizing, ?_⟩, ⟨authorized authorizing, ?_⟩, ⟨fullList authorizing, ?_⟩⟩
  all_goals try simp only [offers_iff, portLaw_iff, steady_iff, HoseMeets]
  all_goals and_intros
  all_goals first | exact good rfl | decide +kernel

theorem presetless_body : presetless.authBody 0 = .ok presetlessBody := by
  have origin : originOf (presetless.bodyField 0 0 1) = some .console := by decide +kernel
  have level : levelOf (presetless.bodyField 0 1 1) = some .level1 := by decide +kernel
  have kind : presetKindOf (presetless.bodyField 0 3 1) = some .none := by decide +kernel
  have mask : maskOf (presetless.bodyField 0 2 1) = maskOf 0x1F := by decide +kernel
  have free : presetless.free = 0 := by decide
  simp only [State.authBody, origin, level, kind, mask, free, presetlessBody, ↓reduceIte]

/-- The hypotheses of the first clause of `AuthorizeTestsThenGrants` are met without a preset. -/
theorem witness_AuthorizeTestsThenGrants_presetless :
    ∃ s : State, s.Offers .authorize 0 (sideCode .a) ∧ s.pw.state = .active ∧ (s.ret.sides.get .a).list.length < 3 ∧
      s.authBody 0 = Except.ok presetlessBody ∧ (presetlessBody.origin = .reader → (s.rdr.get .a).state = .ready) ∧
      maskCode (s.liveMask .a presetlessBody.mask) ≠ 0 ∧ (presetlessBody.kind = .none ∨ 100 ≤ presetlessBody.preset) ∧ s.fpState .a = .idle := by
  refine ⟨presetless, ?_⟩
  all_goals try simp only [offers_iff, portLaw_iff, steady_iff]
  all_goals and_intros
  all_goals first | exact good rfl | decide +kernel | exact presetless_body

/-- A message of side A is in flight. -/
def messaged (s : State) : State :=
  withDisp s (fun x => { x with lines := x.lines.set .a ⟨List.replicate 16 0x41, some ⟨7, 1, 980⟩, 5, none⟩ })
def withBody (s : State) (body : List Byte) : State := posted s 0 .authorize 1 body
def readerBody : AuthBody := { plainBody with origin := .reader }
def maskedBody : AuthBody := { plainBody with mask := maskOf 0x08 }
def lowBody : AuthBody := { plainBody with preset := 99 }
def unavailable (s : State) : State := withFp s .a (fun f => { f with state := .unavailable })

/-- The hypotheses of the other clauses of `AuthorizeTestsThenGrants` are met: a message in flight, the tests of R9 and a field out of range. -/
theorem witness_AuthorizeTestsThenGrants_tests :
    (∃ s : State, s.Offers .authorize 0 (sideCode .a) ∧ s.pw.state = .active ∧ (s.ret.sides.get .a).list.length < 3 ∧
      s.authBody 0 = Except.ok plainBody ∧ (plainBody.origin = .reader → (s.rdr.get .a).state = .ready) ∧
      maskCode (s.liveMask .a plainBody.mask) ≠ 0 ∧ (plainBody.kind = .none ∨ 100 ≤ plainBody.preset) ∧ s.fpState .a = .calling ∧
      (s.fp.get .a).calling = some .h2 ∧ HoseMeets (s.liveMask .a plainBody.mask) .h2 ∧ (s.disp.lines.get .a).order = some ⟨7, 1, 980⟩)
    ∧ (∃ s : State, s.Offers .authorize 0 (sideCode .a) ∧ s.authBody 0 = Except.ok plainBody ∧ s.pw.state = .active ∧
      s.fpState .a = .unavailable ∧ s.meets .a .display = false)
    ∧ (∃ s : State, s.Offers .authorize 0 (sideCode .a) ∧ s.authBody 0 = Except.ok plainBody ∧ s.pw.state = .active ∧
      s.fpState .a = .unavailable ∧ s.meets .a .display = true ∧ s.meets .a .metrology = false)
    ∧ (∃ s : State, s.Offers .authorize 0 (sideCode .a) ∧ s.authBody 0 = Except.ok plainBody ∧ s.pw.state = .active ∧
      s.fpState .a = .unavailable ∧ s.meets .a .display = true ∧ s.meets .a .metrology = true ∧ s.meets .a .noPrices = false)
    ∧ (∃ s : State, s.Offers .authorize 0 (sideCode .a) ∧ s.authBody 0 = Except.ok readerBody ∧ s.pw.state = .active ∧
      (s.fpState .a = .idle ∨ s.fpState .a = .calling) ∧ (s.ret.sides.get .a).list.length < 3 ∧ readerBody.origin = .reader ∧
      (s.rdr.get .a).state = .warming)
    ∧ (∃ s : State, s.Offers .authorize 0 (sideCode .a) ∧ s.authBody 0 = Except.ok maskedBody ∧ s.pw.state = .active ∧
      (s.fpState .a = .idle ∨ s.fpState .a = .calling) ∧ (s.ret.sides.get .a).list.length < 3 ∧
      (maskedBody.origin = .reader → (s.rdr.get .a).state = .ready) ∧ maskCode (s.liveMask .a maskedBody.mask) = 0)
    ∧ (∃ s : State, s.Offers .authorize 0 (sideCode .a) ∧ s.authBody 0 = Except.ok lowBody ∧ s.pw.state = .active ∧
      (s.fpState .a = .idle ∨ s.fpState .a = .calling) ∧ (s.ret.sides.get .a).list.length < 3 ∧
      (lowBody.origin = .reader → (s.rdr.get .a).state = .ready) ∧ maskCode (s.liveMask .a lowBody.mask) ≠ 0 ∧ lowBody.kind ≠ .none ∧
      lowBody.preset < 100)
    ∧ (∃ s : State, s.Offers .authorize 0 (sideCode .a) ∧ s.bodyField 0 0 1 = 3 ∧ s.bodyField 0 1 1 = 2 ∧ s.bodyField 0 3 1 = 2)
    ∧ (∃ s : State, s.Offers .authorize 0 (sideCode .a) ∧ s.bodyField 0 0 1 = 2 ∧ s.bodyField 0 1 1 = 0 ∧ s.bodyField 0 3 1 = 0)
    ∧ (∃ s : State, s.Offers .authorize 0 (sideCode .a) ∧ s.bodyField 0 0 1 = 1 ∧ s.bodyField 0 1 1 = 1 ∧ s.bodyField 0 3 1 = 3) := by
  refine ⟨⟨messaged (authorizingIn (callingWith .h2 (some 999) (some 998)) 0x1F), ?_⟩,
    ⟨withHead (unavailable authorizing) .saleA (fun x => { x with state := .failed }), ?_⟩,
    ⟨withStore (unavailable authorizing) (fun x => { x with absent := true }), ?_⟩,
    ⟨{ unavailable authorizing with ret := { ready.ret with appliedArea := ⟨⟨false, prices⟩, ⟨false, prices⟩⟩ } }, ?_⟩,
    ⟨withRdr (withBody ready [2, 1, 0x1F, 1, 0, 0, 0x07, 0xD0]) .a (fun r => { r with state := .warming }), ?_⟩,
    ⟨withBody ready [1, 1, 0x08, 1, 0, 0, 0x07, 0xD0], ?_⟩, ⟨withBody ready [1, 1, 0x1F, 1, 0, 0, 0, 99], ?_⟩,
    ⟨withBody ready [3, 2, 0x1F, 2, 0, 0, 0x07, 0xD0], ?_⟩, ⟨withBody ready [2, 0, 0x1F, 0, 0, 0, 0x07, 0xD0], ?_⟩,
    ⟨withBody ready [1, 1, 0x1F, 3, 0, 0, 0x07, 0xD0], ?_⟩⟩
  all_goals try simp only [offers_iff, portLaw_iff, steady_iff, HoseMeets]
  all_goals and_intros
  all_goals first | exact good rfl | decide +kernel

def deauthorizing : State := posted (authorized ready) 0 .deauthorize 1 []
def lifted (s : State) (h : Hose) : State := withFp s .a (fun f => f.setLift h (some 999))

/-- The hypotheses of `AnAuthorizationEnds` are met, clause by clause. -/
theorem witness_AnAuthorizationEnds :
    (∃ s : State, s.fpState .a = .authorized ∧ s.Offers .deauthorize 0 (sideCode .a) ∧ s.pw.state = .active)
    ∧ (∃ s : State, s.fpState .a = .authorized ∧ s.Offers .deauthorize 0 (sideCode .a) ∧ s.pw.state = .active)
    ∧ (∃ s : State, s.fpState .a = .authorized ∧ s.steady ∧ Option.isSome (s.fp.get .a).expiry = true) := by
  refine ⟨⟨deauthorizing, ?_⟩, ⟨lifted deauthorizing .h2, ?_⟩, ⟨authorized ready, ?_⟩⟩
  all_goals try simp only [offers_iff, portLaw_iff, steady_iff]
  all_goals and_intros
  all_goals first | exact good rfl | decide +kernel

def stopping (s : State) : State := posted s 3 .stop 1 []

/-- The hypotheses of `StopFollowsTheState` are met, clause by clause. -/
theorem witness_StopFollowsTheState :
    (∃ s : State, s.Offers .stop 3 (sideCode .a) ∧ s.pw.state = .halted)
    ∧ (∃ s : State, s.Offers .stop 3 (sideCode .a) ∧ s.pw.state = .active ∧ s.fpState .a = .settling)
    ∧ (∃ s : State, s.Offers .stop 3 (sideCode .a) ∧ s.pw.state = .active ∧ (s.fpState .a).inSale = false)
    ∧ (∃ s : State, s.Offers .stop 3 (sideCode .a) ∧ s.pw.state = .active ∧ (s.fpState .a).endable = true)
    ∧ (∃ s : State, s.Offers .stop 3 (sideCode .a) ∧ s.pw.state = .active ∧ (s.fpState .a).endable = true) := by
  refine ⟨⟨halted (stopping (selling .settling)), ?_⟩, ⟨stopping (selling .settling), ?_⟩, ⟨stopping ready, ?_⟩,
    ⟨stopping (selling .fueling), ?_⟩, ⟨stopping (selling .paused), ?_⟩⟩
  all_goals try simp only [offers_iff, portLaw_iff, steady_iff]
  all_goals and_intros
  all_goals first | exact good rfl | decide +kernel

/-- The hypotheses of `HangAndTimersEndASale` are met, clause by clause. -/
theorem witness_HangAndTimersEndASale :
    (∃ s : State, s.steady ∧ (s.fpState .a).endable = true ∧ ((s.fp.get .a).lift (s.sale .a).hose).isSome = true)
    ∧ (∃ s : State, s.steady ∧ s.fpState .a = .starting ∧ Option.isSome (s.fp.get .a).start = true)
    ∧ (∃ s : State, s.steady ∧ s.fpState .a = .fueling ∧ Option.isSome (s.fp.get .a).noFlow = true)
    ∧ (∃ s : State, s.steady ∧ s.fpState .a = .paused ∧ Option.isSome (s.fp.get .a).pause = true) := by
  refine ⟨⟨selling .fueling, ?_⟩, ⟨selling .starting, ?_⟩, ⟨selling .fueling, ?_⟩, ⟨selling .paused, ?_⟩⟩
  all_goals try simp only [steady_iff]
  all_goals and_intros
  all_goals first | exact good rfl | decide +kernel

def resuming (s : State) : State := posted s 0 .resume 1 []
/-- A paused sale whose zero frame is acknowledged: M1 runs, and M2 is in the state given. -/
def acknowledged (st : MotorState) : State :=
  let s := withFp (selling .paused) .a (fun f => { f with gate1 := true, gate2 := true })
  withMotor (withMotor s .p1 (fun r => { r with state := .running })) .p2 (fun r => { r with state := st })
def consoleAuth : AuthRecord := ⟨.console, .level1, maskOf 0x13, .none, 0, false, 990⟩
/-- A sale on a hose without a grade, the grade button's press given. -/
def ungraded (st : FpState) (h : Hose) (press : Option Grade) : State :=
  let s := withSide (selling st) .a (fun r => { r with sale := { r.sale with hose := h, grade := none, drawn := ⟨false, false, false⟩ } })
  withFp s .a (fun f => { f with
    auth := some consoleAuth, gate1 := false, button := press.map (fun g => ⟨g, 997⟩), pressTimer := press.map (fun _ => 30000) })

/-- The hypotheses of `PauseAndResumeMoveTheSale` are met, clause by clause. -/
theorem witness_PauseAndResumeMoveTheSale :
    (∃ s : State, s.Offers .pause 0 (sideCode .a) ∧ s.pw.state = .active ∧ (s.fpState .a = .starting ∨ s.fpState .a = .fueling))
    ∧ (∃ s : State, s.Offers .pause 0 (sideCode .a) ∧ s.pw.state = .active ∧ (s.fpState .a = .starting ∨ s.fpState .a = .fueling))
    ∧ (∃ s : State, s.Offers .resume 0 (sideCode .a) ∧ s.pw.state = .active ∧ s.fpState .a = .paused ∧ (s.sale .a).grade.isSome = true ∧
      (s.fp.get .a).gate2 = false)
    ∧ (∃ s : State, s.Offers .resume 0 (sideCode .a) ∧ s.pw.state = .active ∧ s.fpState .a = .paused ∧ (s.sale .a).grade.isSome = true ∧
      (s.sale .a).drawn.get .p2 = true ∧ ¬ ((s.motor .p2).state = .running ∨ (s.motor .p2).state = .runOn ∧ (s.motor .p2).demand = ⟨false, false⟩))
    ∧ (∃ s : State, s.Offers .resume 0 (sideCode .a) ∧ s.pw.state = .active ∧ s.fpState .a = .paused ∧ (s.sale .a).grade = some .g2 ∧
      (s.fp.get .a).gate1 = true ∧ (s.fp.get .a).gate2 = true ∧ (∀ m, (s.sale .a).drawn.get m = true → ((s.motor m).state = .running ∨ (s.motor m).state = .runOn ∧ (s.motor m).demand = ⟨false, false⟩)) ∧
      (s.sale .a).volume < (s.sale .a).closeTarget)
    ∧ (∃ s : State, s.Offers .resume 0 (sideCode .a) ∧ s.pw.state = .active ∧ s.fpState .a = .paused ∧ (s.sale .a).grade = none ∧
      (s.fp.get .a).gate2 = false ∧ (s.fp.get .a).auth = some consoleAuth ∧ ∀ g, ¬ s.offers .a .h1 consoleAuth g)
    ∧ (∃ s : State, s.Offers .resume 0 (sideCode .a) ∧ s.pw.state = .active ∧ s.fpState .a = .paused ∧ (s.sale .a).grade = none ∧ (s.sale .a).hose = .h1 ∧
      (s.fp.get .a).gate2 = false ∧ (s.fp.get .a).auth = some consoleAuth ∧ s.offers .a .h1 consoleAuth .g2 ∧ s.ret.applied.get .a = some prices)
    ∧ (∃ s : State, s.Offers .resume 0 (sideCode .a) ∧ s.pw.state = .active ∧ s.fpState .a = .paused ∧ (s.sale .a).grade = none ∧ (s.sale .a).hose = .h2 ∧
      (s.fp.get .a).gate2 = false ∧ (s.fp.get .a).auth = some consoleAuth ∧ s.offers .a .h2 consoleAuth .g5 ∧ s.ret.applied.get .a = some prices) := by
  refine ⟨⟨posted (selling .starting) 0 .pause 1 [], ?_⟩, ⟨posted (selling .fueling) 0 .pause 1 [], ?_⟩,
    ⟨resuming (selling .paused), ?_⟩, ⟨resuming (acknowledged .off), ?_⟩, ⟨resuming (acknowledged .runOn), ?_⟩,
    ⟨resuming (ungraded .paused .h1 none), ?_⟩, ⟨resuming (ungraded .paused .h1 (some .g2)), ?_⟩, ⟨resuming (ungraded .paused .h2 none), ?_⟩⟩
  all_goals try simp only [offers_iff, portLaw_iff, steady_iff, all_grade, all_product, State.offers]
  all_goals and_intros
  all_goals first | exact good rfl | decide +kernel

def sold (n : Nat) : Sale := { openSale .a with number := n, status := .completed }
/-- Side A's list holds the sales 1, 65,535 and 2. -/
def listed : State :=
  withSide ready .a (fun r => { r with list := [sold 1, sold 65535, sold 2] })

/-- The hypotheses of `SettleRemovesTheEntry` are met, clause by clause. -/
theorem witness_SettleRemovesTheEntry :
    (∃ s : State, s.Offers .settle 0 (sideCode .a) ∧ s.bodyField 0 0 2 = 0)
    ∧ (∃ s : State, s.Offers .settle 0 (sideCode .a) ∧ s.bodyField 0 0 2 ≠ 0 ∧ (∀ y ∈ (s.ret.sides.get .a).list, y.number ≠ s.bodyField 0 0 2))
    ∧ (∃ s : State, s.Offers .settle 0 (sideCode .a) ∧ s.bodyField 0 0 2 ≠ 0 ∧ (s.ret.sides.get .a).list = [sold 1] ++ [sold 65535, sold 2] ∧
      (∀ z ∈ [sold 1], z.number ≠ s.bodyField 0 0 2) ∧ (sold 65535).number = s.bodyField 0 0 2) := by
  refine ⟨⟨posted listed 0 .settle 1 [0, 0], ?_⟩, ⟨posted listed 0 .settle 1 [0, 3], ?_⟩, ⟨halted (posted listed 0 .settle 1 [0xFF, 0xFF]), ?_⟩⟩
  all_goals try simp only [offers_iff, portLaw_iff, steady_iff]
  all_goals and_intros
  all_goals first | exact good rfl | decide +kernel

def unlocking (s : State) : State := posted s 0 .clearLock 1 []

/-- The hypotheses of `ClearLockTestsThenUnlocks` are met, clause by clause. -/
theorem witness_ClearLockTestsThenUnlocks :
    (∃ s : State, s.Offers .clearLock 0 (sideCode .a) ∧ s.pw.state = .halted)
    ∧ (∃ s : State, s.Offers .clearLock 0 (sideCode .a) ∧ s.pw.state = .active ∧ s.fpState .a ≠ .locked)
    ∧ (∃ s : State, s.Offers .clearLock 0 (sideCode .a) ∧ s.pw.state = .active ∧ s.fpState .a = .locked ∧ ((s.fp.get .a).lift .h2).isSome = true ∧
      (s.fp.get .a).lift (otherHose .h2) = none)
    ∧ (∃ s : State, s.Offers .clearLock 0 (sideCode .a) ∧ s.pw.state = .active ∧ s.fpState .a = .locked ∧ (s.fp.get .a).lift1 = none ∧
      (s.fp.get .a).lift2 = none ∧ a3.side = .a ∧ Option.isSome (s.meter a3).quietUn = true ∧
      (∀ (p : Product), motorCode p < motorCode a3.product → (s.meter { side := .a, product := p }).quietUn = none))
    ∧ (∃ s : State, s.Offers .clearLock 0 (sideCode .a) ∧ s.pw.state = .active ∧ s.fpState .a = .locked ∧ (s.fp.get .a).lift1 = none ∧
      (s.fp.get .a).lift2 = none ∧ (∀ (p : Product), (s.meter { side := .a, product := p }).quietUn = none)) := by
  refine ⟨⟨halted (unlocking ready), ?_⟩, ⟨unlocking ready, ?_⟩, ⟨unlocking (lifted (locked ready) .h2), ?_⟩,
    ⟨unlocking (withMeter (locked ready) a3 (fun c => { c with quietUn := some 2000 })), ?_⟩, ⟨unlocking (locked ready), ?_⟩⟩
  all_goals try simp only [offers_iff, portLaw_iff, steady_iff, all_product]
  all_goals and_intros
  all_goals first | exact good rfl | decide +kernel

def calling : State := lifted (withFp ready .a (fun f => { f with state := .calling, calling := some .h2 })) .h2
def fueledUp : State := withFp ready .a (fun f => { f with state := .finished })

/-- An authorization for the grades of hose 1 alone. -/
def hoseOneAuth : AuthRecord := { consoleAuth with mask := maskOf 7 }
def underAuth (a : AuthRecord) (s : State) : State := withFp s .a (fun f => { f with auth := some a })

/-- The hypotheses of `HosesAndPressesAreRecorded` are met, clause by clause. -/
theorem witness_HosesAndPressesAreRecorded :
    (∃ s : State, s.steady ∧ (s.fp.get .a).lift .h1 = none ∧ s.fpState .a ≠ .authorized)
    ∧ (∃ s : State, s.steady ∧ (s.fp.get .a).lift .h2 = none ∧ s.fpState .a ≠ .authorized)
    ∧ (∃ s : State, s.steady ∧ ((s.fp.get .a).lift .h2).isSome = true ∧ s.fpState .a = .calling ∧ (s.fpState .a).endable = false ∧
      (s.fp.get .a).lift (otherHose .h2) = none)
    ∧ (∃ s : State, s.steady ∧ (s.fp.get .a).lift .h1 = none ∧ s.fpState .a = .authorized ∧ s.pw.state = .active ∧
      (s.fp.get .a).auth = some consoleAuth ∧ HoseMeets consoleAuth.mask .h1 ∧
      ∀ g, ¬ s.offers .a .h1 consoleAuth g)
    ∧ (∃ s : State, s.steady ∧ (s.fp.get .a).lift .h2 = none ∧ s.fpState .a = .authorized ∧ s.pw.state = .active ∧
      (s.fp.get .a).auth = some consoleAuth ∧ HoseMeets consoleAuth.mask .h2 ∧
      s.offers .a .h2 consoleAuth .g5 ∧ s.ret.applied.get .a = some prices)
    ∧ (∃ s : State, s.steady ∧ (s.fp.get .a).lift .h2 = none ∧ s.fpState .a = .authorized ∧ s.pw.state = .active ∧
      (s.fp.get .a).auth = some hoseOneAuth ∧ ¬ HoseMeets hoseOneAuth.mask .h2)
    ∧ (∃ s : State, s.steady ∧ Grade.g1 ≠ Grade.g5 ∧
      (s.gradeEnabled .a .g1 && !s.faultIn (s.gradeProducts .a .g1) && match (s.fp.get .a).auth with | some a => a.mask.get .g1 | none => true) = true ∧
      (s.fpState .a).inSale = false)
    ∧ (∃ s : State, s.steady ∧ Grade.g2 ≠ Grade.g5 ∧
      (s.gradeEnabled .a .g2 && !s.faultIn (s.gradeProducts .a .g2) && match (s.fp.get .a).auth with | some a => a.mask.get .g2 | none => true) = true ∧
      (s.fpState .a).inSale = false)
    ∧ (∃ s : State, s.steady ∧ Grade.g1 ≠ Grade.g5 ∧
      (s.gradeEnabled .a Grade.g1 && !s.faultIn (s.gradeProducts .a Grade.g1) && match (s.fp.get .a).auth with | some a => a.mask.get Grade.g1 | none => true) = true ∧
      s.fpState .a = .starting ∧ s.pw.state = .active ∧ (s.sale .a).grade = none ∧ (s.fp.get .a).gate2 = false ∧
      (s.fp.get .a).auth = some consoleAuth ∧ (s.sale .a).hose = .h1 ∧
      s.ret.applied.get .a = some prices)
    ∧ (∃ s : State, s.steady ∧ Grade.g1 ≠ Grade.g5 ∧
      (s.gradeEnabled .a Grade.g1 && !s.faultIn (s.gradeProducts .a Grade.g1) && match (s.fp.get .a).auth with | some a => a.mask.get Grade.g1 | none => true) = true ∧
      s.fpState .a = .starting ∧ s.pw.state = .active ∧ (s.sale .a).grade = none ∧ (s.fp.get .a).gate2 = false ∧
      (s.fp.get .a).auth = some hoseOneAuth ∧ (s.sale .a).hose = .h2 ∧
      ¬ s.offers .a .h2 hoseOneAuth .g5)
    ∧ (∃ s : State, s.steady ∧ Grade.g3 ≠ Grade.g5 ∧
      ((s.gradeEnabled .a Grade.g3 && !s.faultIn (s.gradeProducts .a Grade.g3) && match (s.fp.get .a).auth with | some a => a.mask.get Grade.g3 | none => true) =
        false ∨ s.fpState .a = .fueling ∨ s.fpState .a = .paused ∨ s.fpState .a = .settling ∨ s.fpState .a = .starting ∧ (s.sale .a).grade.isSome =
        true))
    ∧ (∃ s : State, s.steady ∧ Grade.g1 ≠ Grade.g5 ∧
      ((s.gradeEnabled .a Grade.g1 && !s.faultIn (s.gradeProducts .a Grade.g1) && match (s.fp.get .a).auth with | some a => a.mask.get Grade.g1 | none => true) =
        false ∨ s.fpState .a = .fueling ∨ s.fpState .a = .paused ∨ s.fpState .a = .settling ∨ s.fpState .a = .starting ∧ (s.sale .a).grade.isSome =
        true))
    ∧ (∃ s : State, s.steady ∧ Grade.g4 ≠ Grade.g5) := by
  refine ⟨⟨ready, ?_⟩, ⟨fueledUp, ?_⟩, ⟨calling, ?_⟩, ⟨authorized ready, ?_⟩, ⟨authorized ready, ?_⟩, ⟨underAuth hoseOneAuth (authorized ready), ?_⟩,
    ⟨ready, ?_⟩, ⟨authorized ready, ?_⟩, ⟨ungraded .starting .h1 none, ?_⟩, ⟨underAuth hoseOneAuth (ungraded .starting .h2 none), ?_⟩,
    ⟨authorized ready, ?_⟩, ⟨selling .starting, ?_⟩, ⟨ready, ?_⟩⟩
  all_goals try simp only [steady_iff, all_grade, HoseMeets, State.offers]
  all_goals and_intros
  all_goals first | exact good rfl | decide +kernel

/-- The hypotheses of the hang clause of `HosesAndPressesAreRecorded` are met where a hose stays lifted, in FINISHED and beside a sale, and those
of its lift clause with a message in flight. -/
theorem witness_HosesAndPressesAreRecorded_hangs :
    (∃ s : State, s.steady ∧ ((s.fp.get .a).lift .h1).isSome = true ∧ s.fpState .a = .calling ∧ (s.fpState .a).endable = false ∧
      ((s.fp.get .a).lift (otherHose .h1)).isSome = true)
    ∧ (∃ s : State, s.steady ∧ ((s.fp.get .a).lift .h1).isSome = true ∧ s.fpState .a = .finished ∧ (s.fpState .a).endable = false ∧
      (s.sale .a).hose = .h1 ∧ ((s.fp.get .a).lift (otherHose .h1)).isSome = true)
    ∧ (∃ s : State, s.steady ∧ ((s.fp.get .a).lift .h2).isSome = true ∧ s.fpState .a = .finished ∧ (s.fpState .a).endable = false ∧
      (s.fp.get .a).lift (otherHose .h2) = none)
    ∧ (∃ s : State, s.steady ∧ ((s.fp.get .a).lift .h2).isSome = true ∧ s.fpState .a = .fueling ∧ (s.sale .a).hose ≠ .h2)
    ∧ (∃ s : State, s.steady ∧ (s.fp.get .a).lift .h2 = none ∧ s.fpState .a = .authorized ∧ s.pw.state = .active ∧
      (s.fp.get .a).auth = some consoleAuth ∧ HoseMeets consoleAuth.mask .h2 ∧ (s.disp.lines.get .a).order = some ⟨7, 1, 980⟩) := by
  refine ⟨⟨lifted (lifted calling .h2) .h1, ?_⟩, ⟨lifted (lifted fueledUp .h2) .h1, ?_⟩, ⟨lifted fueledUp .h2, ?_⟩,
    ⟨lifted (selling .fueling) .h2, ?_⟩, ⟨messaged (authorized ready), ?_⟩⟩
  all_goals try simp only [steady_iff, HoseMeets]
  all_goals and_intros
  all_goals first | exact good rfl | decide +kernel

def ending (c : Cause) (s : State) : State := withSide s .a (fun r => { r with sale := { r.sale with endCause := some c } })
/-- A price set pending with the marks of the sides that have applied it. -/
def pendingIn (marks : Sides Bool) : PendingSet := ⟨{ prices with version := 8 }, marks⟩
def pendingFor (s : State) (marks : Sides Bool) : State := 
  { s with ret := { s.ret with pendingArea := ⟨true, (pendingIn marks).prices⟩, marks := marks } }

/-- The hypotheses of `SettleTimerCompletesTheSale` are met, clause by clause. -/
theorem witness_SettleTimerCompletesTheSale :
    (∃ s : State, s.steady ∧ s.fpState .a = .settling ∧ Option.isSome (s.fp.get .a).settle = true ∧ (s.sale .a).endCause = some .nozzleHung ∧ s.ret.pendingSet = none)
    ∧ (∃ s : State, s.steady ∧ s.fpState .a = .settling ∧ Option.isSome (s.fp.get .a).settle = true ∧ (s.sale .a).endCause = some .nozzleHung ∧ s.ret.pendingSet = none)
    ∧ (∃ s : State, s.steady ∧ s.fpState .a = .settling ∧ Option.isSome (s.fp.get .a).settle = true ∧ (s.sale .a).endCause = some .nozzleHung ∧ s.ret.pendingSet = none)
    ∧ (∃ s : State, s.steady ∧ s.fpState .a = .settling ∧ Option.isSome (s.fp.get .a).settle = true ∧ (s.sale .a).endCause = some .unauthFlow ∧ s.ret.pendingSet = none)
    ∧ (∃ s : State, s.steady ∧ s.fpState .a = .settling ∧ Option.isSome (s.fp.get .a).settle = true ∧ (s.sale .a).endCause = some .nozzleHung ∧
      s.ret.pendingSet = some (pendingIn ⟨true, false⟩) ∧
      ((pendingIn ⟨true, false⟩).marks.get .a = true ∨ s.pw.state ≠ .active) ∧
      ((pendingIn ⟨true, false⟩).marks.a && (pendingIn ⟨true, false⟩).marks.b) = false)
    ∧ (∃ s : State, s.steady ∧ s.fpState .a = .settling ∧ Option.isSome (s.fp.get .a).settle = true ∧ (s.sale .a).endCause = some .nozzleHung ∧
      s.ret.pendingSet = some (pendingIn ⟨false, false⟩) ∧ (pendingIn ⟨false, false⟩).marks.get .a = false ∧ s.pw.state = .active ∧
      (s.ret.applied.get .a).isSome = true)
    ∧ (∃ s : State, s.steady ∧ s.fpState .a = .settling ∧ Option.isSome (s.fp.get .a).settle = true ∧ (s.sale .a).endCause = some .nozzleHung ∧
      s.ret.pendingSet = some (pendingIn ⟨false, true⟩) ∧ (pendingIn ⟨false, true⟩).marks.get .a = false ∧ s.pw.state = .active ∧
      (s.ret.applied.get .a).isSome = true) := by
  refine ⟨⟨ending .nozzleHung (selling .settling), ?_⟩,
    ⟨withFp (withSide (ending .nozzleHung (selling .settling)) .a (fun r => { r with counter := 65535 })) .a (fun f => { f with
      lift1 := none, lift2 := some 5 }), ?_⟩,
    ⟨halted (withSide (ending .nozzleHung (selling .settling)) .a (fun r => { r with sale := { r.sale with volume := 0 } })), ?_⟩,
    ⟨ending .unauthFlow (selling .settling), ?_⟩, ⟨pendingFor (ending .nozzleHung (selling .settling)) ⟨true, false⟩, ?_⟩,
    ⟨pendingFor (ending .nozzleHung (selling .settling)) ⟨false, false⟩, ?_⟩, ⟨pendingFor (ending .nozzleHung (selling .settling)) ⟨false, true⟩, ?_⟩⟩
  all_goals try simp only [steady_iff]
  all_goals and_intros
  all_goals first | exact good rfl | decide +kernel

/-- The body of PRICE_SET: version 65,535 and ten prices. -/
def priceBody (first last : Nat) : List Byte :=
  [0xFF, 0xFF, 0, 0] ++ bytesBE 4 first ++ (List.replicate 8 (bytesBE 4 1859)).flatten ++ bytesBE 4 last
def pricing (s : State) (first last : Nat) : State := posted s 0 .priceSet 0 (priceBody first last)
/-- A sale is open on both sides. -/
def bothSelling : State :=
  let s := selling .fueling
  let s := withSide s .b (fun r => { r with sale := { openSale .b with grade := some .g5, drawn := ⟨false, false, true⟩ } })
  withMotor (withFp s .b (fun f => { f with state := .fueling, lift2 := some 900, noFlow := some 60000 })) .p3
    (fun r => { r with state := .running, demand := ⟨false, true⟩ })

/-- The hypotheses of `PriceSetIsAppliedOrWaits` are met, clause by clause. -/
theorem witness_PriceSetIsAppliedOrWaits :
    (∃ s : State, s.Offers .priceSet 0 0 ∧ s.pw.state = .active ∧ s.ret.pendingSet = none ∧ s.bodyField 0 0 2 ≠ 0 ∧
      (∀ (i : ℕ), 1 ≤ i → i ≤ 10 → 1 ≤ s.bodyPrice 0 i ∧ s.bodyPrice 0 i ≤ 99999) ∧ (∀ (d : Side), s.fpState d ≠ .unavailable) ∧
      (∀ (d : Side), s.meets d Prereq.display = true ∧ s.meets d Prereq.metrology = true) ∧ (∀ (d : Side), s.inSale d = false))
    ∧ (∃ s : State, s.Offers .priceSet 0 0 ∧ s.pw.state = .active ∧ s.ret.pendingSet = none ∧ s.bodyField 0 0 2 ≠ 0 ∧
      (∀ (i : ℕ), 1 ≤ i → i ≤ 10 → 1 ≤ s.bodyPrice 0 i ∧ s.bodyPrice 0 i ≤ 99999) ∧ (∀ (d : Side), s.fpState d ≠ .unavailable) ∧
      (∀ (d : Side), s.meets d Prereq.display = true ∧ s.meets d Prereq.metrology = true) ∧ (∀ (d : Side), s.inSale d = true))
    ∧ (∃ s : State, s.Offers .priceSet 0 0 ∧ s.pw.state = .active ∧ s.ret.pendingSet = none ∧ (s.bodyField 0 0 2 = 0 ∧ 0 = 0))
    ∧ (∃ s : State, s.Offers .priceSet 0 0 ∧ s.pw.state = .active ∧ s.ret.pendingSet = none ∧ s.bodyField 0 0 2 ≠ 0 ∧ 1 ≤ 10 ∧ 10 ≤ 10 ∧
      40 = 4 * 10 ∧ (s.bodyPrice 0 10 = 0 ∨ 99999 < s.bodyPrice 0 10) ∧ (∀ (j : ℕ), 1 ≤ j → j < 10 → 1 ≤ s.bodyPrice 0 j ∧ s.bodyPrice 0 j ≤ 99999))
    ∧ (∃ s : State, s.Offers .priceSet 0 0 ∧ s.pw.state = .active ∧ s.ret.pendingSet = none ∧ s.bodyField 0 0 2 ≠ 0 ∧ 1 ≤ 1 ∧ 1 ≤ 10 ∧ 4 = 4 * 1 ∧
      (s.bodyPrice 0 1 = 0 ∨ 99999 < s.bodyPrice 0 1) ∧ (∀ (j : ℕ), 1 ≤ j → j < 1 → 1 ≤ s.bodyPrice 0 j ∧ s.bodyPrice 0 j ≤ 99999)) := by
  refine ⟨⟨pricing ready 1 99999, ?_⟩, ⟨pricing bothSelling 1 99999, ?_⟩, ⟨posted ready 0 .priceSet 0 [0, 0], ?_⟩,
    ⟨pricing ready 1859 100000, ?_⟩, ⟨pricing ready 0 0, ?_⟩⟩
  all_goals try simp only [offers_iff, portLaw_iff, steady_iff, all_side, between, betweenLt]
  all_goals and_intros
  all_goals first | exact good rfl | decide +kernel

def supersedable (s : State) (marks : Sides Bool) : State := { pendingFor s marks with price := ⟨some ⟨7, 1, 980⟩⟩ }

/-- The hypotheses of the clause of `PriceSetIsAppliedOrWaits` on a side in sale are met: with one side in sale, and with a set pending. -/
theorem witness_PriceSetIsAppliedOrWaits_pending :
    (∃ s : State, s.Offers .priceSet 0 0 ∧ s.pw.state = .active ∧ s.bodyField 0 0 2 ≠ 0 ∧
      (∀ (i : ℕ), 1 ≤ i → i ≤ 10 → 1 ≤ s.bodyPrice 0 i ∧ s.bodyPrice 0 i ≤ 99999) ∧ (∀ (d : Side), s.fpState d ≠ .unavailable) ∧
      (∀ (d : Side), s.meets d Prereq.display = true ∧ s.meets d Prereq.metrology = true) ∧ s.inSale .a = true ∧ s.inSale .b = false ∧
      s.ret.pendingSet = none)
    ∧ (∃ s : State, s.Offers .priceSet 0 0 ∧ s.pw.state = .active ∧ s.bodyField 0 0 2 ≠ 0 ∧
      (∀ (i : ℕ), 1 ≤ i → i ≤ 10 → 1 ≤ s.bodyPrice 0 i ∧ s.bodyPrice 0 i ≤ 99999) ∧ (∀ (d : Side), s.fpState d ≠ .unavailable) ∧
      (∀ (d : Side), s.meets d Prereq.display = true ∧ s.meets d Prereq.metrology = true) ∧ s.inSale .a = true ∧ s.inSale .b = false ∧
      s.ret.pendingSet = some (pendingIn ⟨false, true⟩) ∧ s.price.order = some ⟨7, 1, 980⟩)
    ∧ (∃ s : State, s.Offers .priceSet 0 0 ∧ s.pw.state = .active ∧ s.bodyField 0 0 2 ≠ 0 ∧
      (∀ (i : ℕ), 1 ≤ i → i ≤ 10 → 1 ≤ s.bodyPrice 0 i ∧ s.bodyPrice 0 i ≤ 99999) ∧ (∀ (d : Side), s.fpState d ≠ .unavailable) ∧
      (∀ (d : Side), s.meets d Prereq.display = true ∧ s.meets d Prereq.metrology = true) ∧ s.inSale .b = true ∧ s.inSale .a = true ∧
      s.ret.pendingSet = some (pendingIn ⟨false, false⟩) ∧ s.price.order = some ⟨7, 1, 980⟩) := by
  refine ⟨⟨pricing (selling .fueling) 1 99999, ?_⟩, ⟨supersedable (pricing (selling .settling) 1 99999) ⟨false, true⟩, ?_⟩,
    ⟨supersedable (pricing bothSelling 99999 1) ⟨false, false⟩, ?_⟩⟩
  all_goals try simp only [offers_iff, portLaw_iff, steady_iff, all_side, between]
  all_goals and_intros
  all_goals first | exact good rfl | decide +kernel

def clearing (s : State) : State := posted s 0 .clearHalt 0 []
def bothLocked : State := locked (withSide (withFp (halted ready) .b (fun f => { f with state := .locked })) .b (fun r => { r with locked := true }))
def haltCode (s : State) : State := { s with halt := { s.halt with code := some .secondFault, halted := true } }

/-- The hypotheses of `ClearHaltTestsThenReturnsToActive` are met, clause by clause. -/
theorem witness_ClearHaltTestsThenReturnsToActive :
    (∃ s : State, s.Offers .clearHalt 0 0 ∧ s.pw.state = .active)
    ∧ (∃ s : State, s.Offers .clearHalt 0 0 ∧ s.pw.state = .halted ∧ s.fpState .a = .settling)
    ∧ (∃ s : State, s.Offers .clearHalt 0 0 ∧ s.pw.state = .halted ∧ s.fpState .a ≠ .settling ∧ s.fpState .b = .settling)
    ∧ (∃ s : State, s.Offers .clearHalt 0 0 ∧ s.pw.state = .halted ∧ (∀ (d : Side), s.fpState d ≠ .settling) ∧ s.halt.reload = true)
    ∧ (∃ s : State, s.Offers .clearHalt 0 0 ∧ s.pw.state = .halted ∧ (∀ (d : Side), s.fpState d ≠ .settling) ∧ s.halt.reload = false ∧
      Option.isSome (s.meter b3).quietAny = true ∧ (∀ (x : Meter), meterCode x < meterCode b3 → (s.meter x).quietAny = none))
    ∧ (∃ s : State, s.Offers .clearHalt 0 0 ∧ s.pw.state = .halted ∧ (∀ (d : Side), s.fpState d = .locked) ∧ s.halt.reload = false ∧
      (∀ (m : Meter), (s.meter m).quietAny = none) ∧ s.ret.pendingSet = none ∧ (∀ (m : Product), (s.motor m).demand = { a := false, b := false })) := by
  refine ⟨⟨clearing ready, ?_⟩, ⟨clearing (halted (selling .settling)), ?_⟩,
    ⟨clearing (withFp (halted ready) .b (fun f => { f with state := .settling })), ?_⟩,
    ⟨clearing { bothLocked with halt := { bothLocked.halt with reload := true } }, ?_⟩,
    ⟨clearing (withMeter bothLocked b3 (fun c => { c with quietAny := some 2000 })), ?_⟩, ⟨clearing (haltCode bothLocked), ?_⟩⟩
  all_goals try simp only [offers_iff, portLaw_iff, steady_iff, all_side, all_product, all_meter]
  all_goals and_intros
  all_goals first | exact good rfl | decide +kernel

def meterAt (position : Int) (s : State) : State := withMeter s a1 (fun c => { c with position := position })

/-- The hypotheses of `QuarterStepsAndPulsesAreDecoded` are met, clause by clause. -/
theorem witness_QuarterStepsAndPulsesAreDecoded :
    (∃ s : State, s.steady ∧ s.pw.decoding = true ∧
      ((if pairFlip (s.meter a1).phase .chA = pairAfter (s.meter a1).phase then (s.meter a1).position + 1 else (s.meter a1).position - 1) ≠ 4) ∧
      ((if pairFlip (s.meter a1).phase .chA = pairAfter (s.meter a1).phase then (s.meter a1).position + 1 else (s.meter a1).position - 1) ≠ -4))
    ∧ (∃ s : State, s.steady ∧ s.pw.decoding = true ∧
      ((if pairFlip (s.meter a1).phase .chB = pairAfter (s.meter a1).phase then (s.meter a1).position + 1 else (s.meter a1).position - 1) ≠ 4) ∧
      ((if pairFlip (s.meter a1).phase .chB = pairAfter (s.meter a1).phase then (s.meter a1).position + 1 else (s.meter a1).position - 1) ≠ -4))
    ∧ (∃ s : State, s.steady ∧ s.pw.decoding = true ∧
      (pairFlip (s.meter a1).phase (if pairFlip { chA := false, chB := false } MeterInput.chA = pairAfter { chA := false, chB := false } then .chA
        else .chB) = pairAfter (s.meter a1).phase) ∧
      (s.meter a1).position = 3)
    ∧ (∃ s : State, s.steady ∧ s.pw.decoding = true ∧
      (pairFlip (s.meter a1).phase (if pairFlip { chA := false, chB := false } MeterInput.chA = pairAfter { chA := false, chB := false } then .chB
        else .chA) ≠ pairAfter (s.meter a1).phase) ∧
      (s.meter a1).position = -3)
    ∧ (∃ s : State, s.steady ∧ s.pw.decoding = true ∧ (s.meter b3).pendingRev < 50)
    ∧ (∃ s : State, s.steady ∧ s.pw.decoding = true ∧ 0 < (s.meter b3).pendingRev)
    ∧ (∃ s : State, s.steady ∧ s.pw.decoding = true ∧ (s.meter a1).illegal < 3) := by
  refine ⟨⟨meterAt 2 ready, ?_⟩, ⟨meterAt (-2) ready, ?_⟩, ⟨meterAt 3 ready, ?_⟩, ⟨meterAt (-3) ready, ?_⟩,
    ⟨withMeter ready b3 (fun c => { c with pendingRev := 49 }), ?_⟩, ⟨withMeter ready b3 (fun c => { c with pendingRev := 1 }), ?_⟩,
    ⟨withMeter (selling .fueling) a1 (fun c => { c with illegal := 2 }), ?_⟩⟩
  all_goals try simp only [steady_iff]
  all_goals and_intros
  all_goals first | exact good rfl | decide +kernel

def tallied (n : Nat) : State := withMeter ready a3 (fun c => { c with tally := n })

/-- The hypotheses of `UnassignedPulsesAddAndLock` are met, clause by clause. -/
theorem witness_UnassignedPulsesAddAndLock :
    (∃ s : State, s.steady ∧ s.pw.decoding = true ∧ (s.meter a3).attr = .unassigned ∧ (s.meter a3).pendingRev = 0 ∧ (s.meter a3).k ≠ 0 ∧
      (s.meter a3).tally < 19 ∧ (s.fp.get a3.side).lockFlow = none)
    ∧ (∃ s : State, s.steady ∧ s.pw.decoding = true ∧ (s.meter a3).attr = .unassigned ∧ (s.meter a3).pendingRev = 0 ∧ (s.meter a3).k ≠ 0 ∧
      (s.meter a3).tally < 19 ∧ (s.fp.get a3.side).lockFlow = none)
    ∧ (∃ s : State, s.steady ∧ s.pw.decoding = true ∧ (s.meter a3).attr = .unassigned ∧ (s.meter a3).pendingRev = 0 ∧ (s.meter a3).k ≠ 0 ∧
      (s.meter a3).tally = 19 ∧ (s.fp.get a3.side).lockFlow = none ∧ s.pw.state ≠ .halted ∧ s.pw.state ≠ .powerFail ∧
      (s.fpState a3.side = .unavailable ∨ s.fpState a3.side = .idle ∨ s.fpState a3.side = .calling ∨ s.fpState a3.side = .finished) ∧
      s.fpState a3.side.other ≠ .locked ∧ s.fpState a3.side.other ≠ .settling) := by
  refine ⟨⟨tallied 18, ?_⟩, ⟨withMeter ready a3 (fun c => { c with k := 2000000 }), ?_⟩, ⟨tallied 19, ?_⟩⟩
  all_goals try simp only [steady_iff]
  all_goals and_intros
  all_goals first | exact good rfl | decide +kernel

/-- A sale of 9.99 litres, one millilitre short of 10.00, to be closed at a target. -/
def nearly (target : Nat) : State :=
  withSide (selling .fueling) .a (fun r => { r with sale := { r.sale with products := ⟨4999, 5000, 0⟩, volume := 999, closeTarget := target } })

/-- The rise of a meter's volume at the coming counted pulse, and the volume of its side's sale after it. -/
def riseOf (s : State) (m : Meter) : Nat :=
  ((s.meter m).saleAcc + (1000000 + (s.meter m).correction).toNat) % 2 ^ 64 / (s.meter m).k - (s.meter m).saleV
def volumeOf (s : State) (m : Meter) : Nat :=
  let p := (s.sale m.side).products.set m.product ((s.sale m.side).products.get m.product + riseOf s m)
  (p.p1 + p.p2 + p.p3) / 10

/-- The hypotheses of `SalePulsesMeterTheSale` are met, clause by clause. -/
theorem witness_SalePulsesMeterTheSale :
    (∃ s : State, s.steady ∧ s.pw.decoding = true ∧ (s.meter a1).attr = .sale ∧ (s.meter a1).pendingRev = 0 ∧ (s.meter a1).k ≠ 0 ∧
      s.fpState a1.side = .fueling ∧ (s.fp.get a1.side).base = none ∧ 0 < riseOf s a1 ∧ volumeOf s a1 ≠ (s.sale a1.side).volume ∧
      volumeOf s a1 < (s.sale a1.side).closeTarget)
    ∧ (∃ s : State, s.steady ∧ s.pw.decoding = true ∧ (s.meter a1).attr = .sale ∧ (s.meter a1).pendingRev = 0 ∧ (s.meter a1).k ≠ 0 ∧
      s.fpState a1.side = .fueling ∧ (s.fp.get a1.side).base = none ∧ 0 < riseOf s a1 ∧ volumeOf s a1 ≠ (s.sale a1.side).volume ∧
      volumeOf s a1 < (s.sale a1.side).closeTarget)
    ∧ (∃ s : State, s.steady ∧ s.pw.decoding = true ∧ (s.meter a1).attr = .sale ∧ (s.meter a1).pendingRev = 0 ∧ (s.meter a1).k ≠ 0 ∧
      s.fpState a1.side = .fueling ∧ (s.fp.get a1.side).base = none ∧ 0 < riseOf s a1 ∧ volumeOf s a1 ≠ (s.sale a1.side).volume ∧
      (s.sale a1.side).closeTarget ≤ volumeOf s a1) := by
  refine ⟨⟨nearly 5000, ?_⟩, ⟨nearly 1040, ?_⟩, ⟨nearly 1000, ?_⟩⟩
  all_goals try simp only [steady_iff]
  all_goals and_intros
  all_goals first | exact good rfl | decide +kernel

/-- A sale that stands one millilitre short of 10.00 litres with an overrun base, a limit of 20 cL and what has been reported of it. -/
def beyondBase (st : FpState) (base : Nat) (made : Bool) (c : Option Cause) : State :=
  let s := withSide (selling st) .a (fun r => { r with sale := { r.sale with products := ⟨4999, 5000, 0⟩, volume := 999, endCause := c } })
  withFp s .a (fun f => { f with base := some base, limit := 20, overrunMade := made })
def metered (s : State) (base : Nat) : Prop :=
  s.steady ∧ s.pw.decoding = true ∧ (s.meter a1).attr = .sale ∧ (s.meter a1).pendingRev = 0 ∧ (s.meter a1).k ≠ 0 ∧ 0 < riseOf s a1 ∧
    volumeOf s a1 ≠ (s.sale .a).volume ∧ (s.fp.get .a).base = some base
def passes (s : State) (base : Nat) : Prop := (s.fp.get .a).limit < volumeOf s a1 - base ∧ (s.fp.get .a).overrunMade = false
def floods (s : State) (base : Nat) : Prop := 2 * (s.fp.get .a).limit < volumeOf s a1 - base ∧ (s.fp.get .a).flowMade = false

/-- The hypotheses of the clauses of `SalePulsesMeterTheSale` on PAUSED and SETTLING are met, on both sides of each limit. -/
theorem witness_SalePulsesMeterTheSale_beyond :
    (∃ s : State, metered s 980 ∧ s.fpState .a = .paused ∧ ¬ passes s 980 ∧ ¬ floods s 980)
    ∧ (∃ s : State, metered s 959 ∧ s.fpState .a = .settling ∧ s.pw.state = .halted ∧ passes s 959)
    ∧ (∃ s : State, metered s 979 ∧ s.fpState .a = .paused ∧ passes s 979 ∧ ¬ floods s 979 ∧ s.pw.state = .active ∧
      s.fpState Side.a.other ≠ .locked ∧ s.fpState Side.a.other ≠ .settling)
    ∧ (∃ s : State, metered s 960 ∧ s.fpState .a = .settling ∧ passes s 960 ∧ ¬ floods s 960 ∧ s.pw.state = .active ∧
      (s.sale .a).endCause = some .presetReached ∧ Cause.presetReached.isLock = false ∧ s.fpState Side.a.other ≠ .locked ∧
      s.fpState Side.a.other ≠ .settling)
    ∧ (∃ s : State, metered s 979 ∧ s.fpState .a = .settling ∧ passes s 979 ∧ ¬ floods s 979 ∧ s.pw.state = .active ∧
      (s.sale .a).endCause = some .pulserFault ∧ Cause.pulserFault.isLock = true)
    ∧ (∃ s : State, metered s 959 ∧ s.fpState .a = .settling ∧ ¬ passes s 959 ∧ floods s 959 ∧ s.pw.state = .active) := by
  refine ⟨⟨beyondBase .paused 980 false none, ?_⟩, ⟨halted (beyondBase .settling 959 false (some .presetReached)), ?_⟩,
    ⟨beyondBase .paused 979 false none, ?_⟩, ⟨beyondBase .settling 960 false (some .presetReached), ?_⟩,
    ⟨beyondBase .settling 979 false (some .pulserFault), ?_⟩, ⟨beyondBase .settling 959 true (some .overrun), ?_⟩⟩
  all_goals try simp only [metered, passes, floods, steady_iff]
  all_goals and_intros
  all_goals first | exact good rfl | decide +kernel

def reversed (n : Nat) : State := withMeter (selling .fueling) a1 (fun c => { c with pendingRev := n })
def disturbed (n : Nat) : State := withMeter (selling .paused) a1 (fun c => { c with illegal := n })

/-- The hypotheses of `PulserFaultEndsTheSale` are met, clause by clause. -/
theorem witness_PulserFaultEndsTheSale :
    (∃ s : State, s.steady ∧ s.pw.decoding = true ∧ (s.meter a1).attr = .sale ∧ (s.meter a1).pulserMade = false ∧
      (s.fpState a1.side).endable = true ∧ s.pw.state = .active ∧ s.fpState a1.side.other ≠ .locked ∧ s.fpState a1.side.other ≠ .settling ∧
      (s.meter a1).pendingRev = 50)
    ∧ (∃ s : State, s.steady ∧ s.pw.decoding = true ∧ (s.meter a1).attr = .sale ∧ (s.meter a1).pulserMade = false ∧
      (s.fpState a1.side).endable = true ∧ s.pw.state = .active ∧ s.fpState a1.side.other ≠ .locked ∧ s.fpState a1.side.other ≠ .settling ∧
      (s.meter a1).illegal = 3) := by
  refine ⟨⟨reversed 50, ?_⟩, ⟨disturbed 3, ?_⟩⟩
  all_goals try simp only [steady_iff]
  all_goals and_intros
  all_goals first | exact good rfl | decide +kernel

def otherSide (f : FuelPoint → FuelPoint) (g : RetSide → RetSide) (s : State) : State := withSide (withFp s .b f) .b g

/-- The hypotheses of the clauses of `PulserFaultEndsTheSale` on a sale in SETTLING and on two sides with faults are met. -/
theorem witness_PulserFaultEndsTheSale_faults :
    (∃ s : State, s.steady ∧ s.pw.decoding = true ∧ (s.meter a1).attr = .sale ∧ (s.meter a1).pulserMade = false ∧ s.pw.state = .active ∧
      (s.meter a1).pendingRev = 50 ∧ s.fpState a1.side = .settling ∧ (s.sale a1.side).endCause = some .hostStop ∧ Cause.hostStop.isLock = false ∧
      s.fpState a1.side.other ≠ .locked ∧ s.fpState a1.side.other ≠ .settling)
    ∧ (∃ s : State, s.steady ∧ s.pw.decoding = true ∧ (s.meter a1).attr = .sale ∧ (s.meter a1).pulserMade = false ∧ s.pw.state = .active ∧
      (s.meter a1).pendingRev = 50 ∧ s.fpState a1.side = .settling ∧ (s.sale a1.side).endCause = some .overrun ∧ Cause.overrun.isLock = true)
    ∧ (∃ s : State, s.steady ∧ s.pw.decoding = true ∧ (s.meter a1).attr = .sale ∧ (s.meter a1).pulserMade = false ∧ s.pw.state = .active ∧
      (s.meter a1).illegal = 3 ∧ (s.fpState a1.side).endable = true ∧ s.fpState a1.side.other = .locked ∧
      (s.ret.sides.get a1.side.other).lockCause = some .unauthFlow)
    ∧ (∃ s : State, s.steady ∧ s.pw.decoding = true ∧ (s.meter a1).attr = .sale ∧ (s.meter a1).pulserMade = false ∧ s.pw.state = .active ∧
      (s.meter a1).pendingRev = 50 ∧ (s.fpState a1.side).endable = true ∧ s.fpState a1.side.other = .settling ∧
      (s.sale a1.side.other).endCause = some .overrun ∧ Cause.overrun.isLock = true) := by
  refine ⟨⟨withMeter (ending .hostStop (selling .settling)) a1 (fun c => { c with pendingRev := 50 }), ?_⟩,
    ⟨withMeter (ending .overrun (selling .settling)) a1 (fun c => { c with pendingRev := 50 }), ?_⟩,
    ⟨otherSide (fun f => { f with state := .locked }) (fun r => { r with locked := true, lockCause := some .unauthFlow }) (disturbed 3), ?_⟩,
    ⟨otherSide (fun f => { f with state := .settling, settle := some 9 }) (fun r => { r with sale := { openSale .b with endCause := some .overrun } })
      (reversed 50), ?_⟩⟩
  all_goals try simp only [steady_iff]
  all_goals and_intros
  all_goals first | exact good rfl | decide +kernel

def flowing (w : Nat) : State := withMeter (selling .fueling) a1 (fun c => { c with w0 := w, w1 := 100, w2 := 50, w3 := 50, quietAny := some 2000 })

/-- The hypotheses of `RatesBandsAndQuietTimers` are met, clause by clause. -/
theorem witness_RatesBandsAndQuietTimers :
    (∃ s : State, s.steady ∧ s.pw.decoding = true ∧ (s.meter a1).cal = some ⟨100, 200, 300, 0, 0, 0, 0⟩)
    ∧ (∃ s : State, s.steady ∧ s.pw.decoding = true ∧ (s.meter a1).cal = some ⟨100, 200, 300, 0, 0, 0, 0⟩)
    ∧ (∃ s : State, s.steady ∧ s.pw.decoding = true)
    ∧ (∃ s : State, s.steady ∧ s.pw.decoding = true) := by
  refine ⟨⟨flowing 100, ?_⟩, ⟨flowing 1900, ?_⟩, ⟨flowing 0, ?_⟩, ⟨flowing 0, ?_⟩⟩
  all_goals try simp only [steady_iff]
  all_goals and_intros
  all_goals first | exact good rfl | decide +kernel

def pullingIn (n : Nat) : State := withValve (selling .fueling) a2 ⟨.pullIn, 128, 255, n⟩
def slowed (s : State) : State := { s with vlv := s.vlv.set .a { s.vlv.a with slow := true } }

/-- The hypotheses of `PeriodBoundariesApplyTheDuty` are met, clause by clause. -/
theorem witness_PeriodBoundariesApplyTheDuty :
    (∃ s : State, s.steady ∧ s.pw.drives = true)
    ∧ (∃ s : State, s.steady ∧ s.pw.drives = true)
    ∧ (∃ s : State, s.steady ∧ s.pw.drives = true ∧ (s.valve a2).state = .pullIn ∧ (s.valve a2).pullIn = 0)
    ∧ (∃ s : State, s.steady ∧ s.pw.drives = true ∧ (s.valve a2).state = .pullIn ∧ (s.valve a2).pullIn = 0) := by
  refine ⟨⟨pullingIn 1, ?_⟩, ⟨slowed (pullingIn 0), ?_⟩, ⟨pullingIn 0, ?_⟩, ⟨slowed (pullingIn 0), ?_⟩⟩
  all_goals try simp only [steady_iff]
  all_goals and_intros
  all_goals first | exact good rfl | decide +kernel

/-- The blend of `p1` and `p2` millilitres at a loop count. -/
def blended (p1 p2 count : Nat) : State :=
  let s := withSide (selling .fueling) .a (fun r => { r with sale := { r.sale with products := ⟨p1, p2, 0⟩, volume := (p1 + p2) / 10 } })
  { s with vlv := s.vlv.set .a { s.vlv.a with blend := { s.vlv.a.blend with count := count } } }

/-- The hypotheses of `BlendLoopsCorrectTheShare` are met, clause by clause. -/
theorem witness_BlendLoopsCorrectTheShare :
    (∃ s : State, s.steady ∧ s.fpState .a = .fueling ∧ Option.isSome (s.vlv.get .a).blend.timer = true ∧
      ((s.vlv.get .a).slow = true ∨ (s.sale .a).volume < 50))
    ∧ (∃ s : State, s.steady ∧ s.fpState .a = .fueling ∧ Option.isSome (s.vlv.get .a).blend.timer = true ∧
      ((s.vlv.get .a).slow = true ∨ (s.sale .a).volume < 50))
    ∧ (∃ s : State, s.steady ∧ s.fpState .a = .fueling ∧ Option.isSome (s.vlv.get .a).blend.timer = true ∧ (s.vlv.get .a).slow = false ∧
      50 ≤ (s.sale .a).volume ∧
      ((if (s.sale .a).volume < 300 then 0 else if 30 < ((↑(s.vlv.get .a).blend.share : ℤ) - (↑((s.sale .a).products.p2 * 1000 / ((s.sale
        .a).products.p1 + (s.sale .a).products.p2)) : ℤ)).natAbs then (s.vlv.get .a).blend.count + 1 else 0) < 5))
    ∧ (∃ s : State, s.steady ∧ s.fpState .a = .fueling ∧ Option.isSome (s.vlv.get .a).blend.timer = true ∧ (s.vlv.get .a).slow = false ∧
      50 ≤ (s.sale .a).volume ∧
      ((if (s.sale .a).volume < 300 then 0 else if 30 < ((↑(s.vlv.get .a).blend.share : ℤ) - (↑((s.sale .a).products.p2 * 1000 / ((s.sale
        .a).products.p1 + (s.sale .a).products.p2)) : ℤ)).natAbs then (s.vlv.get .a).blend.count + 1 else 0) < 5))
    ∧ (∃ s : State, s.steady ∧ s.fpState .a = .fueling ∧ Option.isSome (s.vlv.get .a).blend.timer = true ∧ (s.vlv.get .a).slow = false ∧
      50 ≤ (s.sale .a).volume ∧
      (5 ≤ if (s.sale .a).volume < 300 then 0 else if 30 < ((↑(s.vlv.get .a).blend.share : ℤ) - (↑((s.sale .a).products.p2 * 1000 / ((s.sale
        .a).products.p1 + (s.sale .a).products.p2)) : ℤ)).natAbs then (s.vlv.get .a).blend.count + 1 else 0) ∧
      s.pw.state = .active ∧ s.fpState Side.a.other ≠ .locked ∧ s.fpState Side.a.other ≠ .settling) := by
  refine ⟨⟨blended 240 250 0, ?_⟩, ⟨slowed (blended 5000 5000 0), ?_⟩, ⟨blended 250 250 0, ?_⟩, ⟨blended 6000 4000 3, ?_⟩,
    ⟨blended 4690 5310 4, ?_⟩⟩
  all_goals try simp only [steady_iff]
  all_goals and_intros
  all_goals first | exact good rfl | decide +kernel

def startingMotor : State :=
  let s := withMotor (withMotor ready .p1 (fun r => { r with state := .starting, timer := some 1000, demand := ⟨true, false⟩ })) .p3
    (fun r => { r with state := .queued, demand := ⟨false, true⟩ })
  { s with mot := { s.mot with queue := [.p3] } }
def clearingMotor (s : State) : State := posted s 0 .motorClear 0x13 []
def faulted (m : Product) (s : State) : State := withMotor s m (fun r => { r with state := .fault, faultTime := some 9 })

/-- The hypotheses of `MotorsStartAndStop` are met, clause by clause. -/
theorem witness_MotorsStartAndStop :
    (∃ s : State, s.steady ∧ (s.motor .p1).state = .starting ∧ Option.isSome (s.motor .p1).timer = true ∧
      (∀ (q : Product), q ≠ .p1 → (s.motor q).state ≠ .starting) ∧ (∀ (d : Side), s.fpState d ≠ .starting) ∧ Product.p1 ∉ s.mot.queue)
    ∧ (∃ s : State, s.steady ∧ (s.motor .p2).state = .runOn ∧ Option.isSome (s.motor .p2).timer = true)
    ∧ (∃ s : State, s.steady)
    ∧ (∃ s : State, s.Offers .motorClear 0 (16 + motorCode .p3) ∧ s.pw.state = .halted)
    ∧ (∃ s : State, s.Offers .motorClear 0 (16 + motorCode .p3) ∧ s.pw.state = .active ∧ (s.motor .p3).state ≠ .fault)
    ∧ (∃ s : State, s.Offers .motorClear 0 (16 + motorCode .p3) ∧ s.pw.state = .active ∧ (s.motor .p3).state = .fault ∧ (s.motor .p3).trip = true)
    ∧ (∃ s : State, s.Offers .motorClear 0 (16 + motorCode .p3) ∧ s.pw.state = .active ∧ (s.motor .p3).state = .fault ∧ (s.motor .p3).trip = false ∧
      (∀ (d : Side), s.fpState d ≠ .starting))
    ∧ (∃ s : State, s.Offers .motorClear 0 (16 + motorCode .p3) ∧ s.pw.state = .active ∧ (s.motor .p3).state = .fault ∧ (s.motor .p3).trip = false ∧
      (∀ (d : Side), s.fpState d ≠ .starting))
    ∧ (∃ s : State, s.Offers .motorClear 0 (16 + motorCode .p3) ∧ s.pw.state = .active ∧ (s.motor .p3).state = .fault ∧ (s.motor .p3).trip = false ∧
      (∀ (d : Side), s.fpState d ≠ .starting)) := by
  refine ⟨⟨startingMotor, ?_⟩, ⟨withMotor ready .p2 (fun r => { r with state := .runOn, timer := some 2000 }), ?_⟩,
    ⟨withMotor ready .p2 (fun r => { r with trip := true }), ?_⟩, ⟨halted (clearingMotor ready), ?_⟩, ⟨clearingMotor ready, ?_⟩,
    ⟨clearingMotor (withMotor (faulted .p3 ready) .p3 (fun r => { r with trip := true })), ?_⟩, ⟨clearingMotor (faulted .p3 ready), ?_⟩,
    ⟨clearingMotor (withMotor (faulted .p3 ready) .p3 (fun r => { r with demand := ⟨true, false⟩ })), ?_⟩,
    ⟨clearingMotor (withMotor (withMotor (faulted .p3 ready) .p3 (fun r => { r with demand := ⟨true, false⟩ })) .p1 (fun r => { r with state := .starting })), ?_⟩⟩
  all_goals try simp only [offers_iff, portLaw_iff, steady_iff, all_side, all_product]
  all_goals and_intros
  all_goals first | exact good rfl | decide +kernel

def waiting (st : ValveSide → ValveSide) : State :=
  let s := withFp (selling .starting) .a (fun f => { f with gate2 := true })
  let s := withMotor (withMotor s .p1 (fun r => { r with state := .running, demand := ⟨true, false⟩ })) .p2
    (fun r => { r with state := .starting, timer := some 1000, demand := ⟨true, false⟩ })
  { s with vlv := s.vlv.set .a (st s.vlv.a) }

/-- The sale stands one centilitre below its close target. -/
def nearTarget (s : State) : State := withSide s .a (fun r => { r with sale := { r.sale with closeTarget := r.sale.volume + 1 } })

/-- The hypotheses of `TheLastGateOpensTheValves` are met, clause by clause. -/
theorem witness_TheLastGateOpensTheValves :
    (∃ s : State, s.steady ∧ s.pw.state = .active ∧ (s.motor .p2).state = .starting ∧ Option.isSome (s.motor .p2).timer = true ∧
      Product.p2 ∉ s.mot.queue ∧ s.fpState .a = .starting ∧ s.fpState Side.a.other ≠ .starting ∧ (s.sale .a).grade = some .g2 ∧
      (s.fp.get .a).gate1 = true ∧ (s.fp.get .a).gate2 = true ∧
      (∀ (q : Product), (s.sale .a).drawn.get q = true → q = .p2 ∨ (s.motor q).state = .running) ∧
      (s.sale .a).volume < (s.sale .a).closeTarget)
    ∧ (∃ s : State, s.steady ∧ s.pw.state = .active ∧ (s.motor .p2).state = .starting ∧ Option.isSome (s.motor .p2).timer = true ∧
      Product.p2 ∉ s.mot.queue ∧ s.fpState .a = .starting ∧ s.fpState Side.a.other ≠ .starting ∧ (s.sale .a).grade = some .g2 ∧
      (s.fp.get .a).gate1 = true ∧ (s.fp.get .a).gate2 = true ∧
      (∀ (q : Product), (s.sale .a).drawn.get q = true → q = .p2 ∨ (s.motor q).state = .running) ∧
      (s.sale .a).volume < (s.sale .a).closeTarget) := by
  refine ⟨⟨waiting id, ?_⟩, ⟨nearTarget (waiting (fun v => { v with blend := .powerUp, slow := true })), ?_⟩⟩
  all_goals try simp only [steady_iff, all_product]
  all_goals and_intros
  all_goals first | exact good rfl | decide +kernel

/-- The start queue of `TheLastGateOpensTheValves` can have a head that then starts. -/
theorem witness_TheLastGateOpensTheValves_queue :
    ∃ s : State, s.steady ∧ s.pw.state = .active ∧ (s.motor .p2).state = .starting ∧ Option.isSome (s.motor .p2).timer = true ∧
      Product.p2 ∉ s.mot.queue ∧ s.fpState .a = .starting ∧ s.fpState Side.a.other ≠ .starting ∧ (s.sale .a).grade = some .g2 ∧
      (s.fp.get .a).gate1 = true ∧ (s.fp.get .a).gate2 = true ∧
      (∀ (q : Product), (s.sale .a).drawn.get q = true → q = .p2 ∨ (s.motor q).state = .running) ∧
      (s.sale .a).volume < (s.sale .a).closeTarget ∧ (∀ q, q ≠ .p2 → (s.motor q).state ≠ .starting) ∧ s.mot.queue.head? = some .p3 := by
  refine ⟨{ waiting id with mot := ⟨((waiting id).mot.recs.set .p3 { (waiting id).motor .p3 with state := .queued, demand := ⟨false, true⟩ }), [.p3]⟩ }, ?_⟩
  all_goals try simp only [steady_iff, all_product]
  all_goals and_intros
  all_goals first | exact good rfl | decide +kernel

/-- The hypotheses of `MotorTripsFaultTheMotor` are met, clause by clause. -/
theorem witness_MotorTripsFaultTheMotor :
    (∃ s : State, s.steady ∧ s.pw.drives = true ∧ (s.motor .p3).state ≠ .fault ∧ (s.motor .p3).state ≠ .starting ∧ s.DriveLaw ∧
      (∀ (d : Side), s.drawsOn d .p3 = false))
    ∧ (∃ s : State, s.steady ∧ s.pw.drives = true ∧ (s.motor .p1).state ≠ .fault ∧ s.drawsOn .a .p1 = true ∧ s.fpState .a = .fueling ∧
      s.drawsOn Side.a.other .p1 = false)
    ∧ (∃ s : State, s.steady ∧ s.pw.drives = true ∧ (s.motor .p2).state ≠ .fault ∧ s.drawsOn .a .p2 = true ∧ s.fpState .a = .fueling ∧
      s.drawsOn Side.a.other .p2 = false)
    ∧ (∃ s : State, s.steady ∧ (s.pw.drives = false ∨ (s.motor .p3).state = .fault))
    ∧ (∃ s : State, s.steady ∧ (s.pw.drives = false ∨ (s.motor .p3).state = .fault)) := by
  refine ⟨⟨withMotor ready .p3 (fun r => { r with state := .runOn, timer := some 9 }), ?_⟩, ⟨selling .fueling, ?_⟩, ⟨bothSelling, ?_⟩,
    ⟨withPw ready (fun p => { p with drives := false }), ?_⟩, ⟨faulted .p3 ready, ?_⟩⟩
  all_goals try simp only [driveLaw_iff, steady_iff, all_side, all_product, all_meter]
  all_goals and_intros
  all_goals first | exact good rfl | decide +kernel

/-- SHOW_MESSAGE for side A in slot 0: length, duration in seconds, characters. -/
def showing (length duration : Nat) (text : List Byte) : State :=
  posted ready 0 .showMessage 1 ([BitVec.ofNat 8 length, 0] ++ bytesBE 2 duration ++ text)

/-- The hypotheses of `MessagesBecomeTheLine` are met, clause by clause. -/
theorem witness_MessagesBecomeTheLine :
    (∃ s : State, s.Offers .showMessage 0 (sideCode .a) ∧ 16 < s.bodyField 0 0 1)
    ∧ (∃ s : State, s.Offers .showMessage 0 (sideCode .a) ∧ s.bodyField 0 0 1 ≤ 16 ∧ 1 < s.bodyField 0 0 1 ∧
      (¬(fun b => BitVec.toNat b = 32 ∨ 45 ≤ BitVec.toNat b ∧ BitVec.toNat b ≤ 58 ∨ 65 ≤ BitVec.toNat b ∧ BitVec.toNat b ≤ 90) ((fun i =>
        s.mem.read (slotAddr 0 + 20 + i)) 1)))
    ∧ (∃ s : State, s.Offers .showMessage 0 (sideCode .a) ∧ s.bodyField 0 0 1 ≤ 16 ∧ 0 < s.bodyField 0 0 1 ∧
      (¬(fun b => BitVec.toNat b = 32 ∨ 45 ≤ BitVec.toNat b ∧ BitVec.toNat b ≤ 58 ∨ 65 ≤ BitVec.toNat b ∧ BitVec.toNat b ≤ 90) ((fun i =>
        s.mem.read (slotAddr 0 + 20 + i)) 0)))
    ∧ (∃ s : State, s.Offers .showMessage 0 (sideCode .a) ∧ s.bodyField 0 0 1 ≤ 16 ∧
      (∀ i < s.bodyField 0 0 1, (fun b => BitVec.toNat b = 32 ∨ 45 ≤ BitVec.toNat b ∧ BitVec.toNat b ≤ 58 ∨ 65 ≤ BitVec.toNat b ∧ BitVec.toNat b ≤
        90) ((fun i => s.mem.read (slotAddr 0 + 20 + i)) i)) ∧
      600 < s.bodyField 0 2 2)
    ∧ (∃ s : State, s.Offers .showMessage 0 (sideCode .a) ∧ s.bodyField 0 0 1 ≤ 16 ∧
      (∀ i < s.bodyField 0 0 1, (fun b => BitVec.toNat b = 32 ∨ 45 ≤ BitVec.toNat b ∧ BitVec.toNat b ≤ 58 ∨ 65 ≤ BitVec.toNat b ∧ BitVec.toNat b ≤
        90) ((fun i => s.mem.read (slotAddr 0 + 20 + i)) i)) ∧
      s.bodyField 0 2 2 ≤ 600 ∧ (s.head (saleRole .a)).state ≠ .ready)
    ∧ (∃ s : State, s.Offers .showMessage 0 (sideCode .a) ∧ s.bodyField 0 0 1 ≤ 16 ∧
      (∀ i < s.bodyField 0 0 1, (fun b => BitVec.toNat b = 32 ∨ 45 ≤ BitVec.toNat b ∧ BitVec.toNat b ≤ 58 ∨ 65 ≤ BitVec.toNat b ∧ BitVec.toNat b ≤
        90) ((fun i => s.mem.read (slotAddr 0 + 20 + i)) i)) ∧
      s.bodyField 0 2 2 ≤ 600 ∧ (s.head (saleRole .a)).state = .ready ∧ (s.disp.lines.get .a).order = none) := by
  refine ⟨⟨showing 17 0 [], ?_⟩, ⟨showing 2 0 [0x5A, 0x5B], ?_⟩, ⟨showing 1 0 [0x2C], ?_⟩, ⟨showing 16 601 (List.replicate 16 0x2D), ?_⟩,
    ⟨withHead (showing 0 600 []) .saleA (fun x => { x with state := .heating }), ?_⟩,
    ⟨showing 16 600 (List.replicate 8 0x3A ++ List.replicate 8 0x41), ?_⟩⟩
  all_goals try simp only [offers_iff, portLaw_iff, steady_iff]
  all_goals and_intros
  all_goals first | exact good rfl | decide +kernel

/-- Three entries wait: two BOARDs and a SALE whose spacing timer runs. -/
def queued : State :=
  withHead (withDisp ready (fun x => { x with
    queue := [⟨.saleA, .sale, 0, false⟩, ⟨.priceB, .board, 1, false⟩, ⟨.priceA, .board, 2, false⟩], nextAge := 3 })) .saleA
    (fun x => { x with spacing := some 100 })
def spaced : State := withDisp queued (fun x => { x with queue := [⟨.saleA, .sale, 0, false⟩] })

/-- The hypotheses of `FramesStartByClassAndAge` are met, clause by clause. -/
theorem witness_FramesStartByClassAndAge :
    (∃ s : State, s.steady ∧ s.disp.rail = true ∧ s.disp.bus = .free ∧ s.disp.awaitHigh = false ∧ s.disp.abandoned = false ∧ s.disp.flight = none ∧
      s.disp.call = none ∧ s.disp.step ≠ .testing ∧ s.disp.step ≠ .blanking ∧
      (∀ e ∈ s.disp.queue, ¬(fun e => e.kind ≠ .sale ∨ e.retry = true ∨ (s.head e.role).spacing = none) e))
    ∧ (∃ s : State, s.steady ∧ s.disp.rail = true ∧ s.disp.bus = .free ∧ s.disp.awaitHigh = false ∧ s.disp.abandoned = false ∧ s.disp.flight = none ∧
      s.disp.call = none ∧ s.disp.step ≠ .testing ∧ s.disp.step ≠ .blanking ∧
      (∃ e ∈ s.disp.queue, (fun e => e.kind ≠ .sale ∨ e.retry = true ∨ (s.head e.role).spacing = none) e)) := by
  refine ⟨⟨spaced, ?_⟩, ⟨queued, ?_⟩⟩
  all_goals try simp only [steady_iff]
  all_goals and_intros
  all_goals first | exact good rfl | decide +kernel

def onBus (s : State) (e : Entry) (now : Transfer) (bytes : List Byte) : State :=
  withDisp s (fun x => { x with flight := some ⟨e, now, bytes, [], true, false, if e.kind = .zero then some 0 else none⟩, bus := .own })
def saleFrame (s : State) : State := onBus s ⟨.saleA, .sale, 0, false⟩ (.shows .sale) [1, 2, 3]
def zeroFrame : State := onBus (selling .starting) ⟨.saleA, .zero, 0, false⟩ (.shows .sale) [1, 2, 3]
def probeFrame (st : HeadState) : State := onBus (withHead ready .priceA (fun x => { x with state := st })) ⟨.priceA, .probe, 0, false⟩ .status []
def inFlight (s : State) : Flight := s.disp.flight.getD ⟨⟨.saleA, .sale, 0, false⟩, .status, [], [], false, false, none⟩

/-- The hypotheses of `CompletedFramesAct` are met, clause by clause. -/
theorem witness_CompletedFramesAct :
    (∃ s : State, s.steady ∧ s.disp.flight = some (inFlight s) ∧ (inFlight s).onBus = true ∧ (inFlight s).dropped = false ∧ s.disp.call = none ∧
      s.disp.step ≠ .probing ∧ (inFlight s).entry.kind = .sale ∧ (inFlight s).now = .shows .sale ∧ (inFlight s).rest = [])
    ∧ (∃ s : State, s.steady ∧ s.disp.flight = some (inFlight s) ∧ (inFlight s).onBus = true ∧ (inFlight s).dropped = false ∧ s.disp.call = none ∧
      s.disp.step ≠ .probing ∧ (inFlight s).entry.kind = .zero ∧ (inFlight s).now = .shows .sale ∧ (inFlight s).rest = [] ∧
      (inFlight s).entry.role = saleRole .a ∧ s.fpState .a = .starting ∧ (inFlight s).serial = some (s.fp.get .a).saleSerial ∧
      s.pw.state = .active ∧ (s.sale .a).grade.isSome = true ∧ s.runningAll (s.sale .a).drawn = false)
    ∧ (∃ s : State, s.steady ∧ s.disp.flight = some (inFlight s) ∧ (inFlight s).onBus = true ∧ (inFlight s).dropped = false ∧ s.disp.call = none ∧
      s.disp.step ≠ .probing ∧ (inFlight s).entry.kind = .probe ∧ (inFlight s).now = .status ∧ (inFlight s).entry.role ≠ .saleA ∧
      (inFlight s).entry.role ≠ .saleB ∧ ((s.head (inFlight s).entry.role).state = .probing ∨ (s.head (inFlight s).entry.role).state = .failed))
    ∧ (∃ s : State, s.steady ∧ s.disp.flight = some (inFlight s) ∧ (inFlight s).onBus = true ∧ (inFlight s).dropped = false ∧ s.disp.call = none ∧
      s.disp.step ≠ .probing ∧ (inFlight s).entry.kind = .probe ∧ (inFlight s).now = .status ∧ (inFlight s).entry.role ≠ .saleA ∧
      (inFlight s).entry.role ≠ .saleB ∧ ((s.head (inFlight s).entry.role).state = .probing ∨ (s.head (inFlight s).entry.role).state = .failed)) := by
  refine ⟨⟨saleFrame ready, ?_⟩, ⟨zeroFrame, ?_⟩, ⟨probeFrame .failed, ?_⟩, ⟨probeFrame .probing, ?_⟩⟩
  all_goals try simp only [steady_iff]
  all_goals and_intros
  all_goals first | exact good rfl | decide +kernel

def messageFrame (s : State) (bytes : List Byte) : State := onBus s ⟨.saleA, .message, 0, false⟩ (.shows .message) bytes
def refreshFrame (s : State) (r : Role) (now : Transfer) (rest : List Transfer) : State :=
  withDisp (onBus s ⟨r, .refresh, 0, false⟩ now [9]) (fun x => { x with flight := x.flight.map (fun f => { f with rest := rest }) })

/-- The hypotheses of the clauses of `CompletedFramesAct` on a MESSAGE and a REFRESH are met. -/
theorem witness_CompletedFramesAct_refresh :
    (∃ s : State, s.steady ∧ s.disp.flight = some (inFlight s) ∧ (inFlight s).onBus = true ∧ (inFlight s).dropped = false ∧ s.disp.call = none ∧
      s.disp.step ≠ .probing ∧ (inFlight s).entry.kind = .message ∧ (inFlight s).now = .shows .message ∧ (inFlight s).rest = [] ∧
      (inFlight s).entry.role = saleRole .a ∧ (inFlight s).bytes = (s.disp.lines.get .a).text)
    ∧ (∃ s : State, s.steady ∧ s.disp.flight = some (inFlight s) ∧ (inFlight s).onBus = true ∧ (inFlight s).dropped = false ∧ s.disp.call = none ∧
      s.disp.step ≠ .probing ∧ (inFlight s).entry.kind = .message ∧ (inFlight s).now = .shows .message ∧ (inFlight s).rest = [] ∧
      (inFlight s).entry.role = saleRole .a ∧ (inFlight s).bytes ≠ (s.disp.lines.get .a).text)
    ∧ (∃ s : State, s.steady ∧ s.disp.flight = some (inFlight s) ∧ (inFlight s).onBus = true ∧ (inFlight s).dropped = false ∧ s.disp.call = none ∧
      s.disp.step ≠ .probing ∧ (inFlight s).now = .shows .sale ∧ (inFlight s).rest = [.shows .message, .status] ∧ Field.sale ≠ .message)
    ∧ (∃ s : State, s.steady ∧ s.disp.flight = some (inFlight s) ∧ (inFlight s).onBus = true ∧ (inFlight s).dropped = false ∧ s.disp.call = none ∧
      s.disp.step ≠ .probing ∧ (inFlight s).entry.kind = .refresh ∧ (inFlight s).now = .status ∧ (inFlight s).entry.role = .saleA ∧
      (s.head (inFlight s).entry.role).state = .ready ∧
      BitVec.toNat (0#8) = (((s.head (inFlight s).entry.role).sale ++ (s.head (inFlight s).entry.role).message
        ++ (s.head (inFlight s).entry.role).board).map BitVec.toNat).sum % 256)
    ∧ (∃ s : State, s.steady ∧ s.disp.flight = some (inFlight s) ∧ (inFlight s).onBus = true ∧ (inFlight s).dropped = false ∧ s.disp.call = none ∧
      s.disp.step ≠ .probing ∧ (inFlight s).entry.kind = .refresh ∧ (inFlight s).now = .status ∧ (inFlight s).entry.role ≠ .saleA ∧
      (inFlight s).entry.role ≠ .saleB ∧ (s.head (inFlight s).entry.role).fails < 2 ∧ (s.head (inFlight s).entry.role).board = [255, 1, 7]) := by
  refine ⟨⟨messageFrame (messaged ready) (List.replicate 16 0x41), ?_⟩, ⟨messageFrame (messaged ready) (List.replicate 16 0x42), ?_⟩,
    ⟨refreshFrame ready .saleA (.shows .sale) [.shows .message, .status], ?_⟩,
    ⟨refreshFrame (withHead ready .saleA (fun x => { x with sale := [255, 1] })) .saleA .status [], ?_⟩,
    ⟨refreshFrame (withHead ready .priceB (fun x => { x with fails := 1, board := [255, 1, 7] })) .priceB .status [], ?_⟩⟩
  all_goals try simp only [steady_iff]
  all_goals and_intros
  all_goals first | exact good rfl | decide +kernel

def failedTwice (s : State) (r : Role) (n : Nat) : State := withHead s r (fun x => { x with fails := n })
def boardFrame (n : Nat) : State := failedTwice (onBus queued ⟨.priceA, .board, 2, false⟩ (.shows .board) [1]) .priceA n

/-- The hypotheses of `FailedAttemptsAreRetried` are met, clause by clause. -/
theorem witness_FailedAttemptsAreRetried :
    (∃ s : State, s.steady ∧ s.disp.flight = some (inFlight s) ∧ (inFlight s).onBus = true ∧ (inFlight s).dropped = false ∧ s.disp.call = none ∧
      s.disp.step ≠ .probing ∧ (inFlight s).entry.kind ≠ .probe ∧ (s.head (inFlight s).entry.role).fails < 2)
    ∧ (∃ s : State, s.steady ∧ s.disp.flight = some (inFlight s) ∧ (inFlight s).onBus = true ∧ (inFlight s).dropped = false ∧ s.disp.call = none ∧
      s.disp.step ≠ .probing ∧ (inFlight s).entry.kind ≠ .probe ∧ (s.head (inFlight s).entry.role).fails < 2)
    ∧ (∃ s : State, s.steady ∧ s.disp.flight = some (inFlight s) ∧ (inFlight s).onBus = true ∧ (inFlight s).dropped = false ∧ s.disp.call = none ∧
      s.disp.step ≠ .probing)
    ∧ (∃ s : State, s.steady ∧ s.disp.flight = some (inFlight s) ∧ (inFlight s).onBus = true ∧ (inFlight s).dropped = false ∧ s.disp.call = none ∧
      s.disp.step ≠ .probing ∧ (inFlight s).entry.kind ≠ .probe ∧ (s.head (inFlight s).entry.role).fails = 2 ∧
      (s.head (inFlight s).entry.role).state.shows = true ∧ (inFlight s).entry.role ≠ .saleA ∧ (inFlight s).entry.role ≠ .saleB) := by
  refine ⟨⟨saleFrame ready, ?_⟩, ⟨boardFrame 1, ?_⟩, ⟨boardFrame 1, ?_⟩, ⟨boardFrame 2, ?_⟩⟩
  all_goals try simp only [steady_iff]
  all_goals and_intros
  all_goals first | exact good rfl | decide +kernel

def failingFrame : State := failedTwice (onBus (selling .fueling) ⟨.saleA, .refresh, 2, false⟩ (.shows .sale) [1]) .saleA 2

/-- The hypotheses of `AFailedSaleHeadEndsTheSale` are met, clause by clause. -/
theorem witness_AFailedSaleHeadEndsTheSale :
    (∃ s : State, s.steady ∧ (s.fpState .a).endable = true ∧ (s.disp.lines.get .a).order = none ∧ s.disp.step ≠ .probing ∧
      (s.head (saleRole .a)).state = .ready ∧ Option.isSome (s.head (saleRole .a)).stale = true)
    ∧ (∃ s : State, s.steady ∧ (s.fpState .a).endable = true ∧ (s.disp.lines.get .a).order = none ∧ s.disp.step ≠ .probing ∧
      (s.head (saleRole .a)).state = .ready ∧ (s.head (saleRole .a)).fails = 2 ∧ s.disp.call = none ∧ s.disp.flight = some (inFlight s) ∧
      (inFlight s).onBus = true ∧ (inFlight s).dropped = false ∧ (inFlight s).entry.role = saleRole .a ∧ (inFlight s).entry.kind ≠ .probe) := by
  refine ⟨⟨selling .paused, ?_⟩, ⟨failingFrame, ?_⟩⟩
  all_goals try simp only [steady_iff]
  all_goals and_intros
  all_goals first | exact good rfl | decide +kernel

/-- The hypotheses of the clause of `AFailedSaleHeadEndsTheSale` on a side without a sale are met. -/
theorem witness_AFailedSaleHeadEndsTheSale_idle :
    (∃ s : State, s.steady ∧ s.fpState .a = .authorized ∧ (s.disp.lines.get .a).order = none ∧ s.disp.step ≠ .probing ∧
      (s.head (saleRole .a)).state = .ready ∧ Option.isSome (s.head (saleRole .a)).stale = true)
    ∧ (∃ s : State, s.steady ∧ s.fpState .a = .finished ∧ (s.disp.lines.get .a).order = none ∧ s.disp.step ≠ .probing ∧
      (s.head (saleRole .a)).state = .ready ∧ (s.head (saleRole .a)).fails = 2 ∧ s.disp.call = none ∧ s.disp.flight = some (inFlight s) ∧
      (inFlight s).onBus = true ∧ (inFlight s).dropped = false ∧ (inFlight s).entry.role = saleRole .a ∧ (inFlight s).entry.kind ≠ .probe) := by
  refine ⟨⟨authorized ready, ?_⟩, ⟨failedTwice (saleFrame fueledUp) .saleA 2, ?_⟩⟩
  all_goals try simp only [steady_iff]
  all_goals and_intros
  all_goals first | exact good rfl | decide +kernel

def busIn (b : BusState) (awaitHigh abandoned : Bool) : State := withDisp ready (fun x => { x with bus := b, awaitHigh := awaitHigh, abandoned := abandoned })

/-- The hypotheses of `TheBusIsWatched` are met, clause by clause. -/
theorem witness_TheBusIsWatched :
    (∃ s : State, s.steady ∧ s.disp.call = none ∧ s.disp.rail = true ∧ (s.disp.bus = .free ∨ s.disp.awaitHigh = true))
    ∧ (∃ s : State, s.steady ∧ s.disp.call = none ∧ s.disp.rail = true ∧ (s.disp.bus = .free ∨ s.disp.awaitHigh = true))
    ∧ (∃ s : State, s.steady ∧ s.disp.call = none ∧ s.disp.rail = true ∧ s.disp.bus = .other)
    ∧ (∃ s : State, s.steady ∧ s.disp.call = none ∧ s.disp.rail = true ∧ s.disp.flight = none ∧ s.disp.abandoned = false ∧
      (s.disp.bus ≠ .clear ∨ s.disp.awaitHigh = true))
    ∧ (∃ s : State, s.steady ∧ s.disp.call = none ∧ s.disp.rail = true ∧ s.disp.flight = none ∧ s.disp.abandoned = false ∧
      (s.disp.bus ≠ .clear ∨ s.disp.awaitHigh = true))
    ∧ (∃ s : State, s.steady ∧ s.disp.call = none ∧ s.disp.bus = .clear ∧ s.disp.awaitHigh = false)
    ∧ (∃ s : State, s.steady ∧ s.disp.call = none ∧ s.disp.rail = true ∧ s.disp.awaitHigh = true ∧ s.disp.bus ≠ .other)
    ∧ (∃ s : State, s.steady ∧ s.disp.call = none ∧ s.disp.abandoned = true) := by
  refine ⟨⟨ready, ?_⟩, ⟨busIn .own true false, ?_⟩, ⟨busIn .other true false, ?_⟩, ⟨busIn .other false false, ?_⟩, ⟨busIn .clear true false, ?_⟩,
    ⟨busIn .clear false false, ?_⟩, ⟨busIn .own true false, ?_⟩, ⟨busIn .own false true, ?_⟩⟩
  all_goals try simp only [steady_iff]
  all_goals and_intros
  all_goals first | exact good rfl | decide +kernel

def waking (p : WakePhase) : State :=
  withPw (withFp (withFp ready .a (fun f => { f with state := .unavailable })) .b (fun f => { f with state := .locked }))
    (fun x => { x with state := .waking, phase := p, drives := false })
def settling : State := withDisp (waking .display) (fun _ => { Display.powerUp with rail := true, settle := some 100, step := .settling })
def calledFor (k : CallKind) (st : DisplayStep) (s : State) : State := withDisp s (fun x => { x with step := st, call := some ⟨k, true⟩, bus := .own })
def testing : State := withDisp (waking .display) (fun x => { x with step := .testing, segTest := some 2000 })

/-- The hypotheses of `TheDisplayPhaseProbesAndTests` are met, clause by clause. -/
theorem witness_TheDisplayPhaseProbesAndTests :
    (∃ s : State, s.steady ∧ s.pw.state = .waking ∧ Option.isSome s.disp.settle = true ∧ s.disp.step = .settling ∧
      (∀ (r : Role), (s.head r).state = .absent) ∧ s.disp.queue = [] ∧ s.disp.flight = none ∧
      (∀ (d : Side), s.fpState d = .unavailable ∨ s.fpState d = .locked) ∧ s.mapConfigures .saleA = true)
    ∧ (∃ s : State, s.steady ∧ s.pw.state = .waking ∧ s.disp.step = .probing ∧ s.disp.call = some { kind := .test, onBus := true })
    ∧ (∃ s : State, s.steady ∧ s.pw.state = .waking ∧ s.disp.step = .testing ∧ Option.isSome s.disp.segTest = true ∧ s.disp.bus = .free ∧
      s.disp.awaitHigh = false ∧ s.disp.abandoned = false ∧ s.disp.flight = none) := by
  refine ⟨⟨settling, ?_⟩, ⟨calledFor .test .probing (waking .display), ?_⟩, ⟨testing, ?_⟩⟩
  all_goals try simp only [steady_iff, all_side, all_role]
  all_goals and_intros
  all_goals first | exact good rfl | decide +kernel

def shuttingDown : State := withPw (waking .none) (fun p => { p with state := .shuttingDown })
def lowHead (st : HeadState) (s : State) : State :=
  withDisp s (fun x => { x with heads := Eight.ofFun (fun r => { x.heads.get r with state := if (x.heads.get r).state = .absent then .absent else st }) })

/-- The hypotheses of `TheBlankEndsTheWakeOrTheShutdown` are met, clause by clause. -/
theorem witness_TheBlankEndsTheWakeOrTheShutdown :
    (∃ s : State, s.steady ∧ s.pw.state = .waking ∧ s.disp.step = .blanking ∧ s.disp.call = some { kind := .blank, onBus := true } ∧
      s.halt.held = none ∧ (∀ (d : Side), s.readerFitted d = false) ∧
      (∀ (m : Product), (s.motor m).trip = false ∧ (s.motor m).demand = { a := false, b := false }) ∧
      (∀ (d : Side), s.fpState d = .unavailable ∨ s.fpState d = .locked))
    ∧ (∃ s : State, s.steady ∧ s.pw.state = .waking ∧ s.disp.step = .blanking ∧ s.disp.call = some { kind := .blank, onBus := true } ∧
      s.halt.held = none ∧ (∀ (d : Side), s.readerFitted d = false) ∧
      (∀ (m : Product), (s.motor m).trip = false ∧ (s.motor m).demand = { a := false, b := false }) ∧
      (∀ (d : Side), s.fpState d = .unavailable ∨ s.fpState d = .locked))
    ∧ (∃ s : State, s.steady ∧ s.pw.state = .shuttingDown ∧ s.disp.call = some { kind := .blank, onBus := true })
    ∧ (∃ s : State, s.steady ∧ s.pw.state = .shuttingDown ∧ s.disp.call = some { kind := .blank, onBus := true })
    ∧ (∃ s : State, s.steady ∧ s.pw.state = .powerFail ∧ s.disp.call = some { kind := .blank, onBus := true }) := by
  refine ⟨⟨calledFor .blank .blanking (waking .display), ?_⟩, ⟨calledFor .blank .blanking (lowHead .heating (waking .display)), ?_⟩,
    ⟨faulted .p1 (calledFor .blank .idle shuttingDown), ?_⟩, ⟨calledFor .blank .idle (lowHead .probing shuttingDown), ?_⟩,
    ⟨calledFor .blank .idle (withPw (waking .none) (fun p => { p with state := .powerFail })), ?_⟩⟩
  all_goals try simp only [steady_iff, all_side, all_product]
  all_goals and_intros
  all_goals first | exact good rfl | decide +kernel

def failedHead : State := withHead ready .mirror4 (fun x => { x with state := .failed, probe := some 2000, source := some .saleA })
def worded : State := withDisp ready (fun x => { x with lines := x.lines.set .b ⟨List.replicate 16 0x41, none, 600, some 600000⟩ })

/-- The hypotheses of `HeadTimersAskForFrames` are met, clause by clause. -/
theorem witness_HeadTimersAskForFrames :
    (∃ s : State, s.steady ∧ Option.isSome (s.head .priceB).refresh = true)
    ∧ (∃ s : State, s.steady ∧ Option.isSome (s.head .mirror4).probe = true ∧ (s.head .mirror4).state = .failed)
    ∧ (∃ s : State, s.steady ∧ Option.isSome (s.disp.lines.get .b).timer = true)
    ∧ (∃ s : State, s.steady) := by
  refine ⟨⟨ready, ?_⟩, ⟨failedHead, ?_⟩, ⟨worded, ?_⟩, ⟨ready, ?_⟩⟩
  all_goals try simp only [steady_iff]
  all_goals and_intros
  all_goals first | exact good rfl | decide +kernel

def readerIn (st : ReaderState) (f : Reader → Reader) : State :=
  withRdr ready .a (fun r => f { r with state := st, fitted := true, poll := if st = .warming ∨ st = .ready then some 20 else none })
def sending (s : State) (length : Nat) : State := posted s 0 .readerSend 1 ([BitVec.ofNat 8 length, 0, 0, 0] ++ List.replicate (min length 64) 0x55)
def restarting (s : State) : State := posted s 0 .readerRestart 1 []
def sendOrder : SendOrder := ⟨⟨5, 1, 900⟩, [0xA5], 0, 3⟩

/-- The hypotheses of `ReaderOrdersFollowTheState` are met, clause by clause. -/
theorem witness_ReaderOrdersFollowTheState :
    (∃ s : State, s.Offers .readerSend 0 (sideCode .a) ∧ (s.bodyField 0 0 1 = 0 ∨ 64 < s.bodyField 0 0 1))
    ∧ (∃ s : State, s.Offers .readerSend 0 (sideCode .a) ∧ (s.bodyField 0 0 1 = 0 ∨ 64 < s.bodyField 0 0 1))
    ∧ (∃ s : State, s.Offers .readerSend 0 (sideCode .a) ∧ 1 ≤ s.bodyField 0 0 1 ∧ s.bodyField 0 0 1 ≤ 64 ∧ (s.rdr.get .a).state ≠ .warming ∧
      (s.rdr.get .a).state ≠ .ready)
    ∧ (∃ s : State, s.Offers .readerSend 0 (sideCode .a) ∧ 1 ≤ s.bodyField 0 0 1 ∧ s.bodyField 0 0 1 ≤ 64 ∧
      ((s.rdr.get .a).state = .warming ∨ (s.rdr.get .a).state = .ready) ∧ 16 ≤ (s.rdr.get .a).sends.length)
    ∧ (∃ s : State, s.Offers .readerSend 0 (sideCode .a) ∧ 1 ≤ s.bodyField 0 0 1 ∧ s.bodyField 0 0 1 ≤ 64 ∧
      ((s.rdr.get .a).state = .warming ∨ (s.rdr.get .a).state = .ready) ∧ (s.rdr.get .a).sends.length < 16)
    ∧ (∃ s : State, s.Offers .readerSend 0 (sideCode .a) ∧ 1 ≤ s.bodyField 0 0 1 ∧ s.bodyField 0 0 1 ≤ 64 ∧
      ((s.rdr.get .a).state = .warming ∨ (s.rdr.get .a).state = .ready) ∧ (s.rdr.get .a).sends.length < 16)
    ∧ (∃ s : State, s.Offers .readerRestart 0 (sideCode .a) ∧
      ((s.rdr.get .a).state = .warming ∨ (s.rdr.get .a).state = .ready ∨ (s.rdr.get .a).state = .lost))
    ∧ (∃ s : State, s.Offers .readerRestart 0 (sideCode .a) ∧ (s.rdr.get .a).state = .off ∧ (s.rdr.get .a).fitted = false)
    ∧ (∃ s : State, s.Offers .readerRestart 0 (sideCode .a) ∧
      ((s.rdr.get .a).state = .tampered ∧ (s.rdr.get .a).tamperReleased = false ∨ (s.rdr.get .a).state = .supplyFault ∧ (s.rdr.get
        .a).supplyReleased = false))
    ∧ (∃ s : State, s.Offers .readerRestart 0 (sideCode .a) ∧
      ((s.rdr.get .a).state = .tampered ∧ (s.rdr.get .a).tamperReleased = false ∨ (s.rdr.get .a).state = .supplyFault ∧ (s.rdr.get
        .a).supplyReleased = false))
    ∧ (∃ s : State, s.Offers .readerRestart 0 (sideCode .a) ∧ (s.rdr.get .a).state = .supplyFault ∧ (s.rdr.get .a).supplyReleased = true ∧ (s.rdr.get .a).fitted = true ∧
      (s.rdr.get .a).tamper = false)
    ∧ (∃ s : State, s.Offers .readerRestart 0 (sideCode .a) ∧ (s.rdr.get .a).state = .failed ∧ (s.rdr.get .a).fitted = true ∧ (s.rdr.get .a).tamper = false) := by
  refine ⟨⟨sending (readerIn .ready id) 0, ?_⟩, ⟨sending (readerIn .ready id) 65, ?_⟩,
    ⟨sending (readerIn .lost (fun r => { r with cause := some .misses })) 64, ?_⟩,
    ⟨sending (readerIn .ready (fun r => { r with sends := List.replicate 16 sendOrder })) 64, ?_⟩,
    ⟨sending (readerIn .warming (fun r => { r with sends := List.replicate 15 sendOrder })) 64, ?_⟩, ⟨sending (readerIn .ready id) 1, ?_⟩,
    ⟨restarting (readerIn .lost id), ?_⟩, ⟨restarting (readerIn .off (fun r => { r with fitted := false })), ?_⟩,
    ⟨restarting (readerIn .tampered id), ?_⟩, ⟨restarting (readerIn .supplyFault id), ?_⟩,
    ⟨restarting (readerIn .supplyFault (fun r => { r with supplyReleased := true })), ?_⟩, ⟨restarting (readerIn .failed id), ?_⟩⟩
  all_goals try simp only [offers_iff, portLaw_iff, steady_iff]
  all_goals and_intros
  all_goals first | exact good rfl | decide +kernel

/-- The hypotheses of the last two clauses of `ReaderOrdersFollowTheState` that a TAMPERED reader can meet: one of the two by the free value. -/
theorem witness_ReaderOrdersFollowTheState_tampered :
    ∃ s : State, s.Offers .readerRestart 0 (sideCode .a) ∧ (s.rdr.get .a).state = .tampered ∧ (s.rdr.get .a).tamperReleased = true ∧ (s.rdr.get .a).fitted = true ∧
      (s.rdr.get .a).tamper = false ∧ (Config.tamperAfresh s.free .a = true ∨ Config.tamperAfresh s.free .a = false) := by
  refine ⟨restarting (readerIn .tampered (fun r => { r with tamperReleased := true })), ?_⟩
  all_goals try simp only [offers_iff, portLaw_iff, steady_iff]
  all_goals and_intros
  all_goals first | exact good rfl | exact Bool.eq_false_or_eq_true _ | decide +kernel

def fullCells (r : Reader) : Reader := { r with cells := List.replicate 8 ⟨2, 1, 1, 1, [0x55]⟩ }
def onLink (p : LinkPhase) (k : LinkKind) (r : Reader) : Reader := { r with link := p, frame := some (linkFrame k false []), response := some 50 }

/-- The hypotheses of `PollsSendTheChosenFrame` are met, clause by clause. -/
theorem witness_PollsSendTheChosenFrame :
    (∃ s : State, s.steady ∧ ((s.rdr.get .a).state = .warming ∨ (s.rdr.get .a).state = .ready) ∧ Option.isSome (s.rdr.get .a).poll = true ∧
      (s.rdr.get .a).link ≠ .idle)
    ∧ (∃ s : State, s.steady ∧ ((s.rdr.get .a).state = .warming ∨ (s.rdr.get .a).state = .ready) ∧ Option.isSome (s.rdr.get .a).poll = true ∧
      (s.rdr.get .a).link = .idle ∧ (s.rdr.get .a).state = .ready ∧ (s.rdr.get .a).sends = [sendOrder, sendOrder] ∧ (s.rdr.get .a).waitHold = false)
    ∧ (∃ s : State, s.steady ∧ ((s.rdr.get .a).state = .warming ∨ (s.rdr.get .a).state = .ready) ∧ Option.isSome (s.rdr.get .a).poll = true ∧
      (s.rdr.get .a).link = .idle ∧ (s.rdr.get .a).state = .ready ∧ ((s.rdr.get .a).sends = [] ∨ (s.rdr.get .a).waitHold = true) ∧
      (MailCell.zeroed ∈ (s.rdr.get .a).cells ∧ MailCell.zeroed.stateWord = 0))
    ∧ (∃ s : State, s.steady ∧ ((s.rdr.get .a).state = .warming ∨ (s.rdr.get .a).state = .ready) ∧ Option.isSome (s.rdr.get .a).poll = true ∧
      (s.rdr.get .a).link = .idle ∧
      ((s.rdr.get .a).state = .warming ∨ ((s.rdr.get .a).sends = [] ∨ (s.rdr.get .a).waitHold = true) ∧ ∀ c ∈ (s.rdr.get .a).cells, c.stateWord ≠ 0))
    ∧ (∃ s : State, s.steady ∧ ((s.rdr.get .a).state = .warming ∨ (s.rdr.get .a).state = .ready) ∧ Option.isSome (s.rdr.get .a).poll = true ∧
      (s.rdr.get .a).link = .idle ∧
      ((s.rdr.get .a).state = .warming ∨ ((s.rdr.get .a).sends = [] ∨ (s.rdr.get .a).waitHold = true) ∧ ∀ c ∈ (s.rdr.get .a).cells, c.stateWord ≠ 0))
    ∧ (∃ s : State, s.steady ∧ (s.rdr.get .a).link = .sending) := by
  refine ⟨⟨readerIn .ready (onLink .awaiting .ask), ?_⟩, ⟨readerIn .ready (fun r => { r with sends := [sendOrder, sendOrder] }), ?_⟩,
    ⟨readerIn .ready (fun r => { r with sends := [sendOrder], waitHold := true }), ?_⟩, ⟨readerIn .warming id, ?_⟩,
    ⟨readerIn .ready fullCells, ?_⟩, ⟨readerIn .ready (onLink .sending .ask), ?_⟩⟩
  all_goals try simp only [steady_iff]
  all_goals and_intros
  all_goals first | exact good rfl | decide +kernel

def frameOf (k : LinkKind) : LinkFrame := linkFrame k false []
def noPayload : List Byte := []
def longPayload : List Byte := List.replicate 64 7
def cell (n : Nat) : MailCell := ⟨65534, BitVec.ofNat 16 n, n, n, List.replicate n 0x55⟩
/-- A reader that has sent a frame of a kind and waits for the reply. -/
def asked (st : ReaderState) (k : LinkKind) (f : Reader → Reader) : State := readerIn st (fun r => f (onLink .awaiting k r))
def lastCellFree (r : Reader) : Reader := { r with cells := List.replicate 7 (cell 1) ++ [cell 0], nextMail := 255 }
def giving : State :=
  let s := asked .ready .give (fun r => { r with sends := [sendOrder] })
  { s with mem := Memory.writeAll [] (slotAddr 5) [2, 0, 0x30, 1], port := { s.port with takes := s.port.takes.set 5 1 } }

/-- The hypotheses of `RepliesAreTaken` are met, clause by clause. -/
theorem witness_RepliesAreTaken :
    (∃ s : State, (0x7E : Byte) ∉ [0#8, 0x81#8] ∧ s.steady ∧ (s.rdr.get .a).link = .awaiting ∧ (s.rdr.get .a).frame = some (frameOf .ask) ∧ (s.rdr.get .a).held = false ∧
      longPayload.length ≤ 64 ∧ (frameOf .ask).kind = .ask ∧ (s.rdr.get .a).state = .ready ∧ (1#8).toNat % 2 = 1 ∧ 1 ≤ longPayload.length ∧
      (s.rdr.get .a).cells = List.replicate 7 (cell 1) ++ [cell 0] ∧ (∀ x ∈ List.replicate 7 (cell 1), x.stateWord ≠ 0) ∧ (cell 0).stateWord = 0)
    ∧ (∃ s : State, (0x7E : Byte) ∉ [0#8, 0x81#8] ∧ s.steady ∧ (s.rdr.get .a).link = .awaiting ∧ (s.rdr.get .a).frame = some (frameOf .give) ∧ (s.rdr.get .a).held = false ∧
      noPayload.length ≤ 64 ∧ (frameOf .give).kind = .give ∧ (s.rdr.get .a).state = .ready ∧ (1#8).toNat % 2 = 1 ∧ noPayload = [] ∧
      (s.rdr.get .a).sends = [sendOrder])
    ∧ (∃ s : State, (0x7E : Byte) ∉ [0#8, 0x81#8] ∧ s.steady ∧ (s.rdr.get .a).link = .awaiting ∧ (s.rdr.get .a).frame = some (frameOf .stay) ∧ (s.rdr.get .a).held = false ∧
      noPayload.length ≤ 64 ∧ (s.rdr.get .a).state = .warming ∧ (1#8).toNat % 2 = 1 ∧ noPayload = [])
    ∧ (∃ s : State, (0x7E : Byte) ∉ [0#8, 0x81#8] ∧ s.steady ∧ (s.rdr.get .a).link = .awaiting ∧ (s.rdr.get .a).frame = some (frameOf .ask) ∧ (s.rdr.get .a).held = false ∧
      noPayload.length ≤ 64 ∧ 0#16 ≠ (fun kind => crc16 (kind :: 1#8 :: BitVec.ofNat 8 noPayload.length :: noPayload)) 129#8 ∧
      (s.rdr.get .a).state = .ready ∧ (s.rdr.get .a).miss < 2)
    ∧ (∃ s : State, (0x7E : Byte) ∉ [0#8, 0x81#8] ∧ s.steady ∧ (s.rdr.get .a).link = .awaiting ∧ (s.rdr.get .a).frame = some (frameOf .ask) ∧
      (s.rdr.get .a).held = false ∧ noPayload.length ≤ 64 ∧ 64 < (65#8).toNat) := by
  refine ⟨⟨asked .ready .ask lastCellFree, ?_⟩, ⟨giving, ?_⟩, ⟨asked .warming .stay id, ?_⟩,
    ⟨asked .ready .ask (fun r => { r with miss := 1 }), ?_⟩, ⟨asked .ready .ask id, ?_⟩⟩
  all_goals try simp only [steady_iff]
  all_goals and_intros
  all_goals first | exact good rfl | decide +kernel

/-- Side A is AUTHORIZED for its reader. -/
def readerAuth : AuthRecord := { consoleAuth with origin := .reader }
def heldByReader (s : State) : State := underAuth readerAuth (authorized s)

/-- The hypotheses of the clause of `RepliesAreTaken` on a reader that leaves READY are met, and of its last clause at the first length that is
too long. -/
theorem witness_RepliesAreTaken_leaves :
    ∃ s : State, (0x7E : Byte) ∉ [0#8, 0x81#8] ∧ s.steady ∧ (s.rdr.get .a).link = .awaiting ∧ (s.rdr.get .a).frame = some (frameOf .ask) ∧
      (s.rdr.get .a).held = false ∧ noPayload.length ≤ 64 ∧ (s.rdr.get .a).state = .ready ∧ (0#8).toNat % 2 = 0 ∧ noPayload = [] ∧
      s.readerHolds .a = true := by
  refine ⟨heldByReader (asked .ready .ask id), ?_⟩
  all_goals try simp only [steady_iff]
  all_goals and_intros
  all_goals first | exact good rfl | decide +kernel

/-- An order stands in the send list. -/
def underAuthorization (s : State) : State := withFp s .a (fun f => { f with state := .authorized, auth := some consoleAuth })
def withSend (r : Reader) : Reader := { r with sends := [sendOrder] }

/-- The hypotheses of `ReadersAreLostAndRepowered` are met, clause by clause. -/
theorem witness_ReadersAreLostAndRepowered :
    (∃ s : State, s.steady ∧ (s.rdr.get .a).link = .awaiting ∧
      (s.rdr.get .a).state = .ready ∧ (s.rdr.get .a).held = false ∧ (s.rdr.get .a).miss < 2)
    ∧ (∃ s : State, s.steady ∧ (s.rdr.get .a).link = .awaiting ∧
      (s.rdr.get .a).state = .ready ∧ (s.rdr.get .a).held = false ∧ (s.rdr.get .a).miss = 2)
    ∧ (∃ s : State, s.steady ∧ (s.rdr.get .a).state = .warming ∧
      Option.isSome (s.rdr.get .a).warmUp = true ∧ (s.rdr.get .a).cycles < 2)
    ∧ (∃ s : State, s.steady ∧ (s.rdr.get .a).state = .warming ∧
      Option.isSome (s.rdr.get .a).warmUp = true ∧ 2 ≤ (s.rdr.get .a).cycles)
    ∧ (∃ s : State, s.steady ∧ (s.rdr.get .a).state = .lost ∧
      Option.isSome (s.rdr.get .a).powerOff = true) := by
  refine ⟨⟨asked .ready .ask (fun r => { r with miss := 1 }), ?_⟩, ⟨asked .ready .ask (fun r => { withSend r with miss := 2 }), ?_⟩,
    ⟨underAuthorization (asked .warming .stay (fun r => { withSend r with warmUp := some 10000, cycles := 1 })), ?_⟩,
    ⟨asked .warming .stay (fun r => { r with warmUp := some 10000, cycles := 2 }), ?_⟩,
    ⟨readerIn .lost (fun r => { r with powerOff := some 500 }), ?_⟩⟩
  all_goals try simp only [steady_iff]
  all_goals and_intros
  all_goals first | exact good rfl | decide +kernel

/-- The hypotheses of the clauses of `ReadersAreLostAndRepowered` and `ReaderInputsCutTheSupply` are met where an authorization of the reader is
withdrawn. -/
theorem witness_ReadersAreLostAndRepowered_withdraws :
    (∃ s : State, s.steady ∧ s.readerHolds .a = true ∧ (s.rdr.get .a).link = .awaiting ∧ (s.rdr.get .a).state = .ready ∧
      (s.rdr.get .a).held = false ∧ (s.rdr.get .a).miss = 2)
    ∧ (∃ s : State, s.steady ∧ s.readerHolds .a = true ∧ ¬((s.fpState .a).endable = true ∧ (s.sale .a).origin = .reader) ∧
      ((s.rdr.get .a).state = .warming ∨ (s.rdr.get .a).state = .ready)) := by
  refine ⟨⟨lifted (heldByReader (asked .ready .ask (fun r => { withSend r with miss := 2 }))) .h1, ?_⟩, ⟨heldByReader (readerIn .ready withSend), ?_⟩⟩
  all_goals try simp only [steady_iff]
  all_goals and_intros
  all_goals first | exact good rfl | decide +kernel

def readerSelling : State :=
  withRdr (withSide (selling .fueling) .a (fun r => { r with sale := { r.sale with origin := .reader } })) .a
    (fun r => { r with state := .ready, fitted := true, poll := some 20 })

/-- The hypotheses of `ReaderInputsCutTheSupply` are met, clause by clause. -/
theorem witness_ReaderInputsCutTheSupply :
    (∃ s : State, s.steady ∧
      ((s.rdr.get .a).state = .off ∨ (s.rdr.get .a).state = .tampered))
    ∧ (∃ s : State, s.steady ∧
      (¬((s.fpState .a).endable = true ∧ (s.sale .a).origin = .reader)) ∧ ((s.rdr.get .a).state = .warming ∨ (s.rdr.get .a).state = .ready))
    ∧ (∃ s : State, s.steady ∧
      (¬((s.fpState .a).endable = true ∧ (s.sale .a).origin = .reader)) ∧
      ((s.rdr.get .a).state = .lost ∨ (s.rdr.get .a).state = .failed ∨ (s.rdr.get .a).state = .supplyFault))
    ∧ (∃ s : State, s.steady ∧
      ((s.fpState .a).endable = true ∧ (s.sale .a).origin = .reader) ∧ ((s.rdr.get .a).state = .warming ∨ (s.rdr.get .a).state = .ready))
    ∧ (∃ s : State, s.steady)
    ∧ (∃ s : State, s.steady ∧
      ((s.rdr.get .a).state = .warming ∨ (s.rdr.get .a).state = .ready))
    ∧ (∃ s : State, s.steady) := by
  refine ⟨⟨ready, ?_⟩, ⟨readerIn .ready withSend, ?_⟩, ⟨readerIn .lost (fun r => { r with powerOff := some 500 }), ?_⟩,
    ⟨withRdr readerSelling .a withSend, ?_⟩, ⟨readerIn .tampered id, ?_⟩, ⟨readerIn .warming withSend, ?_⟩, ⟨readerIn .supplyFault id, ?_⟩⟩
  all_goals try simp only [steady_iff]
  all_goals and_intros
  all_goals first | exact good rfl | decide +kernel

def logged (n : Nat) (s : State) : State := withStore s (fun x => { x with copy := some ((image.write 184 (BitVec.ofNat 8 n)).writeAll 186 (bytesBE 8 77)) })
def entry : LogEntry := ⟨77, 1, 0x21, 2 ^ 64 - 1, 5, 65535, 6, 2 ^ 32 - 1⟩

/-- The hypotheses of `AnEntryIsAddedInTheNextPlace` are met, clause by clause. -/
theorem witness_AnEntryIsAddedInTheNextPlace :
    (∃ s : Memory, s.wf = true ∧ logCount s < 32 ∧ entry.event < 2 ^ 32 ∧ entry.kind < 256 ∧ entry.param < 256 ∧ entry.old < 2 ^ 64 ∧
      entry.new < 2 ^ 64 ∧ entry.oldCheck < 65536 ∧ entry.newCheck < 65536 ∧ entry.time < 2 ^ 32)
    ∧ (∃ s : Memory, s.wf = true ∧ logCount s < 32 ∧ entry.event < 2 ^ 32 ∧ entry.kind < 256 ∧ entry.param < 256 ∧ entry.old < 2 ^ 64 ∧
      entry.new < 2 ^ 64 ∧ entry.oldCheck < 65536 ∧ entry.newCheck < 65536 ∧ entry.time < 2 ^ 32) := by
  refine ⟨⟨(logged 31 ready).store.image, ?_⟩, ⟨(logged 0 ready).store.image, ?_⟩⟩
  all_goals and_intros
  all_goals first | exact good rfl | decide +kernel

def calibration (k b1 b2 b3 c : Nat) : List Byte := bytesBE 4 k ++ bytesBE 2 b1 ++ bytesBE 2 b2 ++ bytesBE 2 b3 ++ (List.replicate 4 (bytesBE 2 c)).flatten
def calibrating (s : State) (body : List Byte) : State := posted s 0 .calibrate 0x26 body
def fullStore (s : State) : State := withStore s (fun x => { x with list := List.replicate 15 ⟨⟨9, 1, 5⟩, .none, false, 3, 0⟩ })

/-- The hypotheses of `CalibrateAndClearLogTakeEffect` are met, clause by clause. -/
theorem witness_CalibrateAndClearLogTakeEffect :
    (∃ s : State, s.store.image.wf = true ∧ s.Offers .calibrate 0 (meterCode b3) ∧ s.storeOpen false ∧ s.inSale b3.side = false ∧
      200000 ≤ (fun off len => s.bodyField 0 off len) 0 4 ∧ (fun off len => s.bodyField 0 off len) 0 4 ≤ 2000000 ∧
      1 ≤ (fun off len => s.bodyField 0 off len) 4 2 ∧ (fun off len => s.bodyField 0 off len) 4 2 < (fun off len => s.bodyField 0 off len) 6 2 ∧
      (fun off len => s.bodyField 0 off len) 6 2 < (fun off len => s.bodyField 0 off len) 8 2 ∧ (fun off len => s.bodyField 0 off len) 8 2 ≤ 2000 ∧
      (∀ i < 4, -20000 ≤ signedOf 16 ((fun off len => s.bodyField 0 off len) (10 + 2 * i) 2) ∧ signedOf 16 ((fun off len => s.bodyField 0 off len)
        (10 + 2 * i) 2) ≤ 20000))
    ∧ (∃ s : State, s.store.image.wf = true ∧ s.Offers .calibrate 0 (meterCode b3) ∧ s.storeOpen false ∧ s.inSale b3.side = false ∧
      200000 ≤ (fun off len => s.bodyField 0 off len) 0 4 ∧ (fun off len => s.bodyField 0 off len) 0 4 ≤ 2000000 ∧
      1 ≤ (fun off len => s.bodyField 0 off len) 4 2 ∧ (fun off len => s.bodyField 0 off len) 4 2 < (fun off len => s.bodyField 0 off len) 6 2 ∧
      (fun off len => s.bodyField 0 off len) 6 2 < (fun off len => s.bodyField 0 off len) 8 2 ∧ (fun off len => s.bodyField 0 off len) 8 2 ≤ 2000 ∧
      (∀ i < 4, -20000 ≤ signedOf 16 ((fun off len => s.bodyField 0 off len) (10 + 2 * i) 2) ∧ signedOf 16 ((fun off len => s.bodyField 0 off len)
        (10 + 2 * i) 2) ≤ 20000))
    ∧ (∃ s : State, s.store.image.wf = true ∧ s.Offers .clearLog 0 0 ∧ s.storeOpen true) := by
  refine ⟨⟨calibrating (logged 31 ready) (calibration 200000 1 2 3 20000), ?_⟩,
    ⟨calibrating (fullStore (logged 0 ready)) (calibration 2000000 1998 1999 2000 45536), ?_⟩, ⟨posted (logged 32 ready) 0 .clearLog 0 [], ?_⟩⟩
  all_goals try simp only [offers_iff, portLaw_iff, steady_iff, State.storeOpen]
  all_goals and_intros
  all_goals first | exact good rfl | decide +kernel

def grades (share : Nat) : List Byte :=
  let four := (List.replicate 4 ([1, 1] ++ bytesBE 2 share)).flatten ++ [0, 2] ++ bytesBE 2 share
  four ++ four
def settingsBody (a b c e share address source fitted : Nat) : List Byte :=
  bytesBE 2 a ++ bytesBE 2 b ++ bytesBE 2 c ++ bytesBE 2 e ++ grades share ++ List.replicate 8 (BitVec.ofNat 8 address)
    ++ List.replicate 4 (BitVec.ofNat 8 source) ++ [BitVec.ofNat 8 fitted]
def configuring (s : State) (body : List Byte) : State := posted s 0 .setSettings 0 body

/-- The hypotheses of `SetSettingsReplacesTheBlock` are met, clause by clause. -/
theorem witness_SetSettingsReplacesTheBlock :
    (∃ s : State, s.Offers .setSettings 0 0 ∧ s.storeOpen false ∧ s.store.image.wf = true ∧ (∀ (d : Side), s.inSale d = false) ∧
      (∀ (d : Side), s.readerHolds d = false) ∧ (∀ (d : Side), (s.rdr.get d).sends = [] ∧ (s.disp.lines.get d).order = none) ∧ 10 ≤ (fun off len => s.bodyField 0 off len) 0 2 ∧
      (fun off len => s.bodyField 0 off len) 0 2 ≤ 200 ∧ 5 ≤ (fun off len => s.bodyField 0 off len) 2 2 ∧
      (fun off len => s.bodyField 0 off len) 2 2 ≤ 50 ∧ 200 ≤ (fun off len => s.bodyField 0 off len) 4 2 ∧
      (fun off len => s.bodyField 0 off len) 4 2 ≤ 3000 ∧ (fun off len => s.bodyField 0 off len) 6 2 ≤ 10 ∧
      (∀ i < 10, (fun off len => s.bodyField 0 off len) (8 + 4 * i) 1 ≤ 1 ∧ ((fun off len => s.bodyField 0 off len) (9 + 4 * i) 1 = if i % 5 = 4
        then 2 else 1) ∧ (fun off len => s.bodyField 0 off len) (10 + 4 * i) 2 ≤ 1000))
    ∧ (∃ s : State, s.Offers .setSettings 0 0 ∧ s.storeOpen false ∧ s.store.image.wf = true ∧ (∀ (d : Side), s.inSale d = false) ∧
      (∀ (d : Side), (s.rdr.get d).sends = [] ∧ (s.disp.lines.get d).order = none) ∧ 10 ≤ (fun off len => s.bodyField 0 off len) 0 2 ∧
      (fun off len => s.bodyField 0 off len) 0 2 ≤ 200 ∧ 5 ≤ (fun off len => s.bodyField 0 off len) 2 2 ∧
      (fun off len => s.bodyField 0 off len) 2 2 ≤ 50 ∧ 200 ≤ (fun off len => s.bodyField 0 off len) 4 2 ∧
      (fun off len => s.bodyField 0 off len) 4 2 ≤ 3000 ∧ (fun off len => s.bodyField 0 off len) 6 2 ≤ 10 ∧
      (∀ i < 10, (fun off len => s.bodyField 0 off len) (8 + 4 * i) 1 ≤ 1 ∧ ((fun off len => s.bodyField 0 off len) (9 + 4 * i) 1 = if i % 5 = 4
        then 2 else 1) ∧ (fun off len => s.bodyField 0 off len) (10 + 4 * i) 2 ≤ 1000))
    ∧ (∃ s : State, s.Offers .setSettings 0 0 ∧ s.storeOpen false ∧ s.store.image.wf = true ∧ (∀ (d : Side), s.inSale d = false) ∧
      (∀ (d : Side), (s.rdr.get d).sends = [] ∧ (s.disp.lines.get d).order = none) ∧ 10 ≤ (fun off len => s.bodyField 0 off len) 0 2 ∧
      (fun off len => s.bodyField 0 off len) 0 2 ≤ 200 ∧ 5 ≤ (fun off len => s.bodyField 0 off len) 2 2 ∧
      (fun off len => s.bodyField 0 off len) 2 2 ≤ 50 ∧ 200 ≤ (fun off len => s.bodyField 0 off len) 4 2 ∧
      (fun off len => s.bodyField 0 off len) 4 2 ≤ 3000 ∧ (fun off len => s.bodyField 0 off len) 6 2 ≤ 10 ∧
      (∀ i < 10, (fun off len => s.bodyField 0 off len) (8 + 4 * i) 1 ≤ 1 ∧ ((fun off len => s.bodyField 0 off len) (9 + 4 * i) 1 = if i % 5 = 4
        then 2 else 1) ∧ (fun off len => s.bodyField 0 off len) (10 + 4 * i) 2 ≤ 1000)) := by
  refine ⟨⟨configuring ready (settingsBody 10 5 200 0 0 0 1 0), ?_⟩,
    ⟨configuring (logged 31 ready) (settingsBody 200 50 3000 10 1000 0x77 4 3), ?_⟩,
    ⟨configuring (withHead ready .saleB (fun x => { x with state := .failed })) (settingsBody 40 20 1000 2 500 0x08 4 2), ?_⟩⟩
  all_goals try simp only [offers_iff, portLaw_iff, steady_iff, State.storeOpen, all_side]
  all_goals and_intros
  all_goals first | exact good rfl | decide +kernel

/-- INIT_TOTALS with six totals, the last one given. -/
def totalling (s : State) (last : Nat) : State := posted s 0 .initTotals 0 ((List.replicate 5 (bytesBE 8 5)).flatten ++ bytesBE 8 last)
def storeAs (f : StorePort → StorePort) : State := totalling (withStore ready f) 999999999999
def lastEvent : State := withStore ready (fun x => { x with copy := some (image.writeAll 186 (bytesBE 8 4294967296)) })
def totalsLost : State :=
  withPw { ready with fp := ⟨{ ready.fp.a with state := .unavailable }, { ready.fp.b with state := .unavailable, lift1 := some 7 }⟩ }
    (fun p => { p with totalsInvalid := true })

/-- The hypotheses of `InitTotalsTestsThenSetsTheTotals` are met, clause by clause. -/
theorem witness_InitTotalsTestsThenSetsTheTotals :
    (∃ s : State, s.Offers .initTotals 0 0 ∧ 5 < 6 ∧ 999999999999 < (fun i => s.bodyField 0 (8 * i) 8) 5 ∧
      (∀ j < 5, (fun i => s.bodyField 0 (8 * i) 8) j ≤ 999999999999))
    ∧ (∃ s : State, s.Offers .initTotals 0 0 ∧ (∀ i < 6, (fun i => s.bodyField 0 (8 * i) 8) i ≤ 999999999999) ∧ s.store.absent = true)
    ∧ (∃ s : State, s.Offers .initTotals 0 0 ∧ (∀ i < 6, (fun i => s.bodyField 0 (8 * i) 8) i ≤ 999999999999) ∧ s.store.absent = false ∧
      s.store.switchOn = false)
    ∧ (∃ s : State, s.Offers .initTotals 0 0 ∧ (∀ i < 6, (fun i => s.bodyField 0 (8 * i) 8) i ≤ 999999999999) ∧ s.store.absent = false ∧
      s.store.switchOn = true ∧ 32 ≤ logCount s.store.image)
    ∧ (∃ s : State, s.Offers .initTotals 0 0 ∧ (∀ i < 6, (fun i => s.bodyField 0 (8 * i) 8) i ≤ 999999999999) ∧ s.store.absent = false ∧
      s.store.switchOn = true ∧ logCount s.store.image < 32 ∧ 4294967295 < nextEvent s.store.image)
    ∧ (∃ s : State, s.Offers .initTotals 0 0 ∧ (∀ i < 6, (fun i => s.bodyField 0 (8 * i) 8) i ≤ 999999999999) ∧ s.store.absent = false ∧
      s.store.switchOn = true ∧ logCount s.store.image < 32 ∧ nextEvent s.store.image ≤ 4294967295 ∧
      (s.store.reloadDue = true ∨ s.store.reloading = true))
    ∧ (∃ s : State, s.Offers .initTotals 0 0 ∧ (∀ i < 6, (fun i => s.bodyField 0 (8 * i) 8) i ≤ 999999999999) ∧ s.store.absent = false ∧
      s.store.switchOn = true ∧ logCount s.store.image < 32 ∧ nextEvent s.store.image ≤ 4294967295 ∧ s.store.reloadDue = false ∧
      s.store.reloading = false ∧ 16 ≤ s.store.list.length)
    ∧ (∃ s : State, s.Offers .initTotals 0 0 ∧ (∀ i < 6, (fun i => s.bodyField 0 (8 * i) 8) i ≤ 999999999999) ∧ s.storeOpen false ∧
      (∀ (d : Side), s.fpState d = .idle ∨ s.fpState d = .calling ∨ s.fpState d = .finished ∨ s.fpState d = .authorized → s.fuelable d = true))
    ∧ (∃ s : State, s.Offers .initTotals 0 0 ∧ (∀ i < 6, (fun i => s.bodyField 0 (8 * i) 8) i ≤ 999999999999) ∧ s.storeOpen false ∧
      (∀ (d : Side), s.fpState d = .idle ∨ s.fpState d = .calling ∨ s.fpState d = .finished ∨ s.fpState d = .authorized → s.fuelable d = true)) := by
  refine ⟨⟨totalling ready 1000000000000, ?_⟩, ⟨storeAs (fun x => { x with absent := true }), ?_⟩,
    ⟨storeAs (fun x => { x with switchOn := false }), ?_⟩, ⟨totalling (logged 32 ready) 0, ?_⟩, ⟨totalling lastEvent 0, ?_⟩,
    ⟨storeAs (fun x => { x with reloading := true }), ?_⟩,
    ⟨storeAs (fun x => { x with list := List.replicate 16 ⟨⟨9, 1, 5⟩, .none, false, 3, 0⟩ }), ?_⟩,
    ⟨totalling (logged 31 ready) 999999999999, ?_⟩, ⟨totalling totalsLost 0, ?_⟩⟩
  all_goals try simp only [offers_iff, portLaw_iff, steady_iff, State.storeOpen, all_side]
  all_goals and_intros
  all_goals first | exact good rfl | decide +kernel

/-- The working copy differs from the reference CRC. -/
def mismatched (s : State) : State := withStore s (fun x => { x with refCrc := x.refCrc + 1 })
def reloading (s : State) : State := withStore s (fun x => { x with reloading := true })

/-- The hypotheses of `SwitchChecksAndReloads` are met, clause by clause. -/
theorem witness_SwitchChecksAndReloads :
    (∃ s : State, s.steady ∧ s.store.switchOn ≠ false)
    ∧ (∃ s : State, s.steady ∧ s.store.switchOn = true)
    ∧ (∃ s : State, s.steady ∧ Option.isSome s.store.check = true ∧ imageCrc s.store.image = s.store.refCrc ∧ imageCheck = s.store.refCrc)
    ∧ (∃ s : State, s.steady ∧ Option.isSome s.store.check = true ∧
      (¬(s.store.absent = false ∧ s.store.fault = false ∧ s.store.list = [] ∧ s.store.write = none ∧ s.store.reloadDue = false ∧ s.store.reloading
        = false)))
    ∧ (∃ s : State, s.steady ∧ Option.isSome s.store.check = true ∧
      (s.store.absent = false ∧ s.store.fault = false ∧ s.store.list = [] ∧ s.store.write = none ∧ s.store.reloadDue = false ∧ s.store.reloading =
        false) ∧
      65535#16 ≠ s.store.refCrc ∧ s.pw.state = .active)
    ∧ (∃ s : State, s.steady ∧ Option.isSome s.store.check = true ∧
      (s.store.absent = false ∧ s.store.fault = false ∧ s.store.list = [] ∧ s.store.write = none ∧ s.store.reloadDue = false ∧ s.store.reloading =
        false) ∧
      0 ≠ s.store.refCrc ∧ s.pw.state = .active)
    ∧ (∃ s : State, s.steady ∧ s.store.reloadDue = true ∧ s.store.list = [] ∧ (∀ (d : Side), s.inSale d = false) ∧
      (s.pw.state = .waking ∨ s.pw.state = .active ∨ s.pw.state = .halted ∨ s.pw.state = .shuttingDown))
    ∧ (∃ s : State, s.steady ∧ s.store.reloading = true ∧ (∀ (d : Side), s.inSale d = false) ∧
      (∀ (d : Side), s.readerHolds d = false) ∧ (∀ (d : Side), (s.rdr.get d).sends = [] ∧ (s.disp.lines.get d).order = none) ∧ (Memory.ofCells 1156 storeImage).read 0 ≠ 0 ∧
      (Memory.ofCells 1156 storeImage).read 0 ≠ 255)
    ∧ (∃ s : State, s.steady ∧ s.store.reloading = true ∧ (∀ (d : Side), s.inSale d = false) ∧
      (∀ (d : Side), (s.rdr.get d).sends = [] ∧ (s.disp.lines.get d).order = none) ∧ (Memory.ofCells 1156 [(0, 1)]).read 0 ≠ 0 ∧
      (Memory.ofCells 1156 [(0, 1)]).read 0 ≠ 255) := by
  refine ⟨⟨ready, ?_⟩, ⟨ready, ?_⟩, ⟨ready, ?_⟩, ⟨mismatched (fullStore ready), ?_⟩, ⟨selling .fueling, ?_⟩, ⟨ready, ?_⟩,
    ⟨withStore (halted ready) (fun x => { x with reloadDue := true }), ?_⟩,
    ⟨reloading (withHead ready .saleB (fun x => { x with state := .failed })), ?_⟩, ⟨reloading ready, ?_⟩⟩
  all_goals try simp only [steady_iff, all_side]
  all_goals and_intros
  all_goals first | exact good rfl | decide +kernel

def storeOrder : StoreOrder := ⟨⟨4, 1, 950⟩, .none, false, 12, 3⟩
def writing (part : StorePart) (rest : List StorePage) : State :=
  let s := withStore ready (fun x => { x with list := [storeOrder], write := some ⟨part, ⟨1154, [1, 2]⟩, rest, 0x1234⟩ })
  { s with mem := Memory.writeAll [] (slotAddr 4) [2, 0, 0x52, 0], port := { s.port with takes := s.port.takes.set 4 1 } }
def writeOf (s : State) : StoreWrite := s.store.write.getD ⟨.crc, ⟨0, []⟩, [], 0⟩

/-- The hypotheses of `StorePagesEndInACompletion` are met, clause by clause. -/
theorem witness_StorePagesEndInACompletion :
    (∃ s : State, s.steady ∧ s.store.write = some (writeOf s) ∧ s.store.list = [storeOrder] ∧ (writeOf s).rest = [{ addr := 192, bytes := [9] }])
    ∧ (∃ s : State, s.steady ∧ s.store.write = some (writeOf s) ∧ s.store.list = [storeOrder] ∧ (writeOf s).part = .crc ∧ (writeOf s).rest = [])
    ∧ (∃ s : State, s.steady ∧ s.store.write = some (writeOf s) ∧ s.store.list = [storeOrder] ∧
      (Instr.storePageDone [1] = Instr.storeCycleTimeout ∨ Instr.storePageDone [1] = Instr.storePageDone [1] ∧ [1] ≠ (writeOf s).page.bytes))
    ∧ (∃ s : State, s.steady ∧ s.store.write = some (writeOf s) ∧ s.store.list = [storeOrder] ∧
      (Instr.storeCycleTimeout = Instr.storeCycleTimeout ∨ Instr.storeCycleTimeout = Instr.storePageDone [1, 2] ∧ [1, 2] ≠ (writeOf s).page.bytes)) := by
  refine ⟨⟨writing .log [⟨192, [9]⟩], ?_⟩, ⟨writing .crc [], ?_⟩, ⟨writing .crc [], ?_⟩, ⟨writing .block [], ?_⟩⟩
  all_goals try simp only [steady_iff]
  all_goals and_intros
  all_goals first | exact good rfl | decide +kernel

/-- A store write that waits for the end of a part, the order at its head changing a block, under the rewrite-all mark or not. -/
def partEnd (part : StorePart) (block : ParamBlock) (rewriteAll : Bool) (copy : Option Memory) (more : List StoreOrder) : State :=
  withStore (writing part []) (fun x => { x with list := { storeOrder with block := block } :: more, rewriteAll := rewriteAll, copy := copy })

/-- The hypotheses of the clauses of `StorePagesEndInACompletion` on the end of a part and on a longer list are met. -/
theorem witness_StorePagesEndInACompletion_parts :
    (∃ s : State, s.steady ∧ s.store.write = some (writeOf s) ∧ s.store.list = [{ storeOrder with block := .settings }] ∧ (writeOf s).rest = [] ∧
      (writeOf s).part ≠ .crc ∧ s.store.copy = none)
    ∧ (∃ s : State, s.steady ∧ s.store.write = some (writeOf s) ∧ s.store.list = [{ storeOrder with block := .meter b3 }] ∧ (writeOf s).rest = [] ∧
      (writeOf s).part = .log ∧ s.store.rewriteAll = false ∧ s.store.copy = some image)
    ∧ (∃ s : State, s.steady ∧ s.store.write = some (writeOf s) ∧ s.store.list = [storeOrder] ∧ (writeOf s).rest = [] ∧
      (writeOf s).part = .log ∧ s.store.rewriteAll = false ∧ s.store.copy = some image ∧ blockPages image storeOrder.block = [])
    ∧ (∃ s : State, s.steady ∧ s.store.write = some (writeOf s) ∧ s.store.list = [storeOrder] ∧ (writeOf s).rest = [] ∧
      (writeOf s).part = .log ∧ s.store.rewriteAll = true ∧ s.store.copy = some (image.write 183 7) ∧ (image.write 183 7).wf = true)
    ∧ (∃ s : State, s.steady ∧ s.store.write = some (writeOf s) ∧ s.store.list = [storeOrder, storeOrder] ∧ (writeOf s).rest = [] ∧
      (writeOf s).part = .block ∧ s.store.copy = some image)
    ∧ (∃ s : State, s.steady ∧ s.store.write = some (writeOf s) ∧ s.store.list = [storeOrder, storeOrder] ∧ (writeOf s).rest = [] ∧
      (writeOf s).part = .crc)
    ∧ (∃ s : State, s.steady ∧ s.store.write = some (writeOf s) ∧ s.store.list = [storeOrder, storeOrder] ∧ (writeOf s).rest = [] ∧
      (writeOf s).part = .crc ∧ s.pw.state = .powerFail) := by
  refine ⟨⟨partEnd .block .settings false none [], ?_⟩, ⟨partEnd .log (.meter b3) false (some image) [], ?_⟩,
    ⟨partEnd .log .none false (some image) [], ?_⟩, ⟨partEnd .log .none true (some (image.write 183 7)) [], ?_⟩,
    ⟨partEnd .block .none false (some image) [storeOrder], ?_⟩, ⟨partEnd .crc .none false (some image) [storeOrder], ?_⟩,
    ⟨withPw (partEnd .crc .none false none [storeOrder]) (fun p => { p with state := .powerFail }), ?_⟩⟩
  all_goals try simp only [steady_iff]
  all_goals and_intros
  all_goals first | exact good rfl | decide +kernel

def clocking (watch lock : Timer) (retried : Bool) : State :=
  withPw (waking .clock) (fun p => { p with crystalWatch := watch, lockWait := lock, pllRetried := retried, pll := false })

/-- The hypotheses of `TheClockPhaseChoosesTheSource` are met, clause by clause. -/
theorem witness_TheClockPhaseChoosesTheSource :
    (∃ s : State, s.steady ∧ s.pw.state = .waking ∧ s.pw.phase = .clock ∧ Option.isSome s.pw.crystalWatch = true)
    ∧ (∃ s : State, s.steady ∧ s.pw.state = .waking ∧ s.pw.phase = .clock ∧ Option.isSome s.pw.lockWait = true)
    ∧ (∃ s : State, s.steady ∧ s.pw.state = .waking ∧ s.pw.phase = .clock ∧ Option.isSome s.pw.lockWait = true ∧ s.pw.pllRetried = false)
    ∧ (∃ s : State, s.steady ∧ s.pw.state = .waking ∧ s.pw.phase = .clock ∧ Option.isSome s.pw.lockWait = true ∧ s.pw.pllRetried = true)
    ∧ (∃ s : State, s.steady ∧ (s.pw.pll = false ∨ s.pw.osc = false))
    ∧ (∃ s : State, s.steady ∧ s.pw.pll = true ∧ s.pw.osc = true) := by
  refine ⟨⟨clocking (some 20) none false, ?_⟩, ⟨clocking none (some 5) false, ?_⟩, ⟨clocking none (some 5) false, ?_⟩,
    ⟨clocking none (some 5) true, ?_⟩, ⟨clocking none (some 5) true, ?_⟩, ⟨withPw (selling .settling) (fun p => { p with osc := true }), ?_⟩⟩
  all_goals try simp only [steady_iff]
  all_goals and_intros
  all_goals first | exact good rfl | decide +kernel

def levels : Sides (Three LevelPair) :=
  ⟨⟨⟨true, false⟩, ⟨true, true⟩, ⟨false, true⟩⟩, ⟨⟨false, false⟩, ⟨true, false⟩, ⟨true, true⟩⟩⟩
/-- The STORE phase of a wake: side B LOCKED in retention memory. -/
def loading (intact : Bool) : State :=
  withSide { waking .store with ret := { ready.ret with intact := intact } } .b (fun r => { r with locked := true, lockCause := some .overrun })

/-- The hypotheses of `TheStorePhaseLoadsAndDecodes` are met, clause by clause. -/
theorem witness_TheStorePhaseLoadsAndDecodes :
    (∃ s : State, s.steady ∧ s.pw.state = .waking ∧ s.pw.phase = .store ∧
      (∀ (d : Side), s.fpState d = if (s.ret.sides.get d).locked = true then .locked else .unavailable) ∧
      (Memory.ofCells 1156 storeImage).read 0 ≠ 0 ∧ (Memory.ofCells 1156 storeImage).read 0 ≠ 255 ∧
      (s.ret.intact = true → s.ret.pendingSet = none ∧ ∀ (d : Side), (s.sale d).status ≠ SaleStatus.opened ∧ (s.sale d).status ≠
        SaleStatus.interrupted))
    ∧ (∃ s : State, s.steady ∧ s.pw.state = .waking ∧ s.pw.phase = .store ∧
      (∀ (d : Side), s.fpState d = if (s.ret.sides.get d).locked = true then .locked else .unavailable) ∧
      (Memory.ofCells 1156 [(0, 1), (41, 7)]).read 0 ≠ 0 ∧ (Memory.ofCells 1156 [(0, 1), (41, 7)]).read 0 ≠ 255 ∧
      (s.ret.intact = true → s.ret.pendingSet = none ∧ ∀ (d : Side), (s.sale d).status ≠ SaleStatus.opened ∧ (s.sale d).status ≠
        SaleStatus.interrupted)) := by
  refine ⟨⟨loading true, ?_⟩, ⟨loading false, ?_⟩⟩
  all_goals try simp only [steady_iff, all_side]
  all_goals and_intros
  all_goals first | exact good rfl | decide +kernel

/-- The STORE phase of a wake after a warning that cut a sale of side A, with this end cause and volume and an amount that does not follow from
them, side B having had an open one without volume, and a price set pending for the order in slot 7. -/
def afterCut (c : Cause) (volume : Nat) : State :=
  let s := { waking .store with ret := ready.ret, disp := { Display.powerUp with lines := ready.disp.lines } }
  let s := withSide s .a (fun r => { r with counter := 65535, sale := { openSale .a with status := .interrupted, endCause := some c, volume := volume,
                                                                                           products := ⟨5 * volume, 5 * volume, 0⟩ } })
  let s := withSide s .b (fun r => { r with sale := { openSale .b with volume := 0, products := ⟨0, 0, 0⟩ } })
  let s := withFp s .a (fun f => { f with state := .settling })
  { pendingFor s ⟨true, false⟩ with price := ⟨some ⟨7, 1, 980⟩⟩ }

/-- The hypotheses of the second clause of `TheStorePhaseLoadsAndDecodes` are met. -/
theorem witness_TheStorePhaseLoadsAndDecodes_finalizes :
    (∃ s : State, s.steady ∧ s.pw.state = .waking ∧ s.pw.phase = .store ∧ (Memory.ofCells 1156 storeImage).read 0 ≠ 0 ∧
      (Memory.ofCells 1156 storeImage).read 0 ≠ 255 ∧ s.ret.intact = true ∧ (∀ r, (s.head r).state.shows = false) ∧
      (s.sale .a).cutShort = true ∧ (s.sale .a).leavesLock = none ∧ s.ret.pendingSet.isSome = true)
    ∧ (∃ s : State, s.steady ∧ s.pw.state = .waking ∧ s.pw.phase = .store ∧ (Memory.ofCells 1156 storeImage).read 0 ≠ 0 ∧
      (Memory.ofCells 1156 storeImage).read 0 ≠ 255 ∧ s.ret.intact = true ∧ (∀ r, (s.head r).state.shows = false) ∧
      (s.sale .a).cutShort = true ∧ (s.sale .a).leavesLock = some .halt) := by
  refine ⟨⟨afterCut .powerLoss 999, ?_⟩, ⟨afterCut .halt 0, ?_⟩⟩
  all_goals try simp only [steady_iff, all_role]
  all_goals and_intros
  all_goals first | exact good rfl | decide +kernel

def standingBy (s : State) (wakeTime : Nat) : State := posted s 0 .standby 0 (bytesBE 4 wakeTime)
def standbyOrdered (awake : Bool) : State :=
  let s := withPw shuttingDown (fun p => { p with blanked := true, standbyOrder := some ⟨0, 0, 990⟩ })
  { s with mem := Memory.writeAll [] (slotAddr 0) [2, 0, 0x40, 0], port := { s.port with awake := awake } }

/-- The hypotheses of `StandbyIsTestedAndEntered` are met, clause by clause. -/
theorem witness_StandbyIsTestedAndEntered :
    (∃ s : State, s.Offers .standby 0 0 ∧ (¬(s.bodyField 0 0 4 = 0 ∨ BitVec.toNat s.rtc < s.bodyField 0 0 4)))
    ∧ (∃ s : State, s.Offers .standby 0 0 ∧ (s.bodyField 0 0 4 = 0 ∨ BitVec.toNat s.rtc < s.bodyField 0 0 4) ∧ s.pw.state = .halted)
    ∧ (∃ s : State, s.Offers .standby 0 0 ∧ (s.bodyField 0 0 4 = 0 ∨ BitVec.toNat s.rtc < s.bodyField 0 0 4) ∧ s.pw.state = .active ∧
      ((fun d => s.inSale d = true ∨ s.fpState d = .authorized) .a))
    ∧ (∃ s : State, s.Offers .standby 0 0 ∧ (s.bodyField 0 0 4 = 0 ∨ BitVec.toNat s.rtc < s.bodyField 0 0 4) ∧ s.pw.state = .active ∧
      (¬(fun d => s.inSale d = true ∨ s.fpState d = .authorized) .a) ∧ ((fun d => s.inSale d = true ∨ s.fpState d = .authorized) .b))
    ∧ (∃ s : State, s.Offers .standby 0 0 ∧ (s.bodyField 0 0 4 = 0 ∨ BitVec.toNat s.rtc < s.bodyField 0 0 4) ∧ s.pw.state = .active ∧
      (∀ (d : Side), ¬(fun d => s.inSale d = true ∨ s.fpState d = .authorized) d))
    ∧ (∃ s : State, s.steady ∧ s.pw.state = .shuttingDown ∧ s.pw.blanked = true ∧ s.store.list = [] ∧ s.pw.wakeRequest = none ∧
      s.pw.standbyOrder = some { slot := 0, take := 0, time := 990 })
    ∧ (∃ s : State, s.steady ∧ s.pw.state = .shuttingDown ∧ s.pw.blanked = true ∧ s.store.list = [] ∧ s.pw.wakeRequest = none ∧
      s.pw.standbyOrder = some { slot := 0, take := 0, time := 990 }) := by
  refine ⟨⟨standingBy ready 1000, ?_⟩, ⟨standingBy (halted ready) 1001, ?_⟩, ⟨standingBy (authorized ready) 0, ?_⟩,
    ⟨standingBy (withFp ready .b (fun f => { f with state := .settling })) 0, ?_⟩, ⟨standingBy (faulted .p1 (readerIn .ready withSend)) 1001, ?_⟩,
    ⟨standbyOrdered false, ?_⟩, ⟨standbyOrdered true, ?_⟩⟩
  all_goals try simp only [offers_iff, portLaw_iff, steady_iff, all_side]
  all_goals and_intros
  all_goals first | exact good rfl | decide +kernel

def inStandby (wakeTime : Nat) : State :=
  let s := withPw (waking .none) (fun p => { p with state := .standby, osc := false, pll := false })
  { s with ret := { s.ret with wakeTime := BitVec.ofNat 32 wakeTime } }
def late (wakeTime : Nat) (r : Option WakeCause) : State :=
  let s := withPw shuttingDown (fun p => { p with wakeRequest := r })
  { s with ret := { s.ret with wakeTime := BitVec.ofNat 32 wakeTime } }

/-- The hypotheses of `WakeSourcesBeginAWake` are met, clause by clause. -/
theorem witness_WakeSourcesBeginAWake :
    (∃ s : State, s.steady ∧ s.pw.state = .standby)
    ∧ (∃ s : State, s.steady ∧ s.pw.state = .standby ∧ (s.ret.wakeTime ≠ 0 ∧ BitVec.toNat s.ret.wakeTime ≤ BitVec.toNat s.rtc))
    ∧ (∃ s : State, s.steady ∧ s.pw.state = .shuttingDown)
    ∧ (∃ s : State, s.steady ∧ s.pw.state = .shuttingDown ∧ (s.ret.wakeTime ≠ 0 ∧ BitVec.toNat s.ret.wakeTime ≤ BitVec.toNat s.rtc))
    ∧ (∃ s : State, s.Offers .wake 0 0 ∧ (s.pw.state = .active ∨ s.pw.state = .halted))
    ∧ (∃ s : State, s.Offers .wake 0 0 ∧ s.pw.state = .standby ∧ s.store.list = [] ∧ (∀ (d : Side), (s.disp.lines.get d).order = none) ∧
      s.port.asleep = false) := by
  refine ⟨⟨inStandby 0, ?_⟩, ⟨inStandby 1000, ?_⟩, ⟨late 0 none, ?_⟩, ⟨late 1000 (some .wakePin), ?_⟩, ⟨posted ready 0 .wake 0 [], ?_⟩,
    ⟨posted (inStandby 0) 0 .wake 0 [], ?_⟩⟩
  all_goals try simp only [offers_iff, portLaw_iff, steady_iff, all_side]
  all_goals and_intros
  all_goals first | exact good rfl | decide +kernel

def clockTo (s : State) (target value : Nat) : State := posted s 0 .setClock target (bytesBE 4 value)

/-- The hypotheses of `SetClockSetsTheCounter` are met, clause by clause. -/
theorem witness_SetClockSetsTheCounter :
    (∃ s : State, s.Offers .setClock 0 1 ∧ 1 ≠ 0)
    ∧ (∃ s : State, s.Offers .setClock 0 0 ∧ 0 = 0 ∧ s.pw.state = .halted)
    ∧ (∃ s : State, s.Offers .setClock 0 0 ∧ 0 = 0 ∧
      (s.pw.state = .active ∨ s.pw.state = .standby ∧ ¬(s.ret.wakeTime ≠ 0 ∧ BitVec.toNat s.ret.wakeTime ≤ (BitVec.ofNat 32 (s.bodyField 0 0
        4)).toNat)))
    ∧ (∃ s : State, s.Offers .setClock 0 0 ∧ 0 = 0 ∧
      (s.pw.state = .active ∨ s.pw.state = .standby ∧ ¬(s.ret.wakeTime ≠ 0 ∧ BitVec.toNat s.ret.wakeTime ≤ (BitVec.ofNat 32 (s.bodyField 0 0
        4)).toNat)))
    ∧ (∃ s : State, s.Offers .setClock 0 0 ∧ 0 = 0 ∧ s.pw.state = .standby ∧
      (s.ret.wakeTime ≠ 0 ∧ BitVec.toNat s.ret.wakeTime ≤ (BitVec.ofNat 32 (s.bodyField 0 0 4)).toNat) ∧ s.store.list = [] ∧
      (∀ (d : Side), (s.disp.lines.get d).order = none) ∧ s.port.asleep = false) := by
  refine ⟨⟨clockTo ready 1 0, ?_⟩, ⟨clockTo (halted ready) 0 0, ?_⟩, ⟨clockTo ready 0 4294967295, ?_⟩, ⟨clockTo (inStandby 2000) 0 1999, ?_⟩,
    ⟨clockTo (inStandby 2000) 0 2000, ?_⟩⟩
  all_goals try simp only [offers_iff, portLaw_iff, steady_iff, all_side]
  all_goals and_intros
  all_goals first | exact good rfl | decide +kernel

/-- The segment test of a wake, its stale deadlines stopped. -/
def undeadlined : State :=
  withDisp testing (fun x => { x with heads := Eight.ofFun (fun r => { x.heads.get r with stale := none }) })
def resetting : State := withPw (selling .settling) (fun p => { p with resetHold := some 500 })

/-- The hypotheses of `WarningsAndResetsStopTheDevice` are met, clause by clause. -/
theorem witness_WarningsAndResetsStopTheDevice :
    (∃ s : State, s.steady ∧ s.pw.state ≠ .powerFail ∧ s.pw.resetHold = none)
    ∧ (∃ s : State, s.steady ∧ s.pw.state ≠ .powerFail ∧ s.pw.resetHold = none)
    ∧ (∃ s : State, s.steady ∧ s.pw.state ≠ .powerFail)
    ∧ (∃ s : State, s.steady ∧ s.pw.state ≠ .powerFail ∧ s.portAnswers = true) := by
  refine ⟨⟨selling .fueling, ?_⟩, ⟨bothSelling, ?_⟩, ⟨resetting, ?_⟩, ⟨locked (readerIn .ready withSend), ?_⟩⟩
  all_goals try simp only [steady_iff]
  all_goals and_intros
  all_goals first | exact good rfl | decide +kernel

/-- The hypotheses of `WarningsAndResetsStopTheDevice` are met in the segment test of a wake, where a sale head has no stale deadline. -/
theorem witness_WarningsAndResetsStopTheDevice_deadlines :
    ∃ s : State, s.steady ∧ s.pw.state ≠ .powerFail ∧ s.pw.resetHold = none ∧ s.disp.call ≠ some ⟨.blank, true⟩
      ∧ (s.head .saleA).state.shows = true ∧ (s.head .saleA).stale = none := by
  refine ⟨undeadlined, ?_⟩
  simp only [steady_iff]
  and_intros
  all_goals first | exact good rfl | decide +kernel

/-- The hypotheses of `WarningsAndResetsStopTheDevice` are met in a shutdown, and in HALTED. -/
theorem witness_WarningsAndResetsStopTheDevice_orders :
    (∃ s : State, s.steady ∧ s.pw.state ≠ .powerFail ∧ s.pw.resetHold = none ∧ s.pw.standbyOrder = some ⟨0, 0, 990⟩)
    ∧ (∃ s : State, s.steady ∧ s.pw.state ≠ .powerFail ∧ s.pw.resetHold = none ∧ s.halt.halted = true) := by
  refine ⟨⟨standbyOrdered false, ?_⟩, ⟨haltCode bothLocked, ?_⟩⟩
  all_goals try simp only [steady_iff]
  all_goals and_intros
  all_goals first | exact good rfl | decide +kernel

def powerFailed (f : Power → Power) : State := withPw (waking .none) (fun p => f { p with state := .powerFail })

/-- The hypotheses of `TheSupplyFallsAndReturns` are met, clause by clause. -/
theorem witness_TheSupplyFallsAndReturns :
    (∃ s : State, s.pw.mains = true ∧ s.rev.wrote = [])
    ∧ (∃ s : State, s.pw.mains = false)
    ∧ (∃ s : State, s.steady ∧ s.pw.state = .powerFail ∧ s.pw.warning = true)
    ∧ (∃ s : State, s.steady ∧ s.pw.state = .powerFail ∧ s.pw.warning = false ∧ Option.isSome s.pw.hold = true ∧ s.pw.resetHold = none ∧
      s.pw.cold = false)
    ∧ (∃ s : State, s.steady ∧ s.pw.state = .powerFail ∧ s.pw.warning = false ∧ Option.isSome s.pw.hold = true ∧ s.pw.resetHold = none ∧
      s.pw.cold = false)
    ∧ (∃ s : State, s.pw.mains = true)
    ∧ (∃ s : State, s.pw.mains = false)
    ∧ (∃ s : State, s.pw.mains = false) := by
  refine ⟨⟨{ ready with rtc := 4294967295 }, ?_⟩, ⟨unpowered, ?_⟩, ⟨powerFailed (fun p => { p with warning := true }), ?_⟩,
    ⟨powerFailed (fun p => { p with hold := some 500 }), ?_⟩,
    ⟨powerFailed (fun p => { p with hold := some 500, resetPending := true, lastWake := .resetPin }), ?_⟩, ⟨selling .settling, ?_⟩,
    ⟨unpowered, ?_⟩, ⟨unpowered, ?_⟩⟩
  all_goals try simp only [steady_iff]
  all_goals and_intros
  all_goals first | exact good rfl | decide +kernel

/-- The hypotheses of `ZeroingPrecedesTheWake` are met, clause by clause. -/
theorem witness_ZeroingPrecedesTheWake :
    (∃ s : State, s.steady ∧ s.pw.state = .powerFail ∧ s.pw.warning = false ∧ Option.isSome s.pw.resetHold = true ∧ s.pw.hold = none ∧
      WakeCause.resetRegister = s.pw.lastWake)
    ∧ (∃ s : State, s.steady ∧ s.pw.state = .powerFail ∧ s.pw.warning = false ∧ s.pw.cold = true ∧ Option.isSome s.pw.hold = true ∧
      s.pw.resetHold = none ∧ s.pw.resetPending = false) := by
  refine ⟨⟨powerFailed (fun p => { p with resetHold := some 500, resetMax := some 5000, resetPending := true, lastWake := .resetRegister }), ?_⟩,
    ⟨powerFailed (fun p => { p with hold := some 500, cold := true }), ?_⟩⟩
  all_goals try simp only [steady_iff]
  all_goals and_intros
  all_goals first | exact good rfl | decide +kernel

def posts (ns : List Nat) (st : Byte) : State := { ready with mem := Memory.writeAll [] (slotAddr 15) [st], port := { ready.port with posts := ns } }
def awakeStandby : State := { inStandby 0 with port := { ready.port with awake := true } }

/-- The hypotheses of `PostsAreTestedAndQueued` are met, clause by clause. -/
theorem witness_PostsAreTestedAndQueued :
    (∃ s : State, s.portAnswers = true ∧ s.rev.wrote = [] ∧ 15 < 16 ∧ 16 < 65536)
    ∧ (∃ s : State, s.portAnswers = true ∧ s.rev.wrote = [] ∧ 15 < 65535 ∧ 65535 < 65536)
    ∧ (∃ s : State, s.portAnswers = true ∧ s.rev.wrote = [] ∧ 15 ≤ 15 ∧ s.slotState 15 ≠ 1)
    ∧ (∃ s : State, s.portAnswers = true ∧ s.rev.wrote = [] ∧ 15 ≤ 15 ∧ s.slotState 15 = 1 ∧ 15 ∈ s.port.posts)
    ∧ (∃ s : State, s.portAnswers = true ∧ s.rev.wrote = [] ∧ 15 ≤ 15 ∧ s.slotState 15 = 1 ∧ 15 ∉ s.port.posts)
    ∧ (∃ s : State, s.portAnswers = true ∧ s.rev.wrote = [] ∧ s.port.posts.Nodup ∧ (∀ n ∈ s.port.posts, n < 16) ∧ 15 ∈ s.port.posts) := by
  refine ⟨⟨ready, ?_⟩, ⟨ready, ?_⟩, ⟨posts [] 2, ?_⟩, ⟨posts [15] 1, ?_⟩, ⟨posts [0] 1, ?_⟩, ⟨posts [0, 15] 1, ?_⟩⟩
  all_goals and_intros
  all_goals decide +kernel

def asleep : State := { inStandby 0 with port := { ready.port with asleep := true } }

/-- The hypotheses of `RegistersAndTransactionsAct` are met, clause by clause. -/
theorem witness_RegistersAndTransactionsAct :
    (∃ s : State, s.steady ∧ s.portAnswers = true)
    ∧ (∃ s : State, s.steady ∧ s.portAnswers = true)
    ∧ (∃ s : State, s.steady ∧ s.portAnswers = true ∧ writeIgnoredAt 0x4001 = true)
    ∧ (∃ s : State, s.steady ∧ s.portAnswers = true ∧ writeIgnoredAt 0x4006 = true)
    ∧ (∃ s : State, s.steady ∧ s.portAnswers = true ∧ 15 < (16#16).toNat)
    ∧ (∃ s : State, s.steady ∧ s.portAnswers = true ∧ s.slotState (15#16).toNat ≠ 1)
    ∧ (∃ s : State, s.steady ∧ s.portAnswers = true ∧ (15#16).toNat ∈ s.port.posts)
    ∧ (∃ s : State, s.steady ∧ s.portAnswers = true ∧ (16380#16).toNat + 4 ≤ 16384)
    ∧ (∃ s : State, s.steady ∧ s.portAnswers = true ∧ (0#16).toNat + 8 ≤ 16384)
    ∧ (∃ s : State, s.steady ∧ s.portAnswers = true)
    ∧ (∃ s : State, s.steady ∧ s.portAnswers = true ∧ 8192 ≤ (8192#16).toNat ∧ (8192#16).toNat + [1, 2].length ≤ 16384)
    ∧ (∃ s : State, s.steady ∧ s.portAnswers = true ∧ 8192 ≤ (16383#16).toNat ∧ (16383#16).toNat + [1].length ≤ 16384)
    ∧ (∃ s : State, s.steady ∧ s.portAnswers = true ∧
      ((4094#16).toNat + [1, 2].length ≤ 4096 ∨ 6144 ≤ (4094#16).toNat ∧ (4094#16).toNat + [1, 2].length ≤ 8192))
    ∧ (∃ s : State, s.steady ∧ s.portAnswers = true ∧
      ((8191#16).toNat + [1].length ≤ 4096 ∨ 6144 ≤ (8191#16).toNat ∧ (8191#16).toNat + [1].length ≤ 8192))
    ∧ (∃ s : State, s.steady ∧ s.portAnswers = true ∧ 7 < 8)
    ∧ (∃ s : State, s.steady ∧ s.portAnswers = true)
    ∧ (∃ s : State, s.steady ∧ s.portAnswers = true ∧ 159 ≠ 2 ∧ 159 ≠ 3)
    ∧ (∃ s : State, s.steady ∧ s.portAnswers = false)
    ∧ (∃ s : State, s.steady ∧ s.portAnswers = false)
    ∧ (∃ s : State, s.steady ∧ s.portAnswers = false) := by
  refine ⟨⟨ready, ?_⟩, ⟨awakeStandby, ?_⟩, ⟨ready, ?_⟩, ⟨ready, ?_⟩, ⟨ready, ?_⟩, ⟨posts [] 2, ?_⟩, ⟨posts [15] 1, ?_⟩,
    ⟨ready, ?_⟩, ⟨ready, ?_⟩, ⟨ready, ?_⟩, ⟨ready, ?_⟩, ⟨ready, ?_⟩, ⟨ready, ?_⟩, ⟨ready, ?_⟩, ⟨ready, ?_⟩, ⟨ready, ?_⟩, ⟨ready, ?_⟩,
    ⟨asleep, ?_⟩, ⟨asleep, ?_⟩, ⟨asleep, ?_⟩⟩
  all_goals try simp only [steady_iff]
  all_goals and_intros
  all_goals first | exact good rfl | decide +kernel

def unknown : State := { ready with mem := Memory.writeAll [] (slotAddr 0) [1, 0, 0x07], port := { ready.port with posts := [0] } }

/-- The hypotheses of `TakesThatReachNoOwner` are met, clause by clause. -/
theorem witness_TakesThatReachNoOwner :
    (∃ s : State, s.steady ∧ s.PortLaw ∧ s.port.posts.head? = some 0 ∧ (s.pw.state = .active ∨ s.pw.state = .halted ∨ s.pw.state = .standby) ∧
      s.slotState 0 = 1 ∧ (¬∃ k : OrderKind, s.slotKind 0 = k.code))
    ∧ (∃ s : State, s.steady ∧ s.PortLaw ∧ s.port.posts.head? = some 0 ∧ (s.pw.state = .active ∨ s.pw.state = .halted ∨ s.pw.state = .standby) ∧
      s.slotState 0 = 1 ∧ s.slotKind 0 = OrderKind.stop.code ∧ s.pw.state = .standby ∧ s.slotKind 0 ≠ 65 ∧ s.slotKind 0 ≠ 66)
    ∧ (∃ s : State, s.steady ∧ s.PortLaw ∧ s.port.posts.head? = some 0 ∧ (s.pw.state = .active ∨ s.pw.state = .halted ∨ s.pw.state = .standby) ∧
      s.slotState 0 ≠ 1) := by
  refine ⟨⟨unknown, ?_⟩, ⟨posted (inStandby 0) 0 .stop 1 [], ?_⟩, ⟨{ unknown with mem := [] }, ?_⟩⟩
  all_goals try simp only [portLaw_iff, steady_iff]
  all_goals and_intros
  all_goals first
    | exact good rfl
    | decide +kernel
    | (rintro ⟨k, hk⟩; revert hk; cases k <;> decide +kernel)

/-! ## What the check of commands refuses -/

theorem test_wf_button_g5 : (Instr.gradeButtonPress .a .g5).wellFormed = false ∧ (Instr.gradeButtonPress .a .g4).wellFormed = true := by decide

theorem test_wf_register : (Instr.registerWriteIgnored 0x4002 0).wellFormed = false ∧ (Instr.registerWriteIgnored 0x4006 0).wellFormed = true := by
  decide

theorem test_wf_command : (Instr.invalidCommand 0x03 1).wellFormed = false ∧ (Instr.invalidCommand 0x9F 1).wellFormed = true := by decide

theorem test_wf_spacing : (Instr.saleSpacingExpiry .priceA).wellFormed = false ∧ (Instr.saleSpacingExpiry .mirror1).wellFormed = true := by decide

theorem test_wf_reply : (Instr.readerReply .a [0, 0x7E] 0x81 1 [0]).wellFormed = false ∧ (Instr.readerReply .a [0] 0x7E 1 [0]).wellFormed = true := by decide

theorem test_wf_reload_past_the_image : (Instr.reloadDone [(1156, 1)]).wellFormed = false := by decide

theorem test_wf_reload_listed_zero : (Instr.reloadDone [(3, 0)]).wellFormed = false := by decide

theorem test_wf_reload_order : (Instr.reloadDone [(4, 1), (4, 2)]).wellFormed = false := by decide

theorem test_wf_page : (Instr.storePageDone (List.replicate 33 0)).wellFormed = false := by decide

theorem test_table_rows_give_no_bits : decodeTableWord 8 0 = none ∧ decodeTableWord 16 0xFFFF = none := by decide

/-! ## Sales (file 01: the worked sequences and R10 to R29) -/

/-- R10: the preset of 1,000,000 is kept as 999,999 and the order answers OK_CLAMPED. -/
theorem test_authorize_clamps :
    (after .authorize clamping).fp.b.auth.map AuthRecord.preset = some 999999 ∧ (after .authorize clamping).mem.read (slotAddr 15 + 1) = 2 := by
  decide +kernel

/-- File 01, step 3 of the second sequence: a full list gives STACK_FULL. -/
theorem test_authorize_full_list : (after .authorize (fullList authorizing)).mem.readAll (slotAddr 0) 2 = [3, 7] := by decide +kernel

/-- R12: the last-end record names DEAUTHORIZED. -/
theorem test_deauthorize :
    (after .deauthorize deauthorizing).fp.a.lastEnd = some ⟨.authEnded, .deauthorized, 0, 1000⟩ := by decide +kernel

theorem test_authorization_expires : (after (.authExpiry .a) (lifted (authorized ready) .h2)).fp.a.state = .calling := by decide +kernel

/-- R22: STOP in SETTLING answers OK with detail ALREADY_ENDING. -/
theorem test_stop_settling : (after .stop (stopping (selling .settling))).mem.readAll (slotAddr 3) 12 = [3, 1, 3, 1, 0, 0, 0, 0, 0, 0, 1, 6] := by
  decide +kernel

theorem test_pause_starts_its_timer : (after .pause (posted (selling .fueling) 0 .pause 1 [])).fp.a.pause = some 300000 := by decide +kernel

/-- File 03, second sequence at 5,000 ms: with both motors RUNNING and gate 2 kept, RESUME enters FUELING in the same event. -/
theorem test_resume_to_fueling :
    let s := withFp (selling .paused) .a (fun f => { f with gate1 := true, gate2 := true })
    let s := withMotor (withMotor s .p1 (fun r => { r with state := .running })) .p2 (fun r => { r with state := .running })
    (after .resume (posted s 0 .resume 1 [])).fp.a.state = .fueling := by decide +kernel
/-- R7: the grade button record is cleared at every entry to STARTING with hose 2 active, a RESUME among them. -/
theorem test_resume_clears_button :
    let s := withSide (selling .paused) .a (fun r => { r with sale := { r.sale with hose := .h2, grade := none } })
    let s := withFp s .a (fun f => { f with button := some ⟨.g1, 950⟩, pressTimer := some 30000 })
    (after .resume (posted s 0 .resume 1 [])).fp.a.button = none := by decide +kernel

/-- File 01, step 5: a number that is not in the list gives NOT_FOUND. -/
theorem test_settle_not_found : (after .settle (posted listed 0 .settle 1 [0xFF, 0xFE])).mem.read (slotAddr 0 + 1) = 9 := by decide +kernel

/-- File 07, 46 s of its first sequence: OK with the lock cause in the detail (OVERRUN is 32 of table 2). -/
theorem test_clear_lock_detail : (after .clearLock (unlocking (locked ready))).mem.readAll (slotAddr 0 + 8) 4 = [0, 0, 2, 32] := by decide +kernel

/-- File 07, 3.5 s: a meter that is not quiet is named, A3 being 0x23. -/
theorem test_clear_halt_still_flowing :
    (after .clearHalt (clearing (withMeter bothLocked a3 (fun c => { c with quietAny := some 2000 })))).mem.readAll (slotAddr 0 + 8) 4
      = [0, 0, 0, 0x23] := by decide +kernel

/-- File 01 at 4 s: a hose outside the mask is refused, and the authorization stands. -/
theorem test_lift_refused :
    let s := withFp (authorized ready) .a (fun f => { f with auth := f.auth.map (fun a => { a with mask := maskOf 7 }) })
    (after (.hoseLift .a .h2) s).fp.a.refused = some .h2 ∧ (after (.hoseLift .a .h2) s).fp.a.state = .authorized := by decide +kernel

/-- File 01 at 15 s: with a press 3 s old, the lift opens the sale with its grade fixed and raises M1 and then M2. -/
theorem test_lift_opens_sale :
    let s := withFp (authorized ready) .a (fun f => { f with button := some ⟨.g2, 997⟩, pressTimer := some 30000 })
    let t := after (.hoseLift .a .h1) s
    t.fp.a.state = .starting ∧ (t.sale .a).grade = some .g2 ∧ (t.motor .p1).state = .starting ∧ t.mot.queue = [.p2] := by decide +kernel

theorem test_hang_ends_sale : ((after (.hoseHang .a .h1) (selling .fueling)).sale .a).endCause = some .nozzleHung := by decide +kernel

theorem test_press_recorded : (after (.gradeButtonPress .a .g1) ready).fp.a.button = some ⟨.g1, 1000⟩ := by decide +kernel

/-- R13: a press in STARTING without a grade fixes it. -/
theorem test_press_fixes_grade :
    let s := withSide (selling .starting) .a (fun r => { r with sale := { r.sale with grade := none, drawn := ⟨false, false, false⟩ } })
    ((after (.gradeButtonPress .a .g1) s).sale .a).grade = some .g1 ∧ ((after (.gradeButtonPress .a .g1) s).sale .a).price = 1859 := by
  decide +kernel

theorem test_press_validity_ends :
    (after (.gradePressValidityExpiry .a) (withFp ready .a (fun f => { f with pressTimer := some 30000 }))).fp.a.pressTimer = none := by
  decide +kernel

theorem test_start_timeout : ((after (.startTimeout .a) (selling .starting)).sale .a).endCause = some .startTimeout := by decide +kernel

theorem test_no_flow : ((after (.noFlowTimeout .a) (selling .fueling)).sale .a).endCause = some .noFlow := by decide +kernel

theorem test_pause_timeout : ((after (.pauseTimeout .a) (selling .paused)).sale .a).endCause = some .pauseTimeout := by decide +kernel

/-- File 01, step 8: after 65,535 the number is 1. -/
theorem test_settle_wraps_number :
    ((after (.settleTimerExpiry .a) (withSide (ending .nozzleHung (selling .settling)) .a (fun r => { r with counter := 65535 }))).sale .a).number = 1 := by
  decide +kernel

/-- File 01, step 6: a sale without volume is discarded. -/
theorem test_settle_discards :
    let s := withSide (ending .nozzleHung (selling .settling)) .a (fun r => { r with sale := { r.sale with volume := 0, products := ⟨0, 0, 0⟩ } })
    ((after (.settleTimerExpiry .a) s).sale .a).status = .discarded ∧ (after (.settleTimerExpiry .a) s).ret.sides.a.list = [] := by
  decide +kernel

/-! ## Prices (file 04: the first worked sequence) -/

/-- Step 1: side B applies at the take, side A keeps its set. -/
theorem test_price_set_applies_on_one_side :
    let t := after .priceSet (pricing (selling .fueling) 1859 1959)
    t.ret.applied.a = some prices ∧ t.ret.applied.b.map PriceSet.version = some 65535 ∧ t.ret.pendingSet.map PendingSet.marks = some ⟨false, true⟩ := by
  decide +kernel

/-- R86: an application writes the mark of its side; where its read-back fails, the prices and the version of the pending set stand. -/
theorem test_application_writes_only_the_mark (s : State) (x : Retention) :
    (s.setMark .b).rev.wrote = s.rev.wrote ++ [.mark .b]
    ∧ (s.ret.found x (.mark .b)).pendingArea = s.ret.pendingArea ∧ (s.ret.found x (.mark .b)).marks = ⟨s.ret.marks.a, x.marks.b⟩ :=
  ⟨rfl, rfl, rfl⟩

/-! ## Metering (file 02: its examples) -/

def channelAfter (c : Instr) (s : State) (m : Meter) : Channel := (after c s).meter m

/-- The second row of the backflow table: from (1,0) at +1, B falls back to (0,0). -/
theorem test_quarter_step_back :
    let s := withMeter ready a2 (fun c => { c with phase := ⟨true, false⟩, position := 1 })
    (channelAfter (.quarterStep a2 .chA) s a2).position = 0 := by decide +kernel

/-- The sixth row: the fourth reverse quarter step gives a reverse pulse. -/
theorem test_quarter_step_reverse_pulse :
    let s := withMeter ready a2 (fun c => { c with phase := ⟨true, false⟩, position := -3 })
    (channelAfter (.quarterStep a2 .chA) s a2).pendingRev = 1 ∧ (channelAfter (.quarterStep a2 .chA) s a2).position = 0 := by decide +kernel

/-- The worked sale: K 1,002,500, +800 in band 1, price 1,749, close target 1,144. -/
def workedSale (acc v : Nat) (cents : Nat) : State :=
  let m := ((image.writeAll 82 (bytesBE 4 1002500)).writeAll 92 (bytesBE 2 800)).writeAll 86 (bytesBE 2 150)
  let s := withStore (selling .fueling) (fun x => { x with copy := some m })
  let s := withSide s .a (fun r => { r with sale := { r.sale with
    grade := some .g5, price := 1749, closeTarget := 1144, drawn := ⟨false, false, true⟩, products := ⟨0, 0, v⟩, volume := cents } })
  let s := withFp s .a (fun f => { f with closeReason := some .preset })
  withMeter s a3 (fun c => { c with attr := .sale, k := 1002500, saleAcc := acc, saleV := v, cal := some ⟨150, 200, 300, 800, 0, 0, 0⟩ })

/-- The 11,485th counted pulse: accumulator 11,469,137,300, V 11,440 mL, 1,144 cL, amount 2,001, PRESET_REACHED, overrun base 1,144. -/
theorem test_worked_sale_closes :
    let t := after (.forwardPulse a3) (workedSale 11468136500 11439 1143)
    (t.meter a3).saleAcc = 11469137300 ∧ (t.sale .a).volume = 1144 ∧ (t.sale .a).amount = 2001 ∧ (t.sale .a).endCause = some .presetReached
      ∧ t.fp.a.base = some 1144 := by decide +kernel

/-- The last pulse after the close: 1,146 cL, overrun 2, amount 2,004. -/
theorem test_worked_sale_settles :
    let s := workedSale (11494157300 - 1000800) 11464 1146
    let s := withFp s .a (fun f => { f with state := .settling, noFlow := none, settle := some 500, base := some 1144, overrun := 2 })
    let t := after (.forwardPulse a3) (withSide s .a (fun r => { r with sale := { r.sale with endCause := some .presetReached } }))
    (t.meter a3).saleV = 11465 ∧ (t.sale .a).volume = 1146 ∧ (t.sale .a).amount = 2004 ∧ t.fp.a.overrun = 2 := by decide +kernel

theorem test_reverse_pulse : (channelAfter (.reversePulse a1) ready a1).pendingRev = 1 := by decide +kernel

/-- File 07, second sequence: the fourth illegal transition ends the sale. -/
theorem test_fourth_illegal_transition : ((after (.illegalTransition a1) (disturbed 3)).sale .a).endCause = some .pulserFault := by decide +kernel

theorem test_subwindow_band : (channelAfter (.subwindowExpiry a1) (flowing 99) a1).band = .b3 ∧ (channelAfter (.subwindowExpiry a1) (flowing 99) a1).rate = 299 := by
  decide +kernel

theorem test_quiet_timer_ends : (channelAfter (.quietTimerExpiry a1 .anyPulse) (flowing 0) a1).quietAny = none := by decide +kernel

/-! ## Valves, blend and motors (file 03: its examples and sequences) -/

/-- 13,288 µs: the last boundary that drives the pull-in; at 17,384 µs the valve is OPEN. -/
theorem test_boundary_counts_pull_in :
    (after .pwmPeriodBoundary (pullingIn 1)).valve a2 = ⟨.pullIn, 128, 255, 0⟩ ∧ (after .pwmPeriodBoundary (pullingIn 0)).valve a2 = ⟨.opened, 128, 128, 0⟩ := by
  decide +kernel

/-- OPEN_SLOW of commanded 255 drives 63. -/
theorem test_slow_duty : (after (.pullInEnd a2) (slowed (withValve (selling .fueling) a2 ⟨.pullIn, 255, 255, 0⟩))).valve a2 = ⟨.openSlow, 255, 63, 0⟩ := by
  decide +kernel

/-- A blend of share 400 whose product 2 is short. -/
def strained (p1 p2 high count : Nat) : State :=
  let s := blended p1 p2 count
  { s with vlv := s.vlv.set .a { s.vlv.a with blend := { s.vlv.a.blend with share := 400, dutyH := high, dutyL := 255 - high } } }

/-- Expiry 1: error 40, count 1, step 10, duties 112 and 143. -/
theorem test_blend_first_expiry :
    let b := (after (.blendIntervalExpiry .a) (strained 2400 1350 102 0)).vlv.a.blend
    b.lastError = 40 ∧ b.count = 1 ∧ b.dutyH = 112 ∧ b.dutyL = 143 := by decide +kernel

/-- Expiry 5: the count reaches 5 and the loop reports BLEND_FAULT without a step. -/
theorem test_blend_fault :
    let t := after (.blendIntervalExpiry .a) (strained 2642 1508 141 4)
    (t.sale .a).endCause = some .blendFault ∧ t.vlv.a.blend.dutyH = 141 := by decide +kernel

/-- 1,000 ms: M1 runs and the head of the queue starts. -/
theorem test_motor_start_expiry :
    ((after (.motorStartExpiry .p1) startingMotor).motor .p1).state = .running ∧ ((after (.motorStartExpiry .p1) startingMotor).motor .p3).state = .starting := by
  decide +kernel

theorem test_run_on_expiry :
    ((after (.runOnExpiry .p2) (withMotor ready .p2 (fun r => { r with state := .runOn, timer := some 2000 }))).motor .p2).state = .off := by decide +kernel

/-- 600 ms: M1 trips; the sale on it ends MOTOR_TRIP and M2 goes into its run-on. -/
theorem test_trip_ends_sale :
    let t := after (.motorTripAssert .p1) (selling .fueling)
    (t.motor .p1).state = .fault ∧ (t.motor .p2).state = .runOn ∧ (t.sale .a).endCause = some .motorTrip := by decide +kernel

theorem test_trip_release : ((after (.motorTripRelease .p2) (withMotor ready .p2 (fun r => { r with trip := true }))).motor .p2).trip = false := by decide +kernel

/-- 9 s: the trip input still asserted gives CAUSE_PRESENT. -/
theorem test_motor_clear_cause_present :
    (after .motorClear (clearingMotor (withMotor (faulted .p3 ready) .p3 (fun r => { r with trip := true })))).mem.read (slotAddr 0 + 1) = 17 := by
  decide +kernel

/-! ## The display bus (file 05) -/

theorem test_message_line : ((after .showMessage (showing 2 5 [0x4F, 0x4B])).disp.lines.a.text).take 3 = [0x4F, 0x4B, 0x20] := by decide +kernel

/-- R100: the older of two BOARDs goes first while the SALE waits for its spacing. -/
theorem test_frame_start_picks : ((after .displayFrameStart queued).disp.flight.map (fun f => f.entry.role)) = some .priceB := by decide +kernel

/-- R94, R98: address byte, SHOW and the SALE field; R15, R109: a ZERO frame taken before the grade is fixed serves no sale. -/
theorem test_frame_start_sends :
    let s := withDisp (ungraded .starting .h1 none) (fun x => { x with queue := [⟨.saleA, .zero, 0, false⟩] })
    let t := after .displayFrameStart s
    t.disp.wire.take 3 = [0x40, 0x01, 0x01] ∧ t.disp.flight.map Flight.serial = some none := by decide +kernel

theorem test_frame_complete : ((after (.displayFrameComplete 1 0) (saleFrame ready)).head .saleA).spacing = some 100 := by decide +kernel

theorem test_frame_nack : ((after .displayFrameNack (boardFrame 0)).head .priceA).fails = 1 := by decide +kernel

theorem test_stretch : ((after .clockStretchTimeout (boardFrame 0)).head .priceA).reason = some .stretch := by decide +kernel

theorem test_arbitration_lost : (after .arbitrationLost (boardFrame 0)).disp.bus = .other := by decide +kernel

theorem test_bus_start_stop : (after .busStart ready).disp.bus = .other ∧ (after .busStop (busIn .other false false)).disp.bus = .free := by decide +kernel

theorem test_bus_stuck : (after .busStuckTimeout (busIn .other false false)).disp.clears = 1 := by decide +kernel

theorem test_bus_clear_done : (after (.busClearDone true) (busIn .clear false false)).disp.bus = .free := by decide +kernel

theorem test_lines_high : (after .bothLinesHigh (busIn .own true false)).disp.bus = .free := by decide +kernel

theorem test_abandoned_stop : (after .abandonedFrameStop (busIn .own false true)).disp.abandoned = false := by decide +kernel

theorem test_general_call : (after .generalCallComplete (calledFor .test .probing (waking .display))).disp.segTest = some 2000 := by decide +kernel

theorem test_segment_test_end : (after .segmentTestEnd testing).disp.call.map GeneralCall.kind = some .blank := by decide +kernel

theorem test_settle_end_probes : ((after .displaySettleEnd settling).head .saleA).state = .probing := by decide +kernel

theorem test_refresh_timer : (after (.refreshTimerExpiry .priceB) ready).disp.queued .priceB .refresh = true := by decide +kernel

theorem test_probe_timer : (after (.probeTimerExpiry .mirror4) failedHead).disp.queued .mirror4 .probe = true := by decide +kernel

theorem test_stale_deadline : ((after (.staleDeadlineExpiry .b) ready).head .saleB).state = .failed := by decide +kernel

theorem test_message_duration : (after (.messageDurationExpiry .b) worded).disp.lines.b.text = List.replicate 16 0x20 := by decide +kernel

theorem test_sale_spacing : ((after (.saleSpacingExpiry .saleA) queued).head .saleA).spacing = none := by decide +kernel

/-! ## Card readers (file 06) -/

theorem test_reader_send_takes : (after .readerSend (sending (readerIn .ready id) 1)).rdr.a.sends.length = 1 := by decide +kernel

theorem test_reader_restart : (after .readerRestart (restarting (readerIn .failed id))).rdr.a.state = .warming := by decide +kernel

theorem test_reader_poll_gives :
    (after (.readerPollExpiry .a) (readerIn .ready (fun r => { r with sends := [sendOrder] }))).rdr.a.frame.map LinkFrame.kind = some .give := by decide +kernel

/-- R121: a STAY frame, its CRC worked by hand. -/
theorem test_reader_poll_stays :
    (after (.readerPollExpiry .a) (readerIn .warming id)).rdr.a.frame.map LinkFrame.wire = some [0x7E, 2, 0, 0, 0xA2, 0xFC] := by
  decide +kernel

theorem test_reader_frame_end : (after (.readerFrameEnd .a) (readerIn .ready (onLink .sending .ask))).rdr.a.link = .awaiting := by decide +kernel

/-- R127: the mail number after 255 is 1. -/
theorem test_reader_take_wraps :
    let t := after (.readerReply .a [0, 0x81] 0x82 1 (1 :: 7 :: bytesBE 2 (crc16 [0x82, 1, 1, 7]).toNat)) (asked .ready .ask lastCellFree)
    t.rdr.a.nextMail = 1 ∧ t.rdr.a.cells.getLast?.map MailCell.number = some 255 := by decide +kernel

/-- R121: nothing leaves the initial value, and the digits 1 to 9 give the check value known of this generator and initial value. -/
theorem test_crc : crc16 [] = 0xFFFF ∧ crc16 [0x31, 0x32, 0x33, 0x34, 0x35, 0x36, 0x37, 0x38, 0x39] = 0x29B1 := by
  decide +kernel

theorem test_reader_third_miss : (after (.readerResponseTimeout .a) (asked .ready .ask (fun r => { r with miss := 2 }))).rdr.a.state = .lost := by decide +kernel

theorem test_warm_up_gives_up :
    (after (.warmUpExpiry .a) (asked .warming .stay (fun r => { r with warmUp := some 10000, cycles := 2 }))).rdr.a.state = .failed := by decide +kernel

theorem test_power_off_ends : (after (.powerOffTimerExpiry .a) (readerIn .lost (fun r => { r with powerOff := some 500 }))).rdr.a.state = .warming := by decide +kernel

theorem test_tamper_ends_reader_sale : ((after (.tamperAssert .a) readerSelling).sale .a).endCause = some .readerTamper := by decide +kernel

theorem test_tamper_release : (after (.tamperRelease .a) (readerIn .tampered id)).rdr.a.tamperReleased = true := by decide +kernel

theorem test_overcurrent : (after (.overcurrent .a) (readerIn .ready id)).rdr.a.state = .supplyFault := by decide +kernel

theorem test_supply_fault_release : (after (.supplyFaultRelease .a) (readerIn .supplyFault id)).rdr.a.supplyReleased = true := by decide +kernel

/-! ## The metrology store (file 09: the calibration session) -/

/-- Step 1: the log grows to the next place, the event number to the next. -/
theorem test_calibrate_logs :
    let t := after .calibrate (calibrating (logged 31 ready) (calibration 200000 1 2 3 20000))
    logCount t.store.image = 32 ∧ nextEvent t.store.image = 78 := by decide +kernel

/-- Step 3: a full log refuses. -/
theorem test_settings_log_full : (after .setSettings (configuring (logged 32 ready) (settingsBody 10 5 200 0 0 0 1 0))).mem.read (slotAddr 0 + 1) = 14 := by
  decide +kernel

theorem test_init_totals : ((after .initTotals (totalling ready 7)).ret.meters.b.p3).total = 7 := by decide +kernel

/-- Step 5: CLEAR_LOG leaves its own entry, whose old value is the count. -/
theorem test_clear_log :
    let t := after .clearLog (posted (logged 32 ready) 0 .clearLog 0 [])
    logCount t.store.image = 1 ∧ (logEntryAt t.store.image 0).old = 32 ∧ (logEntryAt t.store.image 0).kind = 4 := by decide +kernel

theorem test_switch : (after (.metrologySwitchChange false) ready).store.switchOn = false := by decide +kernel

theorem test_reload_start : (after .reloadStart (withStore ready (fun x => { x with reloadDue := true }))).store.reloading = true := by decide +kernel

/-- R172: a format byte of 0xFF is an absent store. -/
theorem test_reload_absent : (after (.reloadDone [(0, 0xFF)]) (reloading ready)).store.absent = true := by decide +kernel

theorem test_store_page_differs : (after (.storePageDone [1]) (writing .crc [])).mem.readAll (slotAddr 4) 2 = [3, 6] := by decide +kernel

theorem test_store_cycle_timeout : (after .storeCycleTimeout (writing .log [])).store.rewriteAll = true := by decide +kernel

/-! ## Clock, power and reset (file 08) -/

theorem test_crystal_detected : (after .crystalDetected (clocking (some 20) none false)).pw.lockWait = some 5 := by decide +kernel

theorem test_crystal_watch : (after .crystalWatchTimeout (clocking (some 20) none false)).pw.clockFail = some .noCrystal := by decide +kernel

theorem test_pll_lock : (after .pllLock (clocking none (some 5) false)).pw.clock = .crystal := by decide +kernel

theorem test_pll_timeout : (after .pllLockTimeout (clocking none (some 5) true)).pw.clockFail = some .noLock := by decide +kernel

theorem test_crystal_stop_marks : ((after .crystalStop (withPw (selling .settling) (fun p => { p with osc := true }))).sale .a).degraded = true := by decide +kernel

theorem test_crystal_stop_without_pll :
    (after .crystalStop (withPw (selling .settling) (fun p => { p with state := .powerFail, pll := false }))).pw.degraded = false := by decide +kernel

/-- A meter whose record shows the same values before and after is rewritten as decoding begins (R54, R185). -/
theorem test_decoding_rewrites_meters :
    (after (.storeLoadDone storeImage levels) (loading true)).rev.meters.b.p3 = ((loading true).rev.meters.b.p3 + 2) % 65536 := by decide +kernel

/-- R44, R53, R84: at 1,859 the amount of 9,990 mL is 999 × 1,859 = 1,857,141 thousandths, so 1,857, whatever retention memory held. -/
theorem test_finalization_reckons :
    ((after (.storeLoadDone storeImage levels) (afterCut .powerLoss 999)).ret.sides.a.list.map (fun x => (x.volume, x.amount))) = [(999, 1857)]
    ∧ ((after (.storeLoadDone storeImage levels) (afterCut .powerLoss 999)).sale .b).status = .discarded := by decide +kernel

/-- Side B shows a message whose order in slot 1 is in flight. -/
def messageHeld : State :=
  { withDisp ready (fun x => { x with lines := x.lines.set .b ⟨List.replicate 16 0x41, some ⟨1, 0, 990⟩, 600, none⟩ }) with
    mem := Memory.writeAll [] (slotAddr 1) [2, 0, 0x28, 2] }

/-- R111: at the entry to SHUTTING_DOWN the order in flight completes UNAVAILABLE with detail NOT_SHOWN, and the line is cleared. -/
theorem test_standby_drops_the_message :
    (after .standby (standingBy messageHeld 0)).mem.readAll (slotAddr 1) 2 = [3, 6]
    ∧ (after .standby (standingBy messageHeld 0)).mem.readAll (slotAddr 1 + 8) 4 = [0, 0, 1, 0x0A]
    ∧ (after .standby (standingBy messageHeld 0)).disp.lines.b.text = List.replicate 16 0x20 := by decide +kernel

theorem test_standby_refused : (after .standby (standingBy ready 1000)).mem.readAll (slotAddr 0 + 8) 4 = [0, 0, 1, 15] := by decide +kernel

theorem test_standby_entry : (after .standbyEntry (standbyOrdered false)).pw.state = .standby ∧ (after .standbyEntry (standbyOrdered false)).port.asleep = true := by
  decide +kernel

theorem test_wake_pin : (after .wakePin (inStandby 0)).pw.lastWake = .wakePin := by decide +kernel

theorem test_wake_time : (after .wakeTimeReached (inStandby 1000)).pw.state = .waking ∧ (after .wakeTimeReached (inStandby 1001)).pw.state = .standby := by
  decide +kernel

theorem test_wake_order : (after .wake (posted ready 0 .wake 0 [])).mem.readAll (slotAddr 0 + 8) 4 = [0, 0, 5, 3] := by decide +kernel

theorem test_set_clock : (after .setClock (clockTo ready 0 4294967295)).rtc = 0xFFFFFFFF := by decide +kernel

theorem test_second : (after .rtcSecond { ready with rtc := 0xFFFFFFFF }).rtc = 0 := by decide +kernel

theorem test_warning : ((after .powerFailWarning (selling .fueling)).sale .a).endCause = some .powerLoss := by decide +kernel

/-- R105: a wake cut in its segment test leaves no sale head without a stale deadline; cut in its BLANK, when the BLANK has been sent. -/
theorem test_warning_restarts_the_stale_deadlines :
    ((after .powerFailWarning undeadlined).head .saleA).stale = some 2500
    ∧ ((after .powerFailWarning (calledFor .blank .blanking undeadlined)).head .saleA).stale = none
    ∧ ((after .generalCallComplete (after .powerFailWarning (calledFor .blank .blanking undeadlined))).head .saleA).stale = some 2500 := by
  decide +kernel

theorem test_warning_release : (after .warningRelease (powerFailed (fun p => { p with warning := true }))).pw.hold = some 500 := by decide +kernel

theorem test_hold_end : (after .powerGoodHoldEnd (powerFailed (fun p => { p with hold := some 500 }))).pw.state = .waking := by decide +kernel

theorem test_mains_loss_and_return :
    (after .mainsLoss ready).pw.mains = false ∧ (after (.mainsReturn false) unpowered).pw.hold = some 500 := by decide +kernel

theorem test_retention_supply_low : (after .retentionSupplyLow unpowered).ret.intact = false := by decide +kernel

theorem test_reset_pin : (after .resetPin ready).pw.lastWake = .resetPin ∧ (after (.deviceReset true) ready).pw.lastWake = .resetRegister := by decide +kernel

theorem test_reset_hold_end :
    (after .resetHoldEnd (powerFailed (fun p => { p with resetHold := some 500, resetPending := true }))).pw.phase = .clock := by decide +kernel

/-! ## The host port (file 10: reclaiming a slot) -/

/-- Step 2: a slot that is already in the queue gives QUEUED. -/
theorem test_post_twice : (after (.orderPost 15) (posts [15] 1)).port.lastIgnored.map IgnoredPost.reason = some .queued := by decide +kernel

theorem test_attn_clear : (after (.attnClear 0x1000) ready).port.attn = 0 ∧ (after (.attnEnable 5) ready).port.enable = 5 := by decide +kernel

theorem test_port_sleeps : (after (.portAwakeInStandby false) awakeStandby).port.asleep = true := by decide +kernel

/-- R183: PART_ID reads 0xD401. -/
theorem test_read_part_id : (after (.read (some 0x4000) 2) ready).port.hsdo = some [0xD4, 0x01] := by decide +kernel

theorem test_write_slot : (after (.write (some 0x2000) [1, 0]) ready).mem.read 0x2000 = 1 ∧ (after (.write (some 0) [9]) ready).mem = ready.mem := by decide +kernel

theorem test_invalid_command : (after (.invalidCommand 0x9F 2) ready).port.hsdo = some [0, 0] := by decide +kernel

theorem test_register_write_ignored : (after (.registerWriteIgnored 0x4001 0xFFFF) ready).port.attn = ready.port.attn := by decide +kernel

theorem test_take_unknown_kind : (after .takeUnknownKind unknown).mem.readAll (slotAddr 0 + 8) 4 = [0, 0, 0xFF, 0xFE] := by decide +kernel

theorem test_take_not_active : (after .notActiveTake (posted (inStandby 0) 0 .stop 1 [])).mem.read (slotAddr 0 + 1) = 5 := by decide +kernel

theorem test_take_withdrawn : (after .takeWithdrawn { unknown with mem := [] }).port.lastIgnored.map IgnoredPost.reason = some .withdrawn := by decide +kernel

/-- R170: a completion writes the end time and the end cause before the counter; R24: a discarded sale writes those two and its status alone. -/
theorem test_close_writes :
    (openSale .a).closeParts = [.sale .endTime, .sale .endCause, .counter, .sale .number, .newEntry, .grade .g2, .sale .status]
    ∧ ({ openSale .a with volume := 0 } : Sale).closeParts = [.sale .endTime, .sale .endCause, .sale .status] := by decide +kernel

/-- R196: with its presence bit clear a number, a price and a close target that retention memory still holds read 0. -/
theorem test_absent_fields_read_zero :
    let x : Sale := { sold 7 with status := .opened, grade := none }
    (x.image.drop 1).take 3 = [0, 0, 0] ∧ (x.image.drop 16).take 4 = [0, 0, 0, 0] ∧ (x.image.drop 24).take 4 = [0, 0, 0, 0]
      ∧ ((sold 7).image.drop 1).take 3 = [35, 0, 7] := by decide +kernel

end Sys2Proof.Tests
end

section
/-! PROOFS. SETTLE (R28). -/

namespace Sys2Proof.Machine

/-! ## An order answered in the event of its take -/

/-- A completion changes the slot and the port's flags alone (R190). -/
theorem State.complete_eq (s : State) (r : OrderRef) (code : ResultCode) (detail : Nat) :
    s.complete r code detail = { s with mem := (s.complete r code detail).mem, port := (s.complete r code detail).port } := by
  unfold State.complete
  split <;> rfl

/-- The state after an event in which an owner completed an order: it is the owner's but for the slot, the port and the revision words. -/
theorem publish_complete_eq (b s : State) (r : OrderRef) (code : ResultCode) (detail : Nat) :
    publish b (s.complete r code detail) = { s with
      mem := (publish b (s.complete r code detail)).mem
      port := (publish b (s.complete r code detail)).port
      rev := (publish b (s.complete r code detail)).rev } := by
  rw [publish_mem, publish_port]
  exact congrArg (fun u : State => { u with rev := (publish b (s.complete r code detail)).rev }) (s.complete_eq r code detail)

/-- An owner that completes the order it is handed and does nothing else changes the slot, the port and the revision words alone. -/
theorem State.Offers.completed_alone {s : State} {k : OrderKind} {n target : Nat} (h : s.Offers k n target) (code : ResultCode)
    (detail : Nat) :
    let t := publish s ((s.takeSlot n).1.complete (s.takeSlot n).2.ref code detail)
    s.Answered t n code detail [] ∧ t = { s with mem := t.mem, port := t.port, rev := t.rev } :=
  ⟨h.answeredNow s code detail [] rfl (by simp), publish_complete_eq s (s.takeSlot n).1 _ code detail⟩

/-! ## What the owner of SETTLE does with a number (R28) -/

theorem State.orderSettle_zero {s : State} {o : Order} (d : Side) (h : s.bodyField o.ref.slot 0 2 = 0) :
    s.orderSettle o d = s.complete o.ref .badOrder 0 := by
  simp [State.orderSettle, h]

theorem State.orderSettle_unlisted {s : State} {o : Order} {d : Side} (h : s.bodyField o.ref.slot 0 2 ≠ 0)
    (hl : ∀ y ∈ (s.ret.sides.get d).list, y.number ≠ s.bodyField o.ref.slot 0 2) :
    s.orderSettle o d = s.complete o.ref .notFound 0 := by
  simp only [State.orderSettle, if_neg h]
  exact if_neg (by simpa using hl)

/-- The state without the first entry of a number in a side's sale list. -/
def State.unlist (s : State) (d : Side) (n : Nat) : State :=
  s.updRetSide d [.list] (fun r => { r with list := r.list.eraseP (fun x => decide (x.number = n)) })

theorem State.orderSettle_listed {s : State} {o : Order} {d : Side} (h : s.bodyField o.ref.slot 0 2 ≠ 0)
    (hl : ∃ y ∈ (s.ret.sides.get d).list, y.number = s.bodyField o.ref.slot 0 2) :
    s.orderSettle o d = (s.unlist d (s.bodyField o.ref.slot 0 2)).complete o.ref .ok (s.bodyField o.ref.slot 0 2) := by
  simp only [State.orderSettle, if_neg h]
  exact if_pos (by simpa using hl)

/-- The first entry of a number leaves the list wherever it stands; the entries before and after it keep their places. -/
theorem eraseP_number {before after : List Sale} {y : Sale} {n : Nat} (hb : ∀ z ∈ before, z.number ≠ n) (hy : y.number = n) :
    (before ++ y :: after).eraseP (fun x => decide (x.number = n)) = before ++ after := by
  rw [List.eraseP_append_right _ (by simpa using hb), List.eraseP_cons_of_pos (by simpa using hy)]

theorem State.unlist_ret {s : State} {d : Side} {before after : List Sale} {y : Sale} {n : Nat}
    (hl : (s.ret.sides.get d).list = before ++ y :: after) (hb : ∀ z ∈ before, z.number ≠ n) (hy : y.number = n) :
    (s.unlist d n).ret = { s.ret with sides := s.ret.sides.set d { s.ret.sides.get d with list := before ++ after } } := by
  simp [State.unlist, hl, eraseP_number hb hy]

/-! ## The event of SETTLE -/

theorem State.Offers.exec_settle {s : State} {n : Nat} {d : Side} (h : s.Offers .settle n (sideCode d)) :
    exec .settle s = .next (publish s ((s.takeSlot n).1.orderSettle (s.takeSlot n).2 d)) :=
  h.sideEvent State.orderSettle

/-- A SETTLE whose number stands in the list: the entry leaves it, and the order is answered OK. -/
theorem State.Offers.settled {s : State} {n : Nat} {d : Side} (h : s.Offers .settle n (sideCode d))
    {before after : List Sale} {y : Sale} {x : Nat} (hl : (s.ret.sides.get d).list = before ++ y :: after)
    (hb : ∀ z ∈ before, z.number ≠ x) (hy : y.number = x) :
    let t := publish s (((s.takeSlot n).1.unlist d x).complete (s.takeSlot n).2.ref .ok x)
    s.Answered t n .ok x []
      ∧ t.ret = { s.ret with sides := s.ret.sides.set d { s.ret.sides.get d with list := before ++ after } }
      ∧ t = { s with ret := t.ret, mem := t.mem, port := t.port, rev := t.rev } := by
  refine ⟨h.answeredNow s .ok x [] rfl (by simp [State.unlist]), ?_, ?_⟩
  · simpa using State.unlist_ret (s := (s.takeSlot n).1) hl hb hy
  · rw [publish_ret, State.complete_ret]
    exact publish_complete_eq s ((s.takeSlot n).1.unlist d x) _ .ok x

/-- Settles O14, by the three ways the number of the order can stand to the sale list. -/
theorem settleRemovesTheEntry : Obligations.SettleRemovesTheEntry := by
  intro s n d h
  refine ⟨fun hx => ?_, fun hx hl => ?_, fun before y after hx hl hb hy => ?_⟩
  · have ho := State.orderSettle_zero (s := (s.takeSlot n).1) (o := (s.takeSlot n).2) d (by simpa using hx)
    exact ⟨_, ho ▸ h.exec_settle, h.completed_alone .badOrder 0⟩
  · have ho := State.orderSettle_unlisted (s := (s.takeSlot n).1) (o := (s.takeSlot n).2) (d := d) (by simpa using hx) (by simpa using hl)
    exact ⟨_, ho ▸ h.exec_settle, h.completed_alone .notFound 0⟩
  · have ho := State.orderSettle_listed (s := (s.takeSlot n).1) (o := (s.takeSlot n).2) (d := d) (by simpa using hx)
      ⟨y, by simp [hl], by simpa using hy⟩
    simp only [State.takeSlot_ref, State.takeSlot_bodyField] at ho
    exact ⟨_, ho ▸ h.exec_settle, h.settled hl hb hy⟩

end Sys2Proof.Machine
end

section
/-! PROOFS. ORDER_POST (R187). -/

namespace Sys2Proof.Machine

/-! ## The three tests of a post -/

theorem State.post_range {s : State} {value : Word16} {n : Nat} (hn : value.toNat = n) (hr : 15 < n) :
    s.post value = s.ignorePost n .range := by
  subst hn
  exact if_pos hr

theorem State.post_notPosted {s : State} {value : Word16} {n : Nat} (hn : value.toNat = n) (hr : n ≤ 15) (hp : s.slotState n ≠ 1) :
    s.post value = s.ignorePost n .notPosted := by
  subst hn
  exact (if_neg (Nat.not_lt.mpr hr)).trans (if_pos (decide_eq_false hp))

theorem State.post_queued {s : State} {value : Word16} {n : Nat} (hn : value.toNat = n) (hr : n ≤ 15) (hp : s.slotState n = 1)
    (hq : n ∈ s.port.posts) : s.post value = s.ignorePost n .queued := by
  subst hn
  simp [State.post, State.slotPosted, Nat.not_lt.mpr hr, hp, hq]

/-- The state with a slot number at the tail of the post queue. -/
def State.joinPosts (s : State) (n : Nat) : State := s.updPort (fun p => { p with posts := p.posts ++ [n] })

@[simp] theorem State.joinPosts_posts (s : State) (n : Nat) : (s.joinPosts n).port.posts = s.port.posts ++ [n] := rfl

theorem State.post_joins {s : State} {value : Word16} {n : Nat} (hn : value.toNat = n) (hr : n ≤ 15) (hp : s.slotState n = 1)
    (hq : n ∉ s.port.posts) : s.post value = s.joinPosts n := by
  subst hn
  simp [State.post, State.joinPosts, State.slotPosted, Nat.not_lt.mpr hr, hp, hq]

/-- All a post can do: it is ignored for one of the reasons, or it is of a slot that is not queued and joins the queue. -/
theorem State.post_cases (s : State) (value : Word16) :
    (∃ why, s.post value = s.ignorePost value.toNat why)
      ∨ (value.toNat ≤ 15 ∧ value.toNat ∉ s.port.posts ∧ s.post value = s.joinPosts value.toNat) := by
  by_cases hr : 15 < value.toNat
  · exact .inl ⟨_, State.post_range rfl hr⟩
  have hr := Nat.not_lt.mp hr
  by_cases hp : s.slotState value.toNat = 1
  · by_cases hq : value.toNat ∈ s.port.posts
    · exact .inl ⟨_, State.post_queued rfl hr hp hq⟩
    · exact .inr ⟨hr, hq, State.post_joins rfl hr hp hq⟩
  · exact .inl ⟨_, State.post_notPosted rfl hr hp⟩

/-- A post writes no part of retention memory. -/
theorem State.post_wrote (s : State) (value : Word16) : (s.post value).rev.wrote = s.rev.wrote := by
  obtain ⟨why, h⟩ | ⟨-, -, h⟩ := s.post_cases value <;> rw [h] <;> rfl

/-! ## The event of a write to ORDER_POST -/

/-- A write to ORDER_POST is one event, in whatever device power state and whether or not retention memory reads back good. -/
theorem exec_orderPost {s : State} (ha : s.portAnswers = true) (hw : s.rev.wrote = []) (value : Word16) :
    exec (.orderPost value) s = .next (publish s (s.post value)) := by
  have hm : s.pw.mains = true := by
    simp only [State.portAnswers, Bool.and_eq_true] at ha
    exact ha.1.1
  have hport : s.onPort (fun x => x.post value) = s.post value := if_pos ha
  have he := event_eq (f := fun x => x.onPort (fun y => y.post value)) hm (by rw [hport, State.post_wrote, hw]; rfl)
  rwa [hport] at he

/-- The place of the last ignored post in the device status record: presence, value, reason, a pad byte and the time (file 11). -/
theorem State.exchangeBytes_lastIgnored {s : State} {p : IgnoredPost} (h : s.port.lastIgnored = some p) :
    (List.range 8).map (fun i => s.exchangeByte (20 + i))
      = [1, BitVec.ofNat 8 p.value, BitVec.ofNat 8 p.reason.code, 0] ++ bytesBE 4 p.time.toNat := by
  simp [List.range_succ, State.exchangeByte, recordByte, State.deviceImage, bytesBE, pad, optCode, bit, h]

/-- An ignored post changes the last ignored post, ORDER and the revision words alone. -/
theorem publish_ignorePost_eq (b s : State) (v : Nat) (why : IgnoreReason) :
    publish b (s.ignorePost v why) = { s with
      port := { s.port with lastIgnored := some ⟨v, why, s.rtc⟩, attn := s.port.attn ||| flagsOf [.order] }
      rev := (publish b (s.ignorePost v why)).rev } := by
  have hf : flagsOf [.order] = Attn.order.mask := by simp
  rw [hf]
  rfl

/-- The event of a post that is ignored: what the device status record then shows, and what is left alone. -/
theorem exec_orderPost_ignored {s : State} (ha : s.portAnswers = true) (hw : s.rev.wrote = []) {value : Word16} {v : Nat} {why : IgnoreReason}
    (h : s.post value = s.ignorePost v why) :
    ∃ t, exec (.orderPost value) s = .next t
      ∧ (List.range 8).map (fun i => t.exchangeByte (20 + i))
          = [1, BitVec.ofNat 8 v, BitVec.ofNat 8 why.code, 0] ++ bytesBE 4 s.rtc.toNat
      ∧ t = { s with
          port := { s.port with lastIgnored := some ⟨v, why, s.rtc⟩, attn := s.port.attn ||| flagsOf [.order] }
          rev := t.rev } :=
  ⟨_, h ▸ exec_orderPost ha hw value, State.exchangeBytes_lastIgnored (p := ⟨v, why, s.rtc⟩) rfl,
    publish_ignorePost_eq s s v why⟩

/-! ## The post queue -/

/-- Slot numbers 0 to 15, each at most once: sixteen places are enough. -/
theorem length_le_sixteen {posts : List Nat} (hnd : posts.Nodup) (hlt : ∀ n ∈ posts, n < 16) : posts.length ≤ 16 := by
  have hsub : posts ⊆ List.range 16 := fun n hn => List.mem_range.mpr (hlt n hn)
  simpa using (hnd.subperm hsub).length_le

/-- A post keeps the queue one of slot numbers 0 to 15, each at most once. -/
theorem State.post_queue {s : State} (hnd : s.port.posts.Nodup) (hlt : ∀ n ∈ s.port.posts, n < 16) (value : Word16) :
    (s.post value).port.posts.Nodup ∧ ∀ n ∈ (s.post value).port.posts, n < 16 := by
  obtain ⟨why, h⟩ | ⟨hr, hq, h⟩ := s.post_cases value
  · rw [h]
    exact ⟨hnd, hlt⟩
  · rw [h, State.joinPosts_posts]
    refine ⟨List.nodup_append.mpr ⟨hnd, List.nodup_singleton _, ?_⟩, List.forall_mem_append.mpr ⟨hlt, ?_⟩⟩
    · rintro n hn _ hv rfl
      exact hq (List.mem_singleton.mp hv ▸ hn)
    · simpa using Nat.lt_succ_of_le hr

/-- Settles O58, by the first test of the post that fails. -/
theorem postsAreTestedAndQueued : Obligations.PostsAreTestedAndQueued := by
  intro s ha hw
  have hword {v : Nat} (hv : v < 65536) : (BitVec.ofNat 16 v).toNat = v := Nat.mod_eq_of_lt hv
  have hslot {v : Nat} (hr : v ≤ 15) : (BitVec.ofNat 16 v).toNat = v := hword (by omega)
  refine ⟨fun v hr hv => ?_, fun v hr hp => ?_, fun v hr hp hq => ?_, fun v hr hp hq => ?_, fun hnd hlt => ⟨?_, fun value t ht => ?_⟩⟩
  · exact exec_orderPost_ignored ha hw (State.post_range (hword hv) hr)
  · exact exec_orderPost_ignored ha hw (State.post_notPosted (hslot hr) hr hp)
  · exact exec_orderPost_ignored ha hw (State.post_queued (hslot hr) hr hp hq)
  · exact ⟨_, State.post_joins (hslot hr) hr hp hq ▸ exec_orderPost ha hw _, rfl⟩
  · exact length_le_sixteen hnd hlt
  · obtain rfl : publish s (s.post value) = t := by simpa [exec_orderPost ha hw] using ht
    exact State.post_queue hnd hlt value

end Sys2Proof.Machine
end

section
/-! PROOFS. The step, the state after reset, and the write of a completion (R190). -/

namespace Sys2Proof.Machine

/-- Settles O1: the definition of the step, by the front of the queue. -/
theorem stepRunsTheFrontCommand : Obligations.StepRunsTheFrontCommand := by
  refine ⟨fun c rest s => rfl, fun s hs => ?_⟩
  simp [step, hs]

/-- Settles O3, each value read off the state after reset. -/
theorem resetStandsAtTheStartOfTheWake : Obligations.ResetStandsAtTheStartOfTheWake := by
  refine ⟨by decide, by decide, fun n _ => rfl, fun d => ?_, fun d => ?_, fun v => ?_, fun m => ?_, fun r => ?_, rfl⟩
  · cases d <;> decide
  · cases d <;> decide
  · obtain ⟨d, p⟩ := v
    cases d <;> cases p <;> rfl
  · cases m <;> decide
  · cases r <;> rfl

theorem Channel.powerUp_law : Channel.powerUp.Law := by
  constructor <;> decide

theorem State.reset_meter (m : Meter) : State.reset.meter m = .powerUp := by
  obtain ⟨d, p⟩ := m
  cases d <;> cases p <;> rfl

theorem State.reset_valve (v : Meter) : State.reset.valve v = .shut := by
  obtain ⟨d, p⟩ := v
  cases d <;> cases p <;> rfl

theorem State.reset_motor (m : Product) : State.reset.motor m = .powerUp := by
  cases m <;> rfl

theorem State.reset_dataLaw : State.reset.DataLaw where
  port := { memory := State.reset_mem_wf, numbers := rfl, width := by decide, slots := by decide, once := by decide }
  channels m := State.reset_meter m ▸ Channel.powerUp_law
  copy := nofun

theorem State.reset_driveLaw : State.reset.DriveLaw where
  mainsAbsent := by decide
  liveActive d := by cases d <;> decide
  valves v h := absurd (State.reset_valve v) h
  motors _ m := .inl (State.reset_motor m ▸ rfl)
  queueOnce := by decide
  queued m := by cases m <;> decide
  oneStart m n h := by
    rw [State.reset_motor] at h
    cases h
  granted _ := rfl

/-- Settles O4, law by law. -/
theorem theLawsHoldAtReset : Obligations.TheLawsHoldAtReset := ⟨State.reset_dataLaw, State.reset_driveLaw⟩

/-- A completion of an order whose slot is no longer TAKEN under the number of its take is discarded (R190). -/
theorem State.complete_discarded {s : State} {r : OrderRef} (h : s.slotState r.slot ≠ 2 ∨ s.takeNumber r.slot ≠ r.take) (code : ResultCode)
    (detail : Nat) : s.complete r code detail = s := by
  refine if_neg fun hc => ?_
  simp only [State.slotTaken, Bool.and_eq_true, decide_eq_true_eq] at hc
  exact h.elim (absurd hc.1) (absurd hc.2)

/-- A header write without a take time leaves the last four bytes of the header alone. -/
theorem Memory.writeHeader_kept_take (m : Memory) (n st code done detail : Nat) {a : Nat}
    (h : slotAddr n + 12 ≤ a ∧ a < slotAddr n + 16) : (m.writeHeader n st code done detail none).read a = m.read a := by
  rw [Memory.writeHeader_eq, Memory.read_writeAll_out _ _ _ _ (by simp; omega)]
  exact Memory.read_writeAll_out _ _ _ _ (by simp [bytesBE_length]; omega)

/-- Settles O8, by whether the slot still reads TAKEN under the number of the take. -/
theorem completionIsWrittenOrDiscarded : Obligations.CompletionIsWrittenOrDiscarded := by
  intro s r code detail
  refine ⟨fun h => State.complete_discarded h code detail, fun hs ht hm => ?_⟩
  have hc := State.complete_taken (u := s) (by simpa [State.slotTaken] using hs) ht code detail
  have hmem : (s.complete r code detail).mem = s.mem.writeHeader r.slot 3 code.code (doneTime r.time s.rtc) detail none := by
    rw [hc]
    rfl
  rw [State.slotState, hmem]
  refine ⟨Memory.writeHeader_state hm .., Memory.writeHeader_code hm .., Memory.writeHeader_done hm .., Memory.writeHeader_detail hm .., ?_,
    ?_, ?_⟩
  · rintro a (ha | ha)
    · exact Memory.writeHeader_kept _ _ _ _ _ _ _ _ ha
    · exact Memory.writeHeader_kept_take _ _ _ _ _ _ ha
  · rw [hc]
    simp
  · rw [← hmem]
    exact State.complete_eq s r code detail
end Sys2Proof.Machine
end

section
/-! PROOFS. What every shared operation keeps of the law of meter channels, of the working copy and of the drives. -/

namespace Sys2Proof.Machine

/-! ## The law of the motors (R67, R68, R69) -/

/-- A motor that neither waits in the start queue nor starts. -/
def MotorState.settled (x : MotorState) : Bool := decide (x ≠ .queued) && decide (x ≠ .starting)

/-- A motor that stands still: OFF or FAULT. -/
def MotorState.still (x : MotorState) : Bool := decide (x = .off) || decide (x = .fault)

theorem MotorState.settled_iff {x : MotorState} : x.settled = true ↔ x ≠ .queued ∧ x ≠ .starting := by
  cases x <;> decide

theorem MotorState.still_iff {x : MotorState} : x.still = true ↔ x = .off ∨ x = .fault := by
  cases x <;> decide

theorem MotorState.settled_of_still {x : MotorState} (h : x.still = true) : x.settled = true := by
  cases x <;> first | rfl | exact absurd h (by decide)

/-- The start queue and the motors agree (R69); where `granted`, a free arbiter has served the queue. -/
structure Motors.Law (q : Motors) (granted : Bool) : Prop where
  once : q.queue.Nodup
  queued : ∀ m, m ∈ q.queue ↔ (q.recs.get m).state = .queued
  oneStart : ∀ m n, (q.recs.get m).state = .starting → (q.recs.get n).state = .starting → m = n
  served : granted = true → (∀ m, (q.recs.get m).state ≠ .starting) → q.queue = []

theorem Motors.Law.congr {q w : Motors} {g : Bool} (h : q.Law g) (hq : w.queue = q.queue)
    (hs : ∀ m, (w.recs.get m).state = (q.recs.get m).state) : w.Law g where
  once := hq ▸ h.once
  queued m := by rw [hq, hs]; exact h.queued m
  oneStart m n := by rw [hs, hs]; exact h.oneStart m n
  served hg hn := by rw [hq]; exact h.served hg fun m => hs m ▸ hn m

theorem Motors.Law.weaken {q : Motors} {g : Bool} (h : q.Law g) : q.Law false := { h with served := nofun }

theorem Three.get_set {α : Type} (x : Three α) (m n : Product) (v : α) : (x.set m v).get n = if n = m then v else x.get n := by
  cases m <;> cases n <;> rfl

/-- A motor leaves the start queue, or its start, for a state in which it waits for nothing. -/
theorem Motors.Law.leave {q : Motors} {g : Bool} (h : q.Law g) (m : Product) {r : MotorRec} (hr : r.state.settled = true)
    (hg : g = true → (q.recs.get m).state ≠ .starting) :
    Motors.Law { recs := q.recs.set m r, queue := q.queue.filter (fun x => decide (x ≠ m)) } g := by
  obtain ⟨hr1, hr2⟩ := MotorState.settled_iff.mp hr
  refine ⟨h.once.filter _, fun x => ?_, fun x y hx hy => ?_, fun hgt hn => ?_⟩
  · by_cases hx : x = m
    · simp [hx, hr1]
    · simp [Three.get_set, hx, h.queued x]
  · by_cases hxm : x = m
    · simp [hxm, hr2] at hx
    by_cases hym : y = m
    · simp [hym, hr2] at hy
    exact h.oneStart x y (by simpa [Three.get_set, hxm] using hx) (by simpa [Three.get_set, hym] using hy)
  · have hfree : ∀ x, (q.recs.get x).state ≠ .starting := fun x => by
      by_cases hx : x = m
      · exact hx ▸ hg hgt
      · simpa [Three.get_set, hx] using hn x
    simp [h.served hgt hfree]

/-- A motor that is not QUEUED is not in the start queue. -/
theorem Motors.Law.not_mem {q : Motors} {g : Bool} (h : q.Law g) {m : Product} (hm : (q.recs.get m).state ≠ .queued) : m ∉ q.queue :=
  fun hq => hm ((h.queued m).mp hq)

/-- A motor that is not QUEUED goes to a state in which it waits for nothing. -/
theorem Motors.Law.replace {q : Motors} {g : Bool} (h : q.Law g) (m : Product) {r : MotorRec} (hm : (q.recs.get m).state ≠ .queued)
    (hr : r.state.settled = true) (hg : g = true → (q.recs.get m).state ≠ .starting) : Motors.Law { q with recs := q.recs.set m r } g := by
  have hl := h.leave m hr hg
  have hq : q.queue.filter (fun x => decide (x ≠ m)) = q.queue :=
    List.filter_eq_self.mpr fun x hx => decide_eq_true fun (e : x = m) => h.not_mem hm (e ▸ hx)
  rwa [hq] at hl

theorem Motors.Law.served_any {q : Motors} (h : q.Law true) (g : Bool) : q.Law g := by
  cases g
  · exact h.weaken
  · exact h

/-- A motor that waits for nothing joins the queue; the arbiter may owe a grant then. -/
theorem Motors.Law.join {q : Motors} {g : Bool} (h : q.Law g) (m : Product) {r : MotorRec} (hm : (q.recs.get m).state.settled = true)
    (hr : r.state = .queued) : Motors.Law { recs := q.recs.set m r, queue := q.queue ++ [m] } false := by
  refine ⟨?_, fun x => ?_, fun x y hx hy => ?_, nofun⟩
  · refine List.nodup_append.mpr ⟨h.once, List.nodup_singleton m, fun a ha b hb e => h.not_mem (MotorState.settled_iff.mp hm).1 ?_⟩
    exact List.mem_singleton.mp hb ▸ e ▸ ha
  · by_cases hx : x = m
    · simp [hx, hr]
    · simp [Three.get_set, hx, h.queued x]
  · by_cases hxm : x = m
    · simp [hxm, hr] at hx
    by_cases hym : y = m
    · simp [hym, hr] at hy
    exact h.oneStart x y (by simpa [Three.get_set, hxm] using hx) (by simpa [Three.get_set, hym] using hy)

/-- The head of the queue starts on a free arbiter. -/
theorem Motors.Law.start {q : Motors} {g : Bool} (h : q.Law g) {m : Product} {rest : List Product} {r : MotorRec} (hq : q.queue = m :: rest)
    (hfree : ∀ x, (q.recs.get x).state ≠ .starting) (hr : r.state = .starting) :
    Motors.Law { recs := q.recs.set m r, queue := rest } true := by
  have honce := h.once
  rw [hq, List.nodup_cons] at honce
  refine ⟨honce.2, fun x => ?_, fun x y hx hy => ?_, fun _ hn => ?_⟩
  · have hqx := h.queued x
    by_cases hx : x = m
    · simp [hx, hr, honce.1]
    · simpa [Three.get_set, hx, hq] using hqx
  · by_cases hxm : x = m
    · by_cases hym : y = m
      · rw [hxm, hym]
      · exact absurd (by simpa [Three.get_set, hym] using hy) (hfree y)
    · exact absurd (by simpa [Three.get_set, hxm] using hx) (hfree x)
  · exact absurd (by simp [hr]) (hn m)

/-- The arbiter's grant serves the queue, whether or not it owed a grant. -/
theorem State.grant_law {s : State} {g : Bool} (h : s.mot.Law g) : s.grant.mot.Law true := by
  unfold State.grant
  by_cases hf : s.arbiterFree = true
  · have hfree := (State.arbiterFree_iff s).mp hf
    rw [if_pos hf]
    split
    · rename_i hq
      exact { h with served := fun _ _ => hq }
    · rename_i m rest hq
      exact h.start hq hfree rfl
  · rw [if_neg hf]
    exact { h with served := fun _ hn => absurd ((State.arbiterFree_iff s).mpr hn) hf }

/-- A grant leaves every motor of an empty queue alone. -/
theorem State.grant_nil {s : State} (h : s.mot.queue = []) : s.grant = s := by
  unfold State.grant
  split
  · rw [h]
  · rfl

/-- While every motor stands still, none waits. -/
theorem Motors.Law.queue_nil {q : Motors} {g : Bool} (h : q.Law g) (hs : ∀ m, (q.recs.get m).state.still = true) : q.queue = [] :=
  List.eq_nil_iff_forall_not_mem.mpr fun m => h.not_mem (MotorState.settled_iff.mp (MotorState.settled_of_still (hs m))).1

/-! ## The law of the drives, in the middle of an event -/

/-- The law of the drives with two clauses open: where not `granted`, the arbiter may owe a grant; a side that `loose` names may hold an
authorization or an open sale outside ACTIVE. -/
structure State.DriveLawBut (s : State) (granted : Bool) (loose : Side → Bool) : Prop where
  mainsAbsent : s.pw.mains = false → s.pw.state = .powerFail
  liveActive : ∀ d, loose d = false → (s.fpState d).live = true → s.pw.state = .active
  valves : ∀ v, s.valve v ≠ .shut → s.fpState v.side = .fueling
  still : s.pw.state ≠ .active → ∀ m, (s.motor m).state.still = true
  motors : s.mot.Law granted

/-- No side is loose. -/
def noSide : Side → Bool := fun _ => false

theorem State.driveLaw_iff (s : State) : s.DriveLaw ↔ s.DriveLawBut true noSide := by
  constructor
  · intro h
    exact ⟨h.mainsAbsent, fun d _ => h.liveActive d, h.valves, fun hs m => MotorState.still_iff.mpr (h.motors hs m),
      h.queueOnce, h.queued, h.oneStart, fun _ hf => h.granted ((State.arbiterFree_iff s).mpr hf)⟩
  · intro h
    exact ⟨h.mainsAbsent, fun d => h.liveActive d rfl, h.valves, fun hs m => MotorState.still_iff.mp (h.still hs m),
      h.motors.once, h.motors.queued, h.motors.oneStart, fun hf => h.motors.served rfl ((State.arbiterFree_iff s).mp hf)⟩

theorem State.DriveLawBut.loosen {s : State} {g : Bool} {loose more : Side → Bool} (h : s.DriveLawBut g loose)
    (hl : ∀ d, more d = false → loose d = false) : s.DriveLawBut g more :=
  { h with liveActive := fun d hd => h.liveActive d (hl d hd) }

/-- A side that holds neither an authorization nor an open sale is not loose. -/
theorem State.DriveLawBut.tighten {s : State} {g : Bool} {loose : Side → Bool} (h : s.DriveLawBut g loose) {d : Side}
    (hd : (s.fpState d).live = false) : s.DriveLawBut g (fun e => loose e && decide (e ≠ d)) := by
  refine { h with liveActive := fun e he hl => ?_ }
  by_cases hed : e = d
  · subst hed
    rw [hd] at hl
    cases hl
  · exact h.liveActive e (by simpa [hed] using he) hl

/-! ## What an operation keeps -/

/-- What an operation keeps of the law of the channels, of the canonical working copy and of the law of the drives, in the middle of an event
too; for the drives under the condition `P`. -/
structure Obeys (P : Prop) (s t : State) : Prop where
  channels : (∀ m, (s.meter m).Law) → ∀ m, (t.meter m).Law
  copy : (∀ m, s.store.copy = some m → m.wf = true) → ∀ m, t.store.copy = some m → m.wf = true
  drive : P → ∀ g loose, s.DriveLawBut g loose → t.DriveLawBut g loose

variable {P : Prop}

theorem Obeys.refl (s : State) : Obeys P s s := ⟨id, id, fun _ _ _ => id⟩

theorem Obeys.trans {s x y : State} (h : Obeys P s x) (g : Obeys P x y) : Obeys P s y :=
  ⟨g.channels ∘ h.channels, g.copy ∘ h.copy, fun p a b => g.drive p a b ∘ h.drive p a b⟩

/-- All that the two laws speak of beside the post queue, the take numbers and the memories. -/
def State.lawView (s : State) :=
  (s.met, s.store.copy, s.pw.mains, s.pw.state, s.fpState, s.valve, s.mot)

/-- An operation that leaves the meters, the working copy and everything the law of the drives speaks of alone. -/
theorem Obeys.same {s x y : State} (h : Obeys P s x) (hview : y.lawView = x.lawView) : Obeys P s y := by
  simp only [State.lawView, Prod.mk.injEq] at hview
  obtain ⟨hmet, hcopy, hpm, hps, hfp, hv, hmot⟩ := hview
  exact h.trans ⟨fun c m => by rw [State.meter, hmet]; exact c m, fun c => by rw [hcopy]; exact c, fun _ g loose l =>
    ⟨by rw [hpm, hps]; exact l.mainsAbsent, fun d => by rw [hfp, hps]; exact l.liveActive d, fun v => by rw [hv, hfp]; exact l.valves v,
      fun hs m => by rw [State.motor, hmot]; exact l.still (hps ▸ hs) m, hmot ▸ l.motors⟩⟩

theorem obeys_foldl {α : Type} {s x : State} (f : State → α → State) (xs : List α) (h : Obeys P s x) (hf : ∀ y a, Obeys P y (f y a)) :
    Obeys P s (xs.foldl f x) := by
  induction xs generalizing x with
  | nil => exact h
  | cons a rest ih => exact ih (h.trans (hf x a))

end Sys2Proof.Machine
end

section
/-! PROOFS. What each operation keeps of the law of meter channels, of the working copy and of the drives: the updates, and the operations of one
block. -/

namespace Sys2Proof.Machine

variable {P : Prop} {s x : State}

/-! ## The updates -/

theorem State.fpState_updFp (s : State) (d e : Side) (f : FuelPoint → FuelPoint) :
    (s.updFp d f).fpState e = if e = d then (f (s.fp.get d)).state else s.fpState e := by
  cases d <;> cases e <;> rfl

theorem State.valve_updValveSide (s : State) (d : Side) (f : ValveSide → ValveSide) (v : Meter) :
    (s.updValveSide d f).valve v = if v.side = d then (f (s.vlv.get d)).valves.get v.product else s.valve v := by
  obtain ⟨e, p⟩ := v
  cases d <;> cases e <;> rfl

theorem State.meter_updMeter (s : State) (m n : Meter) (f : Channel → Channel) :
    (s.updMeter m f).meter n = if n = m then f (s.meter m) else s.meter n := by
  by_cases h : n = m
  · rw [h, State.updMeter_meter, if_pos rfl]
  · rw [State.updMeter_meter_ne s f h, if_neg h]

theorem State.motor_updMotor (s : State) (m n : Product) (f : MotorRec → MotorRec) :
    (s.updMotor m f).motor n = if n = m then f (s.motor m) else s.motor n := by
  cases m <;> cases n <;> rfl

/-- An update of a fueling point that leaves its state alone. -/
theorem State.updFp_obeys (h : Obeys P s x) (d : Side) (f : FuelPoint → FuelPoint)
    (hf : ∀ p, (f p).state = p.state) : Obeys P s (x.updFp d f) := by
  have hfp : (x.updFp d f).fpState = x.fpState := funext fun e => by
    rw [State.fpState_updFp]
    split
    · rename_i he
      rw [hf, he]
      rfl
    · rfl
  exact h.same (by rw [State.lawView, hfp]; rfl)

/-- An update of a meter channel that keeps the law of its counts. -/
theorem State.updMeter_obeys (h : Obeys P s x) (m : Meter) (f : Channel → Channel) (hf : (x.meter m).Law → (f (x.meter m)).Law) :
    Obeys P s (x.updMeter m f) := by
  refine h.trans ⟨fun c n => ?_, id, fun _ _ _ l => ⟨l.mainsAbsent, l.liveActive, l.valves, l.still, l.motors⟩⟩
  rw [State.meter_updMeter]
  split
  · exact hf (c m)
  · exact c n

/-- An update of a side's valves that opens none unless the side is FUELING. -/
theorem State.updValveSide_obeys (h : Obeys P s x) (d : Side) (f : ValveSide → ValveSide)
    (hf : x.fpState d ≠ .fueling → (∀ p, (x.vlv.get d).valves.get p = .shut) → ∀ p, (f (x.vlv.get d)).valves.get p = .shut) :
    Obeys P s (x.updValveSide d f) := by
  refine h.trans ⟨id, id, fun _ g loose l => ⟨l.mainsAbsent, l.liveActive, fun v hv => ?_, l.still, l.motors⟩⟩
  rw [State.valve_updValveSide] at hv
  split at hv
  · rename_i hd
    refine Classical.byContradiction fun hn => ?_
    have hn' : x.fpState d ≠ .fueling := hd ▸ hn
    exact hv (hf hn' (fun p => Classical.byContradiction fun hp => hn' (l.valves ⟨d, p⟩ hp)) v.product)
  · exact l.valves v hv

/-- An update of a side of the driver that leaves the valves alone. -/
theorem State.updBlendSide_obeys (h : Obeys P s x) (d : Side) (f : ValveSide → ValveSide) (hf : ∀ v, (f v).valves = v.valves) :
    Obeys P s (x.updValveSide d f) :=
  State.updValveSide_obeys h d f fun _ hs => by rw [hf]; exact hs

theorem State.updBlend_obeys (h : Obeys P s x) (d : Side) (f : BlendLoop → BlendLoop) : Obeys P s (x.updBlend d f) :=
  State.updBlendSide_obeys h d _ (by intro; rfl)

/-- An update of the motors and of the start queue. -/
theorem Obeys.motors {y : State} (h : Obeys P s x) (hy : y = { x with mot := y.mot })
    (hm : P → ∀ g, (x.pw.state ≠ .active → ∀ m, (x.motor m).state.still = true) → x.mot.Law g → y.mot.Law g)
    (hs : x.pw.state ≠ .active → (∀ m, (x.motor m).state.still = true) → ∀ m, (y.motor m).state.still = true) : Obeys P s y := by
  have hmet : ∀ m, y.meter m = x.meter m := fun m => by rw [hy]; rfl
  have hcopy : y.store.copy = x.store.copy := by rw [hy]
  have hpw : y.pw = x.pw := by rw [hy]
  have hfp : ∀ d, y.fpState d = x.fpState d := fun d => by rw [hy]; rfl
  have hv : ∀ v, y.valve v = x.valve v := fun v => by rw [hy]; rfl
  exact h.trans ⟨fun c m => hmet m ▸ c m, fun c => hcopy ▸ c, fun p g loose l =>
    ⟨hpw ▸ l.mainsAbsent, fun d => by rw [hfp, hpw]; exact l.liveActive d, fun v => by rw [hv, hfp]; exact l.valves v,
      fun ha => hs (hpw ▸ ha) (l.still (hpw ▸ ha)), hm p g l.still l.motors⟩⟩

/-- An update of a motor record that leaves its state alone. -/
theorem State.updMotor_obeys (h : Obeys P s x) (m : Product) (f : MotorRec → MotorRec) (hf : ∀ r, (f r).state = r.state) :
    Obeys P s (x.updMotor m f) := by
  have hst : ∀ n, ((x.updMotor m f).motor n).state = (x.motor n).state := fun n => by
    rw [State.motor_updMotor]
    split
    · rename_i hn
      rw [hf, hn]
    · rfl
  exact h.motors rfl (fun _ g _ l => l.congr rfl hst) (fun _ l n => by rw [hst]; exact l n)

/-- A motor that waits for nothing goes to another such state. -/
theorem State.replaceMotor_obeys (h : Obeys P s x) (m : Product) (f : MotorRec → MotorRec) (hm : (x.motor m).state.settled = true)
    (hf : (f (x.motor m)).state.settled = true) (hs : (x.motor m).state.still = true → (f (x.motor m)).state.still = true) :
    Obeys P s (x.updMotor m f) := by
  refine h.motors rfl (fun _ g _ l => l.replace m (MotorState.settled_iff.mp hm).1 hf fun _ => (MotorState.settled_iff.mp hm).2) (fun _ l n => ?_)
  rw [State.motor_updMotor]
  split
  · exact hs (l m)
  · exact l n

/-! The updates of what those laws do not speak of. -/

theorem State.updRetSide_obeys (h : Obeys P s x) (d : Side) (ps : List SidePart) (f : RetSide → RetSide) : Obeys P s
    (x.updRetSide d ps f) := h.same (by rfl)
theorem State.updSale_obeys (h : Obeys P s x) (d : Side) (ps : List SalePart) (f : Sale → Sale) : Obeys P s (x.updSale d ps f) := h.same (by rfl)
theorem State.updRetMeter_obeys (h : Obeys P s x) (m : Meter) (ps : List RetPart) (f : RetMeter → RetMeter) :
    Obeys P s (x.updRetMeter m ps f) := h.same (by rfl)
theorem State.updDisp_obeys (h : Obeys P s x) (f : Display → Display) : Obeys P s (x.updDisp f) := h.same (by rfl)
theorem State.updHead_obeys (h : Obeys P s x) (r : Role) (f : Head → Head) : Obeys P s (x.updHead r f) := h.same (by rfl)
theorem State.updLine_obeys (h : Obeys P s x) (d : Side) (f : MessageLine → MessageLine) : Obeys P s (x.updLine d f) := h.same (by rfl)
theorem State.updReader_obeys (h : Obeys P s x) (d : Side) (f : Reader → Reader) : Obeys P s (x.updReader d f) := h.same (by rfl)
theorem State.updHalt_obeys (h : Obeys P s x) (f : HaltUnit → HaltUnit) : Obeys P s (x.updHalt f) := h.same (by rfl)
theorem State.updPort_obeys (h : Obeys P s x) (f : Port → Port) : Obeys P s (x.updPort f) := h.same (by rfl)
theorem State.setWakeTime_obeys (h : Obeys P s x) (t : Word32) : Obeys P s (x.setWakeTime t) := h.same (by rfl)
theorem State.setPriceOrder_obeys (h : Obeys P s x) (o : Option OrderRef) : Obeys P s (x.setPriceOrder o) := h.same (by rfl)
theorem State.rewrite_obeys (h : Obeys P s x) (r : RecordId) : Obeys P s (x.rewrite r) := h.same (by rfl)
theorem State.attn_obeys (h : Obeys P s x) (f : Attn) : Obeys P s (x.attn f) := h.same (by rfl)
theorem State.requestSale_obeys (h : Obeys P s x) (d : Side) : Obeys P s (x.requestSale d) := h.same (by rfl)
theorem State.requestZero_obeys (h : Obeys P s x) (d : Side) : Obeys P s (x.requestZero d) := h.same (by rfl)
theorem State.requestMessage_obeys (h : Obeys P s x) (d : Side) : Obeys P s (x.requestMessage d) := h.same (by rfl)
theorem State.requestBoard_obeys (h : Obeys P s x) (d : Side) : Obeys P s (x.requestBoard d) := h.same (by rfl)
/-- An update of the store port that keeps the working copy in canonical form. -/
theorem State.updStore_obeys (h : Obeys P s x) (f : StorePort → StorePort)
    (hf : (∀ m, x.store.copy = some m → m.wf = true) → ∀ m, (f x.store).copy = some m → m.wf = true) :
    Obeys P s (x.updStore f) :=
  h.trans ⟨id, hf, fun _ _ _ l => ⟨l.mainsAbsent, l.liveActive, l.valves, l.still, l.motors⟩⟩
/-- An update of the power sequencer that leaves mains and the device power state alone. -/
theorem State.updPower_obeys (h : Obeys P s x) (f : Power → Power) (hm : ∀ p, (f p).mains = p.mains)
    (hs : ∀ p, (f p).state = p.state) : Obeys P s (x.updPower f) :=
  h.same (by rw [State.lawView, State.updPower, hm, hs]; rfl)

theorem State.complete_obeys (h : Obeys P s x) (r : OrderRef) (c : ResultCode) (n : Nat) : Obeys P s (x.complete r c n) := by
  rw [State.complete_eq]
  exact h.same (by rfl)

theorem State.completeOpt_obeys (h : Obeys P s x) (r : Option OrderRef) (c : ResultCode) (n : Nat) : Obeys P s (x.completeOpt r c n) := by
  cases r
  · exact h
  · exact State.complete_obeys h _ c n

theorem State.attnIf_obeys (h : Obeys P s x) (c : Bool) (f : Attn) : Obeys P s (x.attnIf c f) := by
  cases c
  · exact h
  · exact h.same (by rfl)

/-! ## Attribution and the change of a fueling point's state -/

theorem Channel.Law.under {c : Channel} (h : c.Law) (a : Attribution) : (c.under a).Law := by
  unfold Channel.under
  split
  · exact h
  · exact { h with pending := by simp, illegal := by simp, tally := by simp }

/-- A fueling point's state changes. Where it is left FUELING its valves are shut, and an authorization or an open sale needs ACTIVE. -/
theorem State.DriveLawBut.setFp {g : Bool} {loose : Side → Bool} {y : State} {d : Side} {st : FpState} (l : x.DriveLawBut g loose)
    (hfp : ∀ e, y.fpState e = if e = d then st else x.fpState e) (hpw : y.pw = x.pw) (hvlv : y.vlv = x.vlv) (hmot : y.mot = x.mot)
    (hl : st.live = true → loose d = false → x.pw.state = .active)
    (hv : st ≠ .fueling → x.fpState d ≠ .fueling ∨ ∀ p, x.valve ⟨d, p⟩ = .shut) : y.DriveLawBut g loose := by
  refine ⟨hpw ▸ l.mainsAbsent, fun e he hlive => ?_, fun v hvo => ?_, fun hs m => ?_, hmot ▸ l.motors⟩
  · rw [hfp] at hlive
    rw [hpw]
    split at hlive
    · rename_i hed
      exact hl hlive (hed ▸ he)
    · exact l.liveActive e he hlive
  · have hvx : x.valve v ≠ .shut := by
      rw [State.valve, hvlv] at hvo
      exact hvo
    rw [hfp]
    split
    · rename_i hvd
      refine Classical.byContradiction fun hst => ?_
      obtain ⟨e, p⟩ := v
      cases hvd
      rcases hv hst with hf | hshut
      · exact hf (l.valves _ hvx)
      · exact hvx (hshut p)
    · exact l.valves v hvx
  · rw [State.motor, hmot]
    exact l.still (hpw ▸ hs) m

theorem State.fpState_set (s : State) (d e : Side) (st : FpState) :
    (s.setFpState d st).fpState e = if e = d then st else s.fpState e := by
  rw [State.fpState, State.setFpState_fp]
  cases d <;> cases e <;> rfl

theorem State.setFpState_obeys (h : Obeys P s x) (d : Side) (st : FpState) (hl : P → st.live = true → x.pw.state = .active)
    (hv : P → st ≠ .fueling → x.fpState d ≠ .fueling ∨ ∀ p, x.valve ⟨d, p⟩ = .shut) : Obeys P s (x.setFpState d st) := by
  refine h.trans ⟨fun c m => ?_, by simp, fun p g loose l => l.setFp (State.fpState_set x d · st) (by simp) (by simp) (by simp)
    (fun hst _ => hl p hst) (hv p)⟩
  by_cases hs : x.fpState d = st
  · simpa [State.setFpState, hs] using c m
  · rw [State.setFpState_meter x d st m hs]
    split
    · exact (c m).under _
    · exact c m

/-- A fueling point that is not FUELING goes to a state without an authorization or an open sale. -/
theorem State.leaveFp_obeys (h : Obeys P s x) (d : Side) {st : FpState} (hst : st.live = false) (hd : P → x.fpState d ≠ .fueling) :
    Obeys P s (x.setFpState d st) :=
  State.setFpState_obeys h d st (fun _ hl => absurd hl (by simp [hst])) (fun p _ => .inl (hd p))

/-! ## Valves and blend loops -/

theorem Three.get_shut (p : Product) : (⟨.shut, .shut, .shut⟩ : Three ValveDrive).get p = .shut := by
  cases p <;> rfl

theorem State.closeSide_obeys (h : Obeys P s x) (d : Side) : Obeys P s (x.closeSide d) :=
  State.updValveSide_obeys h d _ fun _ _ p => Three.get_shut p

theorem State.stopBlend_obeys (h : Obeys P s x) (d : Side) : Obeys P s (x.stopBlend d) := State.updBlend_obeys h d _

theorem State.closeAll_obeys (h : Obeys P s x) : Obeys P s x.closeAll :=
  State.stopBlend_obeys (State.closeSide_obeys (State.stopBlend_obeys (State.closeSide_obeys h .a) .a) .b) .b

theorem ValveDrive.slowed_shut : ValveDrive.shut.slowed = .shut := rfl

theorem State.slowSide_obeys (h : Obeys P s x) (d : Side) : Obeys P s (x.slowSide d) :=
  State.updValveSide_obeys h d _ fun _ hs p => by simp [hs p, ValveDrive.slowed_shut]

/-! ## Motors -/

/-- A grant puts no motor into motion that the law has standing still: the queue is empty then. -/
theorem State.grant_obeys (h : Obeys P s x) : Obeys P s x.grant := by
  refine ⟨fun c => ?_, fun c => ?_, fun p g loose l => ?_⟩
  · simpa [State.meter] using h.channels c
  · simpa using h.copy c
  · have hx := h.drive p g loose l
    refine ⟨by simpa using hx.mainsAbsent, ?_, ?_, fun hs m => ?_, ?_⟩
    · simpa [State.fpState] using hx.liveActive
    · simpa [State.valve, State.fpState] using hx.valves
    · have hstill := hx.still (by simpa using hs)
      rw [State.grant_nil (hx.motors.queue_nil hstill)]
      exact hstill m
    · exact (State.grant_law hx.motors).served_any g

/-- A grant serves the queue: the arbiter owes none after it. -/
theorem State.DriveLawBut.grant {g : Bool} {loose : Side → Bool} (l : x.DriveLawBut g loose) : x.grant.DriveLawBut true loose :=
  { (State.grant_obeys (P := True) (.refl x)).drive trivial g loose l with motors := State.grant_law l.motors }

theorem State.DriveLawBut.served_any {loose : Side → Bool} (l : x.DriveLawBut true loose) (g : Bool) : x.DriveLawBut g loose :=
  { l with motors := l.motors.served_any g }

/-- A motor joins the start queue while the device is ACTIVE. -/
theorem State.joinQueue_obeys (h : Obeys P s x) (m : Product) (hm : (x.motor m).state.settled = true) (ha : x.pw.state = .active) :
    Obeys P s (x.joinQueue m) := by
  refine h.trans ⟨fun c => by simpa [State.meter] using c, by simp, fun _ g loose l => ?_⟩
  have hj : ((x.updMotor m (fun r => { r with state := .queued })).setStartQueue (x.mot.queue ++ [m])).DriveLawBut false loose :=
    ⟨l.mainsAbsent, l.liveActive, l.valves, fun hs => absurd ha hs, l.motors.join m hm rfl⟩
  exact hj.grant.served_any g

/-- A motor is started or queued only while the device is ACTIVE. -/
theorem State.DriveLawBut.active_of_moving {g : Bool} {loose : Side → Bool} (l : x.DriveLawBut g loose) {m : Product}
    (hm : (x.motor m).state.still = false) : x.pw.state = .active :=
  Classical.byContradiction fun hs => absurd (l.still hs m) (by simp [hm])

/-- A motor whose last demand goes: it leaves the queue, its start or RUNNING. -/
theorem State.dropDemand_obeys (h : Obeys P s x) (d : Side) (m : Product) : Obeys P s (x.dropDemand d m) := by
  refine h.trans ⟨fun c => by simpa [State.meter] using c, by simp, fun _ g loose l => ?_⟩
  unfold State.dropDemand
  dsimp only
  set t := x.updMotor m (fun r => { r with demand := r.demand.set d false }) with ht
  have hl : t.DriveLawBut g loose := (State.updMotor_obeys (P := True) (.refl x) m _ (by intro; rfl)).drive trivial g loose l
  have hst : (t.motor m).state = (x.motor m).state := by simp [ht]
  split
  · split
    · rename_i hq
      have hmove := hl.active_of_moving (m := m) (by simp [hst, hq, MotorState.still])
      exact ⟨hl.mainsAbsent, hl.liveActive, hl.valves, fun hs => absurd hmove hs,
        hl.motors.leave m rfl fun _ => by rw [← State.motor, hst, hq]; decide⟩
    · rename_i hq
      have hmove := hl.active_of_moving (m := m) (by simp [hst, hq, MotorState.still])
      have hfree : (t.updMotor m (fun r => { r with state := .off, timer := none })).DriveLawBut false loose :=
        ⟨hl.mainsAbsent, hl.liveActive, hl.valves, fun hs => absurd hmove hs,
          hl.motors.weaken.replace m (by rw [← State.motor, hst, hq]; decide) rfl nofun⟩
      exact hfree.grant.served_any g
    · rename_i hq
      have hset : (t.motor m).state.settled = true := by simp [hst, hq, MotorState.settled]
      have hstill : (t.motor m).state.still = false := by simp [hst, hq, MotorState.still]
      split
      · exact (State.replaceMotor_obeys (P := True) (.refl t) m _ hset rfl (by simp [hstill])).drive trivial g loose hl
      · exact (State.replaceMotor_obeys (P := True) (.refl t) m _ hset rfl (by simp [hstill])).drive trivial g loose hl
    · exact hl
  · exact hl

theorem State.dropAll_obeys (h : Obeys P s x) (d : Side) : Obeys P s (x.dropAll d) :=
  State.dropDemand_obeys (State.dropDemand_obeys (State.dropDemand_obeys h d .p1) d .p2) d .p3

theorem State.raiseDemand_obeys (h : Obeys P s x) (d : Side) (m : Product) : Obeys P s (x.raiseDemand d m) := by
  have ht := State.updMotor_obeys h m (fun r => { r with demand := r.demand.set d true }) (by intro; rfl)
  unfold State.raiseDemand
  dsimp only
  split
  · split
    · rename_i hq
      split
      · rename_i ha
        exact State.joinQueue_obeys ht m (by simp [hq, MotorState.settled]) ha
      · exact ht
    · rename_i hq
      exact State.replaceMotor_obeys ht m _ (by simp [hq, MotorState.settled]) (by simp [MotorState.settled]) (by simp [hq, MotorState.still])
    · exact ht
  · exact ht

theorem State.raiseAll_obeys (h : Obeys P s x) (d : Side) : Obeys P s (x.raiseAll d) := by
  have one {y : State} (hy : Obeys P s y) (b : Bool) (m : Product) : Obeys P s (if b then y.raiseDemand d m else y) := by
    cases b
    · exact hy
    · exact State.raiseDemand_obeys hy d m
  exact one (one (one h _ .p1) _ .p2) _ .p3

theorem MotorRec.stopped_still (r : MotorRec) : r.stopped.state.still = true := by
  unfold MotorRec.stopped
  split
  · rename_i h
    simp [h, MotorState.still]
  · rfl

/-- Motors that stand still with an empty queue meet their law. -/
theorem Motors.Law.of_still {q : Motors} (hq : q.queue = []) (hs : ∀ m, (q.recs.get m).state.still = true) (g : Bool) : q.Law g := by
  have hn (m : Product) := MotorState.settled_iff.mp (MotorState.settled_of_still (hs m))
  exact ⟨by simp [hq], fun m => by simp [hq, (hn m).1], fun m n hm => absurd hm (hn m).2, fun _ _ => hq⟩

theorem State.stopDrives_still (s : State) (m : Product) : (s.stopDrives.motor m).state.still = true := by
  simp only [State.stopDrives, State.motor, Three.get_map]
  exact MotorRec.stopped_still _

theorem State.stopDrives_obeys (h : Obeys P s x) : Obeys P s x.stopDrives :=
  h.motors rfl (fun _ g _ _ => .of_still rfl (State.stopDrives_still x) g) (fun _ _ => State.stopDrives_still x)

theorem State.requeueMotors_obeys (h : Obeys P s x) (ha : x.pw.state = .active) : Obeys P s x.requeueMotors := by
  have one {y : State} (hy : Obeys P s y) (hp : y.pw.state = .active) (m : Product) :
      let z := if (y.motor m).state = .off ∧ demandCount (y.motor m).demand ≠ 0 then y.joinQueue m else y
      Obeys P s z ∧ z.pw.state = .active := by
    dsimp only
    split
    · rename_i hm
      exact ⟨State.joinQueue_obeys hy m (by simp [hm.1, MotorState.settled]) hp, by simpa using hp⟩
    · exact ⟨hy, hp⟩
  obtain ⟨h1, p1⟩ := one h ha .p1
  obtain ⟨h2, p2⟩ := one h1 p1 .p2
  exact (one h2 p2 .p3).1

/-! ## The device power state (R151) -/

/-- The device power state changes: mains is present or the device is POWER_FAIL; outside ACTIVE nothing moves, and no side that is not loose
holds an authorization or an open sale. -/
theorem State.DriveLawBut.setPower {g : Bool} {loose : Side → Bool} {y : State} (l : x.DriveLawBut g loose)
    (hy : y = { x with pw := y.pw, port := y.port, rev := y.rev }) (hm : y.pw.mains = false → y.pw.state = .powerFail)
    (hl : y.pw.state ≠ .active → ∀ d, loose d = false → (x.fpState d).live = false)
    (hs : y.pw.state ≠ .active → ∀ m, (x.motor m).state.still = true) : y.DriveLawBut g loose := by
  have hfp : ∀ d, y.fpState d = x.fpState d := fun d => by rw [hy]; rfl
  have hmot : y.mot = x.mot := by rw [hy]
  have hv : ∀ v, y.valve v = x.valve v := fun v => by rw [hy]; rfl
  refine ⟨hm, fun d hd hlive => Classical.byContradiction fun ha => ?_, fun v => by rw [hv, hfp]; exact l.valves v,
    fun ha m => by rw [State.motor, hmot]; exact hs ha m, hmot ▸ l.motors⟩
  rw [hfp, hl ha d hd] at hlive
  cases hlive

theorem State.DriveLawBut.mains {g : Bool} {loose : Side → Bool} (l : x.DriveLawBut g loose) (hs : x.pw.state ≠ .powerFail) :
    x.pw.mains = true :=
  Bool.eq_true_of_not_eq_false fun hf => hs (l.mainsAbsent hf)

/-- The device power state changes while the device is not ACTIVE, mains being present. -/
theorem State.setPowerState_obeys (h : Obeys P s x) (st : PowerState) (hm : P → x.pw.mains = true ∨ x.pw.state ≠ .powerFail)
    (ha : P → x.pw.state ≠ .active) : Obeys P s (x.setPowerState st) := by
  unfold State.setPowerState
  split
  · exact h
  · refine h.trans ⟨id, id, fun p g loose l => l.setPower rfl (fun hf => ?_) (fun _ d hd => ?_) (fun _ => l.still (ha p))⟩
    · exact absurd hf (by simpa using (hm p).elim id l.mains)
    · exact Bool.eq_false_iff.mpr fun hlive => ha p (l.liveActive d hd hlive)

theorem State.setPowerState_state (s : State) (st : PowerState) : (s.setPowerState st).pw.state = st := by
  unfold State.setPowerState
  split
  · assumption
  · rfl

end Sys2Proof.Machine
end

section
/-! PROOFS. What the operations of fueling points, sales, the halt condition and price application keep of those laws. -/

namespace Sys2Proof.Machine

variable {P : Prop} {s x : State}

/-! ## Ends of authorizations and sales -/

theorem State.endAuth_fpState (s : State) (d e : Side) (c : Cause) : (s.endAuth d c).fpState e = s.fpState e := by
  cases d <;> cases e <;> rfl

theorem State.endAuth_obeys (h : Obeys P s x) (d : Side) (c : Cause) : Obeys P s (x.endAuth d c) :=
  State.attn_obeys (State.updFp_obeys h d _ (by intro; rfl)) _

theorem FuelPoint.readyState_live (f : FuelPoint) : f.readyState.live = false := by
  unfold FuelPoint.readyState
  split <;> rfl

theorem State.endAuthReady_obeys (h : Obeys P s x) (d : Side) (c : Cause) (hd : P → x.fpState d ≠ .fueling) : Obeys P s (x.endAuthReady d c) :=
  State.leaveFp_obeys (State.endAuth_obeys h d c) d (FuelPoint.readyState_live _) fun p => by
    rw [State.endAuth_fpState]
    exact hd p

theorem State.lockFp_obeys (h : Obeys P s x) (d : Side) (c : Cause) (hd : P → x.fpState d ≠ .fueling) : Obeys P s (x.lockFp d c) := by
  have ht : Obeys P s (x.updRetSide d [.lock] (fun r => { r with locked := true, lockCause := some c })) := h.same (by rfl)
  unfold State.lockFp
  dsimp only
  split
  · refine State.leaveFp_obeys (State.updFp_obeys ht d _ (by intro; rfl)) d rfl fun p => ?_
    rw [State.fpState_updFp, if_pos rfl]
    exact hd p
  · exact State.leaveFp_obeys ht d rfl hd

theorem State.lockFp_fpState (s : State) (d e : Side) (c : Cause) : (s.lockFp d c).fpState e = if e = d then .locked else s.fpState e := by
  unfold State.lockFp
  rw [State.fpState_set]
  split
  · rfl
  · split
    · rename_i hed _
      rw [State.fpState_updFp, if_neg hed]
      rfl
    · rfl

/-- The end of a sale shuts the valves of its side before the side leaves FUELING. -/
theorem State.endSale_obeys (h : Obeys P s x) (d : Side) (c : Cause) : Obeys P s (x.endSale d c) := by
  have ht : Obeys P s ((((x.updSale d [.endCause] (fun y => { y with endCause := some c })).closeSide d).stopBlend d).dropAll d) :=
    State.dropAll_obeys (State.stopBlend_obeys (State.closeSide_obeys (h.same (by rfl)) d) d) d
  have hshut (y : State) (hy : y.vlv = ((x.closeSide d).stopBlend d).vlv) (p : Product) : y.valve ⟨d, p⟩ = .shut := by
    rw [State.valve, hy]
    cases d <;> cases p <;> rfl
  unfold State.endSale
  dsimp only
  split
  · exact State.setFpState_obeys (State.updFp_obeys ht d _ (by intro; rfl)) d _ (fun _ hl => nomatch hl) fun _ _ => .inr (hshut _ (by simp; rfl))
  · exact State.setFpState_obeys (State.updFp_obeys (State.updFp_obeys ht d _ (by intro; rfl)) d _ (by intro; rfl)) d _ (fun _ hl => nomatch hl) fun _ _ =>
      .inr (hshut _ (by simp; rfl))

theorem State.endSale_fpState (s : State) (d e : Side) (c : Cause) : (s.endSale d c).fpState e = if e = d then .settling else s.fpState e := by
  unfold State.endSale
  rw [State.fpState_set]
  split
  · rfl
  · rename_i hed
    have hfp (y : State) (hy : y.fp = s.fp) : y.fpState e = s.fpState e := by rw [State.fpState, hy, State.fpState]
    split <;> simp only [State.fpState_updFp, if_neg hed] <;> exact hfp _ (by simp; rfl)

/-! ## The halt condition -/

theorem State.haltFp_obeys (h : Obeys P s x) (d : Side) : Obeys P s (x.haltFp d) := by
  unfold State.haltFp
  split
  iterate 3 exact State.endSale_obeys h d _
  · exact h.same (by rfl)
  · rename_i hd
    exact State.lockFp_obeys (State.endAuth_obeys h d _) d _ fun _ => by simp [State.endAuth_fpState, hd]
  iterate 4
    rename_i hd
    exact State.lockFp_obeys h d _ fun _ => by simp [hd]
  · exact h

theorem State.haltFp_live (s : State) (d : Side) : ((s.haltFp d).fpState d).live = false := by
  unfold State.haltFp
  split
  iterate 3 rw [State.endSale_fpState, if_pos rfl]; rfl
  · rename_i hd
    exact congrArg FpState.live hd
  iterate 5 rw [State.lockFp_fpState, if_pos rfl]; rfl
  · rename_i hd
    exact congrArg FpState.live hd

theorem State.closeAll_valve (s : State) (v : Meter) : s.closeAll.valve v = .shut := by
  obtain ⟨d, p⟩ := v
  cases d <;> cases p <;> rfl

/-- With the valves shut and the motors standing still, the law holds in every device power state, the sides being loose. -/
theorem State.DriveLawBut.of_stopped {y : State} (hm : y.pw.mains = false → y.pw.state = .powerFail) (hv : ∀ v, y.valve v = .shut)
    (hq : y.mot.queue = []) (hs : ∀ m, (y.motor m).state.still = true) (g : Bool) : y.DriveLawBut g (fun _ => true) :=
  ⟨hm, nofun, fun v hn => absurd (hv v) hn, fun _ => hs, .of_still hq hs g⟩

/-- Both sides being made fast, none is loose. -/
theorem State.DriveLawBut.bothFast {g : Bool} {loose : Side → Bool} (l : x.DriveLawBut g (fun _ => true)) (f : State → Side → State)
    (hf : ∀ y d, Obeys True y (f y d)) (hl : ∀ y d, ((f y d).fpState d).live = false) : (f (f x .a) .b).DriveLawBut g loose := by
  have ha := ((hf x .a).drive trivial g _ l).tighten (hl x .a)
  have hb := ((hf _ .b).drive trivial g _ ha).tighten (hl _ .b)
  exact hb.loosen fun d _ => by cases d <;> rfl

/-- An operation that leaves the meters and the working copy alone. -/
theorem Obeys.data {y : State} (h : Obeys False s x) (hmet : y.met = x.met) (hcopy : y.store.copy = x.store.copy) :
    Obeys False s y :=
  h.trans ⟨fun c m => by rw [State.meter, hmet]; exact c m, fun c => by rw [hcopy]; exact c, False.elim⟩

theorem StorePort.markReload_copy (x : StorePort) : x.markReload.copy = x.copy := by
  unfold StorePort.markReload
  split <;> rfl

/-- The state as the halt condition is entered, before the fueling points are told (R144 steps 1 to 4). -/
def State.haltDrives (s : State) (r : HaltReport) : State :=
  let t := (s.writeHaltRecord r).updPower (fun p => { p with state := .halted })
  let t := if r.code = .calibrationMismatch then t.updStore StorePort.markReload else t
  t.closeAll.stopDrives

theorem State.enterHalt_eq (s : State) (r : HaltReport) : s.enterHalt r = (((s.haltDrives r).haltFp .a).haltFp .b).attn .halt := rfl

theorem State.haltDrives_data (s : State) (r : HaltReport) : Obeys False s (s.haltDrives r) := by
  have h : Obeys False s ((s.writeHaltRecord r).updPower (fun p => { p with state := .halted })) := (Obeys.refl s).data rfl rfl
  unfold State.haltDrives
  dsimp only
  split
  · exact State.stopDrives_obeys (State.closeAll_obeys (h.data rfl (StorePort.markReload_copy _)))
  · exact State.stopDrives_obeys (State.closeAll_obeys h)

theorem State.haltDrives_valve (s : State) (r : HaltReport) (v : Meter) : (s.haltDrives r).valve v = .shut :=
  State.closeAll_valve (if r.code = .calibrationMismatch then _ else _) v

theorem State.haltDrives_pw (s : State) (r : HaltReport) : (s.haltDrives r).pw = { s.pw with state := .halted } := by
  unfold State.haltDrives
  dsimp only
  split <;> rfl

theorem State.haltDrives_law (s : State) (r : HaltReport) (hm : s.pw.mains = true) (g : Bool) :
    (s.haltDrives r).DriveLawBut g (fun _ => true) := by
  refine .of_stopped (fun hf => ?_) (State.haltDrives_valve s r) rfl (State.stopDrives_still _) g
  rw [State.haltDrives_pw] at hf
  exact absurd hm (by simpa using hf)

theorem State.enterHalt_obeys (h : Obeys P s x) (r : HaltReport) (hs : P → x.pw.state ≠ .powerFail) : Obeys P s (x.enterHalt r) := by
  have hrest : Obeys False x (x.enterHalt r) := (State.haltFp_obeys (State.haltFp_obeys (State.haltDrives_data x r) .a) .b).data rfl rfl
  refine h.trans ⟨hrest.channels, hrest.copy, fun p g loose l => ?_⟩
  have hfast := (State.haltDrives_law x r (l.mains (hs p)) g).bothFast (loose := loose) State.haltFp
    (fun y d => State.haltFp_obeys (.refl y) d) State.haltFp_live
  exact (State.attn_obeys (P := True) (.refl _) .halt).drive trivial g loose hfast

theorem State.reportHalt_obeys (h : Obeys P s x) (r : HaltReport) : Obeys P s (x.reportHalt r) := by
  unfold State.reportHalt
  split
  · rename_i ha
    exact State.enterHalt_obeys h r fun _ => by simp [ha]
  · split
    · exact h.same (by rw [State.lawView, State.updStore, StorePort.markReload_copy]; rfl)
    · exact h
  · split
    · exact h.same (by rfl)
    · split
      · exact h.same (by rfl)
      · exact h

theorem State.reportLock_obeys (h : Obeys P s x) (d : Side) (c : Cause) : Obeys P s (x.reportLock d c) := by
  unfold State.reportLock
  split
  · exact State.reportHalt_obeys h _
  · exact h

theorem State.settlingLock_obeys (h : Obeys P s x) (d : Side) (c : Cause) : Obeys P s (x.settlingLock d c) := by
  have hr : Obeys P s (x.updSale d [.endCause, .firstCause] (Sale.replaceCause c)) := h.same (by rfl)
  unfold State.settlingLock
  split
  · split
    · exact State.reportHalt_obeys h _
    · exact State.reportLock_obeys hr d c
  · exact State.reportLock_obeys hr d c

theorem State.takeCause_obeys (h : Obeys P s x) (d : Side) (c : Cause) : Obeys P s (x.takeCause d c) := by
  have hreport {y : State} (hy : Obeys P s y) (b : Bool) (z : State) (hz : Obeys P s z) : Obeys P s (if b then y.reportLock d c else z) := by
    cases b
    · exact hz
    · exact State.reportLock_obeys hy d c
  unfold State.takeCause
  split
  iterate 3 exact hreport (State.endSale_obeys h d c) _ _ (State.endSale_obeys h d c)
  · split
    · exact State.settlingLock_obeys h d c
    · exact h
  · rename_i hd
    exact hreport (State.lockFp_obeys (State.endAuth_obeys h d c) d c fun _ => by simp [State.endAuth_fpState, hd]) _ _ h
  iterate 4
    rename_i hd
    exact hreport (State.lockFp_obeys h d c fun _ => by simp [hd]) _ _ h
  · exact h

/-! ## Prerequisites -/

theorem State.reviewFp_obeys (h : Obeys P s x) (d : Side) : Obeys P s (x.reviewFp d) := by
  unfold State.reviewFp
  split
  · rename_i hd
    split
    · exact State.leaveFp_obeys h d (FuelPoint.readyState_live _) fun _ => by simp [hd]
    · exact h
  iterate 3
    rename_i hd
    split
    · exact h
    · exact State.leaveFp_obeys h d rfl fun _ => by simp [hd]
  · rename_i hd
    split
    · exact h
    · exact State.leaveFp_obeys (State.endAuth_obeys h d _) d rfl fun _ => by simp [State.endAuth_fpState, hd]
  · exact h

theorem State.reviewBoth_obeys (h : Obeys P s x) : Obeys P s x.reviewBoth := State.reviewFp_obeys (State.reviewFp_obeys h .a) .b

theorem State.headReport_obeys (h : Obeys P s x) (d : Side) : Obeys P s (x.headReport d) := by
  unfold State.headReport
  split
  · split
    · exact h
    · exact State.takeCause_obeys h d _
  · exact State.reviewFp_obeys h d

/-! ## Price application -/

theorem State.applySet_obeys (h : Obeys P s x) (d : Side) (flag : Bool) : Obeys P s (x.applySet d flag) := by
  unfold State.applySet
  split
  · exact h
  · exact State.reviewFp_obeys (State.attnIf_obeys (h.same (by rfl)) _ _) d

theorem State.applyIfDue_obeys (h : Obeys P s x) (d : Side) : Obeys P s (x.applyIfDue d) := by
  unfold State.applyIfDue
  split
  · exact h
  · split
    · exact State.applySet_obeys h d true
    · exact h

theorem State.finishPending_obeys (h : Obeys P s x) : Obeys P s x.finishPending := by
  unfold State.finishPending
  split
  · exact h
  · split
    · exact State.completeOpt_obeys (h.same (by rfl)) _ _ _
    · exact h

theorem State.applyBoth_obeys (h : Obeys P s x) : Obeys P s x.applyBoth :=
  State.finishPending_obeys (State.applyIfDue_obeys (State.applyIfDue_obeys h .a) .b)

/-! ## Opening a sale and its gates -/

theorem State.enterStarting_obeys (h : Obeys P s x) (d : Side) (ha : P → x.pw.state = .active) (hd : P → x.fpState d ≠ .fueling) :
    Obeys P s (x.enterStarting d) := by
  refine State.setFpState_obeys (State.updFp_obeys h d _ (by intro; rfl)) d _ (fun p _ => ha p) fun p _ => .inl ?_
  rw [State.fpState_updFp, if_pos rfl]
  exact hd p

theorem State.freshAccumulators_obeys (h : Obeys P s x) (d : Side) : Obeys P s (x.freshAccumulators d) := by
  have one {y : State} (hy : Obeys P s y) (p : Product) : Obeys P s (y.updMeter ⟨d, p⟩ (fun c => { c with saleAcc := 0, saleV := 0 })) :=
    State.updMeter_obeys hy _ _ fun c => { c with accumulators := ⟨by simp, c.accumulators.2⟩ }
  exact one (one (one h .p1) .p2) .p3

theorem State.fixGrade_obeys (h : Obeys P s x) (d : Side) (g : Grade) (p : PriceSet) : Obeys P s (x.fixGrade d g p) :=
  State.raiseAll_obeys (State.requestSale_obeys (State.requestZero_obeys (State.freshAccumulators_obeys
    (State.updFp_obeys (State.updSale_obeys h d _ _) d _ (by intro; rfl)) d) d) d) d

theorem State.tryFix_obeys (h : Obeys P s x) (d : Side) : Obeys P s (x.tryFix d) := by
  unfold State.tryFix
  split
  · split
    · exact State.fixGrade_obeys h d _ _
    · exact h
  · exact h

theorem State.raiseAll_pw (s : State) (d : Side) : (s.raiseAll d).pw = s.pw := by
  have one (y : State) (b : Bool) (m : Product) : (if b then y.raiseDemand d m else y).pw = y.pw := by cases b <;> simp
  unfold State.raiseAll
  simp only [one]

theorem State.tryFix_pw (s : State) (d : Side) : (s.tryFix d).pw = s.pw := by
  unfold State.tryFix
  split
  · split
    · simp only [State.fixGrade, State.raiseAll_pw, State.requestSale, State.requestZero, State.updDisp_pw, State.freshAccumulators,
        State.updMeter_pw, State.updFp_pw, State.updSale_pw]
    · rfl
  · rfl

theorem State.startBlend_obeys (h : Obeys P s x) (d : Side) : Obeys P s (x.startBlend d) := by
  unfold State.startBlend
  split
  · split
    · exact State.updBlend_obeys h d _
    · exact h
  · exact h

theorem State.openValves_obeys (h : Obeys P s x) (d : Side) (hd : x.fpState d = .fueling) : Obeys P s (x.openValves d) := by
  unfold State.openValves
  exact State.updValveSide_obeys h d _ fun hn => absurd hd hn

theorem State.startBlend_fpState (s : State) (d e : Side) : (s.startBlend d).fpState e = s.fpState e := by
  unfold State.startBlend
  split
  · split <;> rfl
  · rfl

theorem State.enterFueling_obeys (h : Obeys P s x) (d : Side) (ha : P → x.pw.state = .active) : Obeys P s (x.enterFueling d) := by
  have hf : Obeys P s ((x.updFp d (fun f => { f with start := none, noFlow := some 60000 })).setFpState d .fueling) :=
    State.setFpState_obeys (State.updFp_obeys h d _ (by intro; rfl)) d _ (fun p _ => ha p) fun _ hn => absurd rfl hn
  have hopen {y : State} (hy : Obeys P s y) (hd : y.fpState d = .fueling) : Obeys P s ((y.startBlend d).openValves d) :=
    State.openValves_obeys (State.startBlend_obeys hy d) d (by rw [State.startBlend_fpState, hd])
  have hfuel := (State.fpState_set (x.updFp d (fun f => { f with start := none, noFlow := some 60000 })) d d .fueling).trans (if_pos rfl)
  have hslow (b : Bool) {y : State} (hy : Obeys P s y) (hd : y.fpState d = .fueling) :
      Obeys P s (((if b then y.slowSide d else y).startBlend d).openValves d) := by
    cases b
    · exact hopen hy hd
    · exact hopen (State.slowSide_obeys hy d) hd
  unfold State.enterFueling
  dsimp only
  split
  · exact State.takeCause_obeys (hslow _ hf hfuel) d _
  · exact hslow _ hf hfuel

theorem State.evalStarting_obeys (h : Obeys P s x) (d : Side) : Obeys P s (x.evalStarting d) := by
  unfold State.evalStarting
  split
  · rename_i hx
    have ht : Obeys P s ((x.tryFix d).testGate3 d) := State.updFp_obeys (State.tryFix_obeys h d) d _ (by intro; rfl)
    dsimp only
    split
    · exact State.enterFueling_obeys ht d fun _ => (congrArg Power.state (State.tryFix_pw x d)).trans hx.2
    · exact ht
  · exact h

theorem State.evalBoth_obeys (h : Obeys P s x) : Obeys P s x.evalBoth := State.evalStarting_obeys (State.evalStarting_obeys h .a) .b

theorem State.dropMessage_obeys (h : Obeys P s x) (d : Side) : Obeys P s (x.dropMessage d) := 
  State.updLine_obeys (State.completeOpt_obeys h _ _ _) d _

theorem State.openSale_obeys (h : Obeys P s x) (d : Side) (hose : Hose) (ha : P → x.pw.state = .active) (hd : P → x.fpState d ≠ .fueling) :
    Obeys P s (x.openSale d hose) := by
  unfold State.openSale
  split
  · exact h
  · rename_i a _
    have hs : Obeys P s (x.updSale d allSaleParts (fun _ => Sale.opening d hose a x.pw.degraded)) := h.same (by rfl)
    have hb {y : State} (hy : Obeys P s y) : Obeys P s ((y.updValveSide d (fun v => { v with slow := false })).updBlend d
        (fun b => { b with setUp := false })) := State.updBlend_obeys (State.updBlendSide_obeys hy d _ (by intro; rfl)) d _
    refine State.evalStarting_obeys (State.dropMessage_obeys (State.requestSale_obeys (State.enterStarting_obeys
      (hb (State.updFp_obeys hs d _ (by intro; rfl))) d ha fun p => ?_) d) d) d
    have hx := hd p
    cases d <;> exact hx

/-! ## Completion -/

theorem State.closeOut_obeys (h : Obeys P s x) (d : Side) : Obeys P s (x.closeOut d) :=
  State.requestSale_obeys (State.updBlendSide_obeys (State.attnIf_obeys (State.attn_obeys (State.updFp_obeys
    (State.updRetSide_obeys h d _ _) d _ (by intro; rfl)) _) _ _) d _ (by intro; rfl)) d

theorem State.afterCompletion_obeys (h : Obeys P s x) (d : Side) (hd : P → x.fpState d ≠ .fueling) : Obeys P s (x.afterCompletion d) := by
  unfold State.afterCompletion
  dsimp only
  split
  · exact State.lockFp_obeys h d _ hd
  split
  · exact State.lockFp_obeys h d _ hd
  split
  · exact State.leaveFp_obeys h d rfl hd
  split
  · exact State.leaveFp_obeys h d rfl hd
  · exact State.leaveFp_obeys h d (FuelPoint.readyState_live _) hd

theorem State.closeOut_fpState (s : State) (d e : Side) : (s.closeOut d).fpState e = s.fpState e := by
  simp only [State.fpState, State.closeOut, State.requestSale, State.updDisp_fp, State.updValveSide_fp, State.attnIf_fp, State.attn_fp,
    State.updFp_fp, State.updRetSide_fp]
  cases d <;> cases e <;> rfl

theorem State.completeSale_obeys (h : Obeys P s x) (d : Side) (hd : P → x.fpState d ≠ .fueling) : Obeys P s (x.completeSale d) :=
  State.finishPending_obeys (State.applyIfDue_obeys (State.afterCompletion_obeys (State.closeOut_obeys h d) d fun p => by
    rw [State.closeOut_fpState]
    exact hd p) d)

end Sys2Proof.Machine
end

section
/-! PROOFS. What the operations of heads, readers, the store port and the power sequencer keep of those laws. -/

namespace Sys2Proof.Machine

variable {P : Prop} {s x : State}

/-! ## Heads -/

theorem State.askCall_obeys (h : Obeys P s x) (k : CallKind) : Obeys P s (x.askCall k) := State.updDisp_obeys h _

theorem State.checkProbing_obeys (h : Obeys P s x) : Obeys P s x.checkProbing := by
  unfold State.checkProbing
  split
  · exact State.askCall_obeys h _
  · exact h

theorem State.endFlight_obeys (h : Obeys P s x) : Obeys P s x.endFlight := State.updDisp_obeys h _

theorem State.startSpacing_obeys (h : Obeys P s x) (e : Entry) : Obeys P s (x.startSpacing e) := by
  unfold State.startSpacing
  split
  · exact State.updHead_obeys h _ _
  · exact h

theorem State.messageDown_obeys (h : Obeys P s x) (d : Side) (r : Role) : Obeys P s (x.messageDown d r) :=
  State.updLine_obeys (State.completeOpt_obeys h _ _ _) d _

theorem State.headChanged_obeys (h : Obeys P s x) (r : Role) (old : HeadState) : Obeys P s (x.headChanged r old) := by
  have ht : Obeys P s (x.attn .display) := State.attn_obeys h _
  unfold State.headChanged
  split
  · exact h
  · dsimp only
    split
    · exact ht
    · split
      · exact State.headReport_obeys (State.messageDown_obeys ht _ _) _
      · exact State.headReport_obeys ht _

theorem State.headUp_obeys (h : Obeys P s x) (r : Role) (st : HeadState) : Obeys P s (x.headUp r st) :=
  State.headChanged_obeys (State.updDisp_obeys (State.updHead_obeys h r _) _) r _

theorem State.headFailed_obeys (h : Obeys P s x) (r : Role) (why : FailReason) : Obeys P s (x.headFailed r why) :=
  State.headChanged_obeys (State.updDisp_obeys (State.updHead_obeys h r _) _) r _

theorem State.headShift_obeys (h : Obeys P s x) (r : Role) (st : HeadState) : Obeys P s (x.headShift r st) :=
  State.headChanged_obeys (State.updHead_obeys h r _) r _

theorem State.frameDone_obeys (h : Obeys P s x) (r : Role) : Obeys P s (x.frameDone r) := State.updHead_obeys h r _

theorem State.attemptFailed_obeys (h : Obeys P s x) (e : Entry) (why : FailReason) : Obeys P s (x.attemptFailed e why) := by
  unfold State.attemptFailed
  dsimp only
  split
  · split
    · split
      · exact State.headFailed_obeys (State.updHead_obeys h _ _) _ _
      · exact State.updDisp_obeys (State.updHead_obeys h _ _) _
    · split
      · exact State.updHead_obeys h _ _
      · exact h
  · split
    · exact State.headFailed_obeys (State.startSpacing_obeys (State.updHead_obeys h _ _) e) _ _
    · exact State.updDisp_obeys (State.startSpacing_obeys (State.updHead_obeys h _ _) e) _

theorem State.flightFailed_obeys (h : Obeys P s x) (f : Flight) (why : FailReason) : Obeys P s (x.flightFailed f why) := by
  unfold State.flightFailed
  split
  · exact h
  · exact State.checkProbing_obeys (State.attemptFailed_obeys h _ _)

theorem State.showAcked_obeys (h : Obeys P s x) (r : Role) (f : Field) (bytes : List Byte) : Obeys P s (x.showAcked r f bytes) := by
  have hmessage {y : State} (hy : Obeys P s y) (d : Side) : Obeys P s (y.messageShown d bytes) := by
    unfold State.messageShown
    dsimp only
    split
    · exact State.updLine_obeys (State.completeOpt_obeys hy _ _ _) d _
    · exact hy
  unfold State.showAcked
  dsimp only
  split
  · exact hmessage (State.updHead_obeys h r _) _
  · exact State.updHead_obeys h r _

theorem State.zeroAcked_obeys (h : Obeys P s x) (f : Flight) : Obeys P s (x.zeroAcked f) := by
  unfold State.zeroAcked
  split
  · split
    · exact State.evalStarting_obeys (State.updFp_obeys h _ _ (by intro; rfl)) _
    · exact h
  · exact h

theorem State.probeAnswer_obeys (h : Obeys P s x) (e : Entry) (b : Byte) : Obeys P s (x.probeAnswer e b) := by
  unfold State.probeAnswer
  split
  · exact State.headUp_obeys (State.frameDone_obeys h _) _ _
  · split
    · exact State.headFailed_obeys (State.frameDone_obeys h _) _ _
    · exact State.attemptFailed_obeys h _ _

theorem State.refreshAnswer_obeys (h : Obeys P s x) (e : Entry) (b check : Byte) : Obeys P s (x.refreshAnswer e b check) := by
  unfold State.refreshAnswer
  split
  · split
    · exact State.headShift_obeys (State.frameDone_obeys h _) _ _
    · exact State.attemptFailed_obeys (State.headShift_obeys h _ _) _ _
  · split
    · exact State.headFailed_obeys h _ _
    · exact State.attemptFailed_obeys h _ _

theorem State.transferDone_obeys (h : Obeys P s x) (f : Flight) (b check : Byte) : Obeys P s (x.transferDone f b check) := by
  unfold State.transferDone
  dsimp only
  split
  · exact State.endFlight_obeys h
  · split
    · split
      · exact State.checkProbing_obeys (State.probeAnswer_obeys (State.endFlight_obeys h) _ _)
      · exact State.checkProbing_obeys (State.refreshAnswer_obeys (State.endFlight_obeys h) _ _ _)
    · exact State.zeroAcked_obeys (State.startSpacing_obeys (State.frameDone_obeys (State.showAcked_obeys (State.endFlight_obeys h) _ _ _) _) _) _
    · exact State.updDisp_obeys (State.showAcked_obeys h _ _ _) _

theorem State.mapHead_obeys (h : Obeys P s x) (r : Role) : Obeys P s (x.mapHead r) := by
  unfold State.mapHead
  dsimp only
  split
  · split
    · exact h
    · exact State.headChanged_obeys (State.updDisp_obeys (State.updHead_obeys h r _) _) r _
  · split
    · exact h
    · exact State.headChanged_obeys (State.updDisp_obeys (State.updHead_obeys h r _) _) r _

theorem State.readMap_obeys (h : Obeys P s x) : Obeys P s x.readMap := obeys_foldl _ _ h fun y r => State.mapHead_obeys (.refl y) r

theorem State.rereadMap_obeys (h : Obeys P s x) : Obeys P s x.rereadMap := by
  unfold State.rereadMap
  split
  · exact State.checkProbing_obeys (State.readMap_obeys h)
  · exact h

theorem State.dropMessages_obeys (h : Obeys P s x) : Obeys P s x.dropMessages := by
  have one {y : State} (hy : Obeys P s y) (d : Side) (o : Option OrderRef) :
      Obeys P s ((y.completeOpt o .unavailable Reason.notShown.code).updLine d (fun _ => .cleared)) :=
    State.updLine_obeys (State.completeOpt_obeys hy _ _ _) d _
  exact one (one h .a _) .b _

theorem State.parkDisplay_obeys (h : Obeys P s x) : Obeys P s x.parkDisplay := State.attnIf_obeys (State.updDisp_obeys h _) _ _

theorem State.endSegmentTest_obeys (h : Obeys P s x) : Obeys P s x.endSegmentTest := h.same (by rfl)

/-! ## Readers -/

theorem State.readerLeft_obeys (h : Obeys P s x) (d : Side) : Obeys P s (x.readerLeft d) := by
  unfold State.readerLeft
  split
  · rename_i hd _
    split
    · exact State.endAuthReady_obeys h d _ fun _ => by simp [hd]
    · exact h
  · exact h

theorem State.readerTampered_obeys (h : Obeys P s x) (d : Side) : Obeys P s (x.readerTampered d) := by
  unfold State.readerTampered
  split
  · exact State.takeCause_obeys h d _
  · exact h

theorem State.setReaderState_obeys (h : Obeys P s x) (d : Side) (st : ReaderState) : Obeys P s (x.setReaderState d st) := by
  have ht : Obeys P s ((x.updReader d (fun r => { r with state := st, changed := x.rtc })).attn (readerFlag d)) :=
    State.attn_obeys (State.updReader_obeys h d _) _
  unfold State.setReaderState
  dsimp only
  split
  · exact h
  · split <;> split
    · exact State.readerTampered_obeys (State.readerLeft_obeys ht d) d
    · exact State.readerTampered_obeys ht d
    · exact State.readerLeft_obeys ht d
    · exact ht

theorem State.cutReader_obeys (h : Obeys P s x) (d : Side) (c : OffCause) (st : ReaderState) : Obeys P s (x.cutReader d c st) :=
  State.setReaderState_obeys (State.updReader_obeys (obeys_foldl _ _ h fun y _ => State.complete_obeys (.refl y) _ _ _) d _) d st

theorem State.warmReader_obeys (h : Obeys P s x) (d : Side) : Obeys P s (x.warmReader d) :=
  State.setReaderState_obeys (State.updReader_obeys h d _) d _

theorem State.powerReader_obeys (h : Obeys P s x) (d : Side) : Obeys P s (x.powerReader d) := by
  unfold State.powerReader
  dsimp only
  split
  · exact h
  · split
    · exact State.setReaderState_obeys (State.updReader_obeys h d _) d _
    · exact State.warmReader_obeys h d

theorem State.readerOff_obeys (h : Obeys P s x) (d : Side) (c : OffCause) : Obeys P s (x.readerOff d c) := by
  unfold State.readerOff
  split
  · exact State.cutReader_obeys h d c _
  · exact State.setReaderState_obeys (State.updReader_obeys h d _) d _

theorem State.readerOffFor_obeys (h : Obeys P s x) (d : Side) (c : OffCause) : Obeys P s (x.readerOffFor d c) := by
  unfold State.readerOffFor
  split
  · exact h
  · exact State.updReader_obeys (State.readerOff_obeys h d c) d _

theorem State.powerFresh_obeys (h : Obeys P s x) (d : Side) : Obeys P s (x.powerFresh d) :=
  State.powerReader_obeys (State.updReader_obeys h d _) d

theorem State.rereadFitted_obeys (h : Obeys P s x) (d : Side) : Obeys P s (x.rereadFitted d) := by
  have ht : Obeys P s (x.readFitted d) := State.updReader_obeys h d _
  unfold State.rereadFitted
  dsimp only
  split
  · exact ht
  · split
    · split
      · exact State.powerFresh_obeys ht d
      · exact ht
    · exact State.readerOffFor_obeys ht d _

theorem State.readerMiss_obeys (h : Obeys P s x) (d : Side) : Obeys P s (x.readerMiss d) := by
  unfold State.readerMiss
  dsimp only
  split
  · split
    · exact State.updReader_obeys (State.cutReader_obeys (State.updReader_obeys h d _) d _ _) d _
    · exact State.updReader_obeys h d _
  · exact h

theorem State.storeMail_obeys (h : Obeys P s x) (d : Side) (payload : List Byte) : Obeys P s (x.storeMail d payload) := by
  unfold State.storeMail
  dsimp only
  split
  · exact h
  · exact State.attn_obeys (State.updReader_obeys h d _) _

theorem State.giveAnswer_obeys (h : Obeys P s x) (d : Side) (k : ReplyKind) : Obeys P s (x.giveAnswer d k) := by
  unfold State.giveAnswer
  split
  · exact h
  · split
    · exact State.complete_obeys (State.updReader_obeys h d _) _ _ _
    · exact State.updReader_obeys h d _
    · split
      · exact State.complete_obeys (State.updReader_obeys h d _) _ _ _
      · exact State.updReader_obeys h d _
    · exact h

theorem State.replyAction_obeys (h : Obeys P s x) (d : Side) (f : LinkKind) (k : ReplyKind) (payload : List Byte) :
    Obeys P s (x.replyAction d f k payload) := by
  unfold State.replyAction
  split
  · split
    · exact State.storeMail_obeys h d payload
    · exact h
  · exact State.giveAnswer_obeys h d k
  · exact h

theorem State.readiness_obeys (h : Obeys P s x) (d : Side) (ready : Bool) : Obeys P s (x.readiness d ready) := by
  unfold State.readiness
  split
  · exact State.setReaderState_obeys (State.updReader_obeys h d _) d _
  · exact State.setReaderState_obeys (State.updReader_obeys h d _) d _
  · exact h

theorem State.replyTaken_obeys (h : Obeys P s x) (d : Side) (f : LinkKind) (k : ReplyKind) (r : Reply) : Obeys P s (x.replyTaken d f k r) :=
  State.readiness_obeys (State.replyAction_obeys (State.updReader_obeys h d _) d f k _) d _

/-! ## The store port -/

theorem Channel.Law.calibrated {c : Channel} (h : c.Law) (k : Nat) (cal : Option Calibration) : Channel.Law { c with k := k, cal := cal } :=
  { h with }

theorem State.loadStore_obeys (h : Obeys P s x) (image : List Host.Cell) : Obeys P s (x.loadStore image) := by
  have hload : Obeys P s (x.updStore (fun y => y.load image)) := by
    refine State.updStore_obeys h _ fun _ m hm => ?_
    unfold StorePort.load at hm
    dsimp only at hm
    split at hm
    · cases hm
    · exact Option.some.inj hm ▸ Memory.ofCells_wf _ _
  exact obeys_foldl _ _ (State.updHalt_obeys (State.attnIf_obeys hload _ _) _) fun y m =>
    State.updMeter_obeys (.refl y) m _ fun c => c.calibrated _ _

theorem State.takeCalibration_obeys (h : Obeys P s x) (m : Meter) : Obeys P s (x.takeCalibration m) :=
  State.updMeter_obeys h m _ fun c => { c with accumulators := ⟨c.accumulators.1, by simp⟩ }

theorem State.tellUsers_obeys (h : Obeys P s x) : Obeys P s x.tellUsers :=
  State.requestBoard_obeys (State.requestBoard_obeys (State.rereadFitted_obeys (State.rereadFitted_obeys (State.rereadMap_obeys h) .a) .b) .a) .b

theorem foldl_wf {α : Type} (f : Memory → α → Memory) (xs : List α) {m : Memory} (hm : m.wf = true)
    (hf : ∀ q a, Memory.wf q = true → (f q a).wf = true) : (xs.foldl f m).wf = true := by
  induction xs generalizing m with
  | nil => exact hm
  | cons a rest ih => exact ih (hf m a hm)

theorem clearPads_wf {m : Memory} (h : m.wf = true) : (clearPads m).wf = true :=
  Memory.writeAll_wf (foldl_wf _ _ h fun _ _ hq => Memory.writeAll_wf hq _ _) _ _

theorem clearEntries_wf {m : Memory} (h : m.wf = true) : (clearEntries m).wf = true :=
  Memory.writeAll_wf (Memory.writeAll_wf h _ _) _ _

theorem addEntry_wf {m : Memory} (h : m.wf = true) (e : LogEntry) : (addEntry m e).wf = true :=
  Memory.writeAll_wf (Memory.writeAll_wf (Memory.writeAll_wf h _ _) _ _) _ _

/-- The working copy, or the empty image where there is none, is in canonical form. -/
theorem StorePort.image_wf {p : StorePort} (h : ∀ m, p.copy = some m → m.wf = true) : p.image.wf = true := by
  unfold StorePort.image
  cases hc : p.copy with
  | none => rfl
  | some m => exact h m hc

theorem StorePort.beginPart_wf {p : StorePort} (h : ∀ m, p.copy = some m → m.wf = true) (o : StoreOrder) (part : StorePart) :
    ∀ m, (p.beginPart o part).copy = some m → m.wf = true := by
  have hpad : ∀ m, (p.padded part).copy = some m → m.wf = true := by
    unfold StorePort.padded
    split
    · intro m hm
      obtain ⟨q, hq, rfl⟩ := Option.map_eq_some_iff.mp hm
      exact clearPads_wf (h q hq)
    · exact h
  unfold StorePort.beginPart
  dsimp only
  split <;> exact hpad

theorem State.beginWrite_obeys (h : Obeys P s x) : Obeys P s x.beginWrite := by
  unfold State.beginWrite
  split
  · split
    · exact h
    · exact State.updStore_obeys h _ fun hc => StorePort.beginPart_wf hc _ _
  · exact h

theorem State.writeGood_obeys (h : Obeys P s x) (w : StoreWrite) : Obeys P s (x.writeGood w) := by
  unfold State.writeGood
  split
  · exact State.updStore_obeys h _ (by exact id)
  · exact State.beginWrite_obeys (State.complete_obeys (State.reviewBoth_obeys (State.attnIf_obeys (State.updStore_obeys h _ (by exact id)) _ _)) _ _ _)

theorem State.writeBad_obeys (h : Obeys P s x) : Obeys P s x.writeBad := by
  unfold State.writeBad
  split
  · exact State.updStore_obeys h _ (by exact id)
  · exact State.beginWrite_obeys (State.complete_obeys (State.attn_obeys (State.updStore_obeys h _ (by exact id)) _) _ _ _)

theorem State.pageGood_obeys (h : Obeys P s x) (w : StoreWrite) : Obeys P s (x.pageGood w) := by
  unfold State.pageGood
  split
  · exact State.updStore_obeys h _ (by exact id)
  · split
    · refine State.updStore_obeys h _ fun hc => ?_
      split
      · exact hc
      · exact StorePort.beginPart_wf hc _ _
    · exact State.writeGood_obeys h w

theorem State.storeEffect_obeys (h : Obeys P s x) (o : Order) (block : ParamBlock) (whole : Bool) (image : Memory) (c : LogChange)
    (hi : (∀ m, x.store.copy = some m → m.wf = true) → image.wf = true) : Obeys P s (x.storeEffect o block whole image c) := by
  unfold State.storeEffect
  refine State.beginWrite_obeys (State.attnIf_obeys (State.updStore_obeys h _ fun hc m hm => ?_) _ _)
  exact Option.some.inj hm ▸ addEntry_wf (hi hc) _

/-! ## Exchange memory zeroed, and the start of a wake -/

/-- Every channel is replaced by one within the law. -/
theorem channels_of_map {f : Channel → Channel} (hf : ∀ c : Channel, c.Law → (f c).Law) {y z : State}
    (hz : z.met = ⟨y.met.a.map f, y.met.b.map f⟩) (c : ∀ m, (y.meter m).Law) (m : Meter) : (z.meter m).Law := by
  have hm : z.meter m = f (y.meter m) := by
    obtain ⟨d, p⟩ := m
    rw [State.meter, hz]
    cases d <;> cases p <;> rfl
  exact hm ▸ hf _ (c m)

theorem ValveSide.powerUp_shut (p : Product) : ValveSide.powerUp.valves.get p = .shut := Three.get_shut p

theorem State.zeroExchange_obeys (h : Obeys P s x) : Obeys P s x.zeroExchange := by
  refine h.trans ⟨channels_of_map (f := Channel.rewritten) (fun c hc => { hc with rate := Nat.zero_le _ }) rfl, nofun, fun _ g loose l =>
    ⟨l.mainsAbsent, fun d _ hd => ?_, fun v hv => absurd ?_ hv, l.still, l.motors⟩⟩
  · cases d <;> simp only [State.fpState, State.zeroExchange, Sides.get, FuelPoint.rewritten, FuelPoint.powerUp] at hd <;> split at hd <;> cases hd
  · obtain ⟨d, p⟩ := v
    cases d <;> exact ValveSide.powerUp_shut p

theorem Channel.Law.discarded {c : Channel} (h : c.Law) : c.discarded.Law := { Channel.powerUp_law with rate := h.rate }

theorem State.stopDecoding_obeys (h : Obeys P s x) : Obeys P s x.stopDecoding := by
  refine h.trans ⟨channels_of_map (fun _ hc => hc.discarded) rfl, id, fun _ g loose l => ?_⟩
  have hfp : ∀ d, x.stopDecoding.fpState d = x.fpState d := fun d => by cases d <;> rfl
  exact ⟨l.mainsAbsent, fun d => by rw [hfp]; exact l.liveActive d, fun v => by rw [hfp]; exact l.valves v, l.still, l.motors⟩

theorem State.dropStoreList_obeys (h : Obeys P s x) : Obeys P s x.dropStoreList := by
  have hc := obeys_foldl (fun (y : State) (o : StoreOrder) => y.complete o.ref .unavailable Reason.notWritten.code) x.store.list h
    fun y _ => State.complete_obeys (.refl y) _ _ _
  unfold State.dropStoreList
  exact State.updStore_obeys hc _ fun _ m hm => absurd hm (by simp)

theorem State.wakeStart_obeys (h : Obeys P s x) (c : WakeCause) (hm : P → x.pw.mains = true ∨ x.pw.state ≠ .powerFail) (ha : P → x.pw.state ≠ .active) :
    Obeys P s (x.wakeStart c) :=
  State.stopDecoding_obeys (State.dropStoreList_obeys (State.updDisp_obeys (State.dropMessages_obeys (State.updPort_obeys
    (State.setWakeTime_obeys (State.attn_obeys (State.updPower_obeys (State.setPowerState_obeys h _ hm ha) _ (by intro; rfl) (by intro; rfl)) _) _) _)) _))

/-! ## The phases of a wake -/

theorem Channel.begin_law (c : Channel) (p : LevelPair) : (c.begin p).Law := { Channel.powerUp_law with }

theorem State.startLockFlow_obeys (h : Obeys P s x) (d : Side) : Obeys P s (x.startLockFlow d) := by
  unfold State.startLockFlow
  split
  · exact State.updFp_obeys h d _ (by intro; rfl)
  · exact h

theorem State.startDecoding_obeys (h : Obeys P s x) (levels : Sides (Three LevelPair)) : Obeys P s (x.startDecoding levels) := by
  have hb (y : State) (hy : y = { x with met := y.met }) (hl : ∀ m, (y.meter m).Law) : Obeys P s y := by
    refine h.trans ⟨fun _ => hl, by rw [hy]; exact id, fun _ g loose l => ?_⟩
    rw [hy]
    exact ⟨l.mainsAbsent, l.liveActive, l.valves, l.still, l.motors⟩
  refine obeys_foldl _ _ (State.startLockFlow_obeys (State.startLockFlow_obeys (State.updPower_obeys (hb _ rfl fun m => ?_) _ (by intro; rfl)
      (by intro; rfl)) .a) .b)
    fun y r => State.rewrite_obeys (.refl y) r
  obtain ⟨d, p⟩ := m
  cases d <;> cases p <;> exact Channel.begin_law _ _

theorem State.initRetention_obeys (h : Obeys P s x) (ha : P → x.fpState .a ≠ .fueling) (hb : P → x.fpState .b ≠ .fueling) :
    Obeys P s x.initRetention := by
  have hr : Obeys P s { x with ret := x.ret.initialized, rtc := 0, rev := x.rev.wroteTo initParts } := h.same (by rfl)
  refine obeys_foldl _ _ (State.leaveFp_obeys (State.leaveFp_obeys (State.setPriceOrder_obeys (State.updPower_obeys hr _ (by intro; rfl)
      (by intro; rfl)) _) .a rfl ha) .b rfl
    fun p => ?_) fun y r => State.rewrite_obeys (.refl y) r
  rw [State.fpState_set]
  exact hb p

theorem State.finalizeFp_obeys (h : Obeys P s x) (d : Side) (hd : P → x.fpState d ≠ .fueling) : Obeys P s (x.finalizeFp d) := by
  have hlive (b : Bool) : (if b then FpState.locked else .unavailable).live = false := by cases b <;> rfl
  have hclose : Obeys P s ((x.updSale d (x.sale d).cutParts Sale.cutOff).closeOut d) := State.closeOut_obeys (State.updSale_obeys h d _ _) d
  have hd' : P → ((x.updSale d (x.sale d).cutParts Sale.cutOff).closeOut d).fpState d ≠ .fueling := fun p => by
    rw [State.closeOut_fpState]
    exact hd p
  unfold State.finalizeFp
  dsimp only
  split
  · split
    · exact State.lockFp_obeys hclose d _ hd'
    · exact State.leaveFp_obeys hclose d (hlive _) hd'
  · exact State.leaveFp_obeys h d (hlive _) hd

theorem State.finalizeFp_other (s : State) (d : Side) : (s.finalizeFp d).fpState d.other = s.fpState d.other := by
  unfold State.finalizeFp
  dsimp only
  split
  · split
    · rw [State.lockFp_fpState, if_neg d.other_ne, State.closeOut_fpState]
      rfl
    · rw [State.fpState_set, if_neg d.other_ne, State.closeOut_fpState]
      rfl
  · rw [State.fpState_set, if_neg d.other_ne]

theorem State.retentionPhase_obeys (h : Obeys P s x) (ha : P → x.fpState .a ≠ .fueling) (hb : P → x.fpState .b ≠ .fueling) :
    Obeys P s x.retentionPhase := by
  unfold State.retentionPhase
  split
  · refine State.finishPending_obeys (State.applySet_obeys (State.applySet_obeys (State.finalizeFp_obeys (State.finalizeFp_obeys
      (State.updPower_obeys h _ (by intro; rfl) (by intro; rfl)) .a ha) .b fun p => ?_) .a _) .b _)
    exact (State.finalizeFp_other _ .a).symm ▸ hb p
  · exact State.initRetention_obeys h ha hb

theorem State.enterDisplay_obeys (h : Obeys P s x) : Obeys P s x.enterDisplay :=
  State.updDisp_obeys (State.attn_obeys (State.updPower_obeys h _ (by intro; rfl) (by intro; rfl)) _) _

theorem State.setPhase_obeys (h : Obeys P s x) (ph : WakePhase) : Obeys P s (x.setPhase ph) := State.attn_obeys (State.updPower_obeys h _
    (by intro; rfl) (by intro; rfl)) _

/-- Outside ACTIVE a motor stands still, and stands still in FAULT. -/
theorem State.faultMotor_obeys (h : Obeys P s x) (m : Product) (now : Word32) (ha : P → x.pw.state ≠ .active) :
    Obeys P s (x.updMotor m (fun r => r.faulted now)) := by
  refine h.motors rfl (fun p g hs l => ?_) (fun _ l n => ?_)
  · have hset := MotorState.settled_iff.mp (MotorState.settled_of_still (hs (ha p) m))
    exact l.replace m hset.1 rfl fun _ => hset.2
  · rw [State.motor_updMotor]
    split
    · rfl
    · exact l n

theorem State.drivesPhase_obeys (h : Obeys P s x) (ha : P → x.pw.state ≠ .active) : Obeys P s x.drivesPhase := by
  have one {y : State} (hy : Obeys P s y) (hp : P → y.pw.state ≠ .active) (m : Product) :
      let z := if (y.motor m).trip = true ∧ (y.motor m).state ≠ .fault then (y.updMotor m (fun r => r.faulted y.rtc)).attn .motor else y
      Obeys P s z ∧ (P → z.pw.state ≠ .active) := by
    dsimp only
    split
    · exact ⟨State.attn_obeys (State.faultMotor_obeys hy m _ hp) _, hp⟩
    · exact ⟨hy, hp⟩
  obtain ⟨h1, p1⟩ := one (State.updPower_obeys h (fun p => { p with drives := true }) (by intro; rfl) (by intro; rfl)) ha .p1
  obtain ⟨h2, p2⟩ := one h1 p1 .p2
  exact (one h2 p2 .p3).1

theorem State.readersPhase_obeys (h : Obeys P s x) : Obeys P s x.readersPhase := by
  have one {y : State} (hy : Obeys P s y) (d : Side) : Obeys P s ((y.readFitted d).powerFresh d) :=
    State.powerFresh_obeys (State.updReader_obeys hy d _) d
  exact one (one h .a) .b

theorem State.wakeEnd_obeys (h : Obeys P s x) (hw : P → x.pw.state = .waking) : Obeys P s x.wakeEnd := by
  have ht : Obeys P s ((x.updPower (fun p => { p with phase := .none, devReset := false })).attn .power) :=
    State.attn_obeys (State.updPower_obeys h _ (by intro; rfl) (by intro; rfl)) _
  unfold State.wakeEnd
  dsimp only
  split
  · exact State.enterHalt_obeys (State.updHalt_obeys ht _) _ fun p => by simp [hw p]
  · refine State.reviewBoth_obeys (State.requeueMotors_obeys (State.setPowerState_obeys ht _ (fun p => .inr ?_) fun p => ?_)
      (State.setPowerState_state _ _))
    · simp [hw p]
    · simp [hw p]

/-! ## Power-fail actions, shutdown, device reset -/

theorem State.interruptFp_obeys (h : Obeys P s x) (d : Side) (c : Cause) : Obeys P s (x.interruptFp d c) := by
  have cut {y : State} (hy : Obeys P s y) : Obeys P s
      (((y.updSale d [.status] (fun z => { z with status := .interrupted })).updFp d (fun f => { f with settle := none })).requestSale d) :=
    State.requestSale_obeys (State.updFp_obeys (State.updSale_obeys hy d _ _) d _ (by intro; rfl)) d
  unfold State.interruptFp
  dsimp only
  split
  iterate 3 exact cut (State.endSale_obeys h d c)
  · exact cut h
  · rename_i hd
    exact State.leaveFp_obeys (State.endAuth_obeys h d _) d rfl fun _ => by simp [State.endAuth_fpState, hd]
  iterate 3
    rename_i hd
    exact State.leaveFp_obeys h d rfl fun _ => by simp [hd]
  iterate 2 exact h

theorem State.interruptFp_live (s : State) (d : Side) (c : Cause) : ((s.interruptFp d c).fpState d).live = false := by
  have cut (y : State) (hy : (y.fpState d).live = false) :
      (((((y.updSale d [.status] (fun z => { z with status := .interrupted })).updFp d (fun f => { f with settle := none })).requestSale
        d)).fpState d).live = false := by
    cases d <;> exact hy
  unfold State.interruptFp
  dsimp only
  split
  iterate 3 exact cut _ (by rw [State.endSale_fpState, if_pos rfl]; rfl)
  · rename_i hd
    exact cut _ (congrArg FpState.live hd)
  iterate 4 rw [State.fpState_set, if_pos rfl]; rfl
  iterate 2
    rename_i hd
    exact congrArg FpState.live hd

theorem State.disableDrives_obeys (h : Obeys P s x) : Obeys P s x.disableDrives :=
  State.updPower_obeys (State.stopDrives_obeys (State.updBlendSide_obeys (State.updBlendSide_obeys (State.closeAll_obeys h) .a _ (by intro; rfl))
      .b _ (by intro; rfl))) _ (by intro; rfl) (by intro; rfl)

theorem State.disableDrives_valve (s : State) (v : Meter) : s.disableDrives.valve v = .shut := by
  obtain ⟨d, p⟩ := v
  cases d <;> exact Three.get_shut p

theorem State.leaveHalt_obeys (h : Obeys P s x) : Obeys P s x.leaveHalt := by
  unfold State.leaveHalt
  split
  · exact State.attn_obeys (State.updHalt_obeys h _) _
  · exact h

/-- A change of the device power state leaves the meters and the working copy alone. -/
theorem State.setPowerState_data (h : Obeys False s x) (st : PowerState) : Obeys False s (x.setPowerState st) := by
  unfold State.setPowerState
  split
  · exact h
  · exact h.data rfl rfl

/-- The state as the POWER_FAIL actions stop the drives, before the fueling points are told. -/
def State.failDrives (s : State) : State := s.disableDrives.setPowerState .powerFail

theorem State.setPowerState_eq (s : State) (st : PowerState) :
    s.setPowerState st = { s with pw := { s.pw with state := st }, port := (s.setPowerState st).port } := by
  unfold State.setPowerState
  split
  · rename_i h
    rw [← h]
  · rfl

theorem State.failDrives_eq (s : State) : s.failDrives =
    { s.disableDrives with pw := { s.disableDrives.pw with state := .powerFail }, port := (s.disableDrives.setPowerState .powerFail).port } :=
  State.setPowerState_eq _ _

theorem State.failDrives_valve (s : State) (v : Meter) : s.failDrives.valve v = .shut := by
  rw [State.failDrives_eq]
  exact State.disableDrives_valve s v

theorem State.failDrives_mot (s : State) : s.failDrives.mot = s.disableValves.stopDrives.mot := by
  rw [State.failDrives_eq]
  rfl

theorem State.failDrives_law (s : State) (g : Bool) : s.failDrives.DriveLawBut g (fun _ => true) := by
  refine .of_stopped (fun _ => ?_) (State.failDrives_valve s) ?_ (fun m => ?_) g
  · exact State.setPowerState_state s.disableDrives _
  · rw [State.failDrives_mot]
    rfl
  · rw [State.motor, State.failDrives_mot]
    exact State.stopDrives_still _ m

/-- The fueling points are told of the power failure or the reset. -/
def State.failFps (s : State) (c : Cause) : State := (s.failDrives.interruptFp .a c).interruptFp .b c

theorem State.failFps_obeys (h : Obeys P s x) (c : Cause) : Obeys P s (x.failFps c) := by
  have hrest : Obeys False x (x.failFps c) :=
    State.interruptFp_obeys (State.interruptFp_obeys (State.setPowerState_data (State.disableDrives_obeys (.refl x)) _) .a c) .b c
  exact h.trans ⟨hrest.channels, hrest.copy, fun _ g loose _ => (State.failDrives_law x g).bothFast (fun y d => y.interruptFp d c)
    (fun y d => State.interruptFp_obeys (.refl y) d c) (fun y d => State.interruptFp_live y d c)⟩

theorem State.failActions_obeys (h : Obeys P s x) (c : Cause) (off : OffCause) : Obeys P s (x.failActions c off) :=
  State.updStore_obeys (State.updPower_obeys (State.leaveHalt_obeys (State.updDisp_obeys (State.readerOffFor_obeys (State.readerOffFor_obeys
    (State.failFps_obeys h c) .a off) .b off) _))
      (fun p => { p with phase := .none, crystalWatch := none, lockWait := none, blanked := false, wakeRequest := none }) (by intro; rfl) (by intro; rfl))
    (fun y => { y with check := none, reloading := false }) id

theorem State.deviceReset_obeys (h : Obeys P s x) (c : WakeCause) : Obeys P s (x.deviceReset c) := by
  unfold State.deviceReset
  dsimp only
  split
  · exact State.updPower_obeys h _ (by intro; rfl) (by intro; rfl)
  · exact State.updPower_obeys (State.failActions_obeys h _ _) _ (by intro; rfl) (by intro; rfl)

/-- The state as a shutdown stops the drives. -/
def State.shutDrives (s : State) : State := ((s.setPowerState .shuttingDown).closeAll).stopDrives

theorem State.shutDrives_eq (s : State) : s.shutDrives =
    (({ s with pw := { s.pw with state := .shuttingDown }, port := (s.setPowerState .shuttingDown).port } : State).closeAll).stopDrives := by
  rw [State.shutDrives, State.setPowerState_eq]

theorem State.shutDrives_valve (s : State) (v : Meter) : s.shutDrives.valve v = .shut := State.closeAll_valve (s.setPowerState _) v

/-- A shutdown stops the drives, no side holding an authorization or an open sale. -/
theorem State.shutDrives_obeys (h : Obeys P s x) (hs : P → x.pw.state ≠ .powerFail) (hl : P → ∀ d, (x.fpState d).live = false) :
    Obeys P s x.shutDrives := by
  have hrest : Obeys False x x.shutDrives := State.stopDrives_obeys (State.closeAll_obeys (State.setPowerState_data (.refl x) _))
  refine h.trans ⟨hrest.channels, hrest.copy, fun p g loose l => ?_⟩
  have hstop : x.shutDrives.DriveLawBut g (fun _ => true) := by
    refine .of_stopped (fun hf => ?_) (State.shutDrives_valve x) rfl (State.stopDrives_still _) g
    rw [State.shutDrives_eq] at hf
    exact absurd (l.mains (hs p)) (Bool.eq_false_iff.mp hf)
  have hfp : ∀ d, x.shutDrives.fpState d = x.fpState d := fun d => by
    rw [State.shutDrives_eq]
    rfl
  exact { hstop with liveActive := fun d _ hd => absurd (hl p d) (by rw [hfp] at hd; simp [hd]) }

theorem State.beginShutdown_obeys (h : Obeys P s x) (hs : P → x.pw.state ≠ .powerFail) (hl : P → ∀ d, (x.fpState d).live = false) :
    Obeys P s x.beginShutdown := by
  have off {y : State} (hy : Obeys P s y) (d : Side) : Obeys P s (if (y.rdr.get d).state = .off then y else y.readerOff d .standby) := by
    split
    · exact hy
    · exact State.readerOff_obeys hy d _
  exact State.askCall_obeys (State.dropMessages_obeys (State.updPower_obeys (State.updStore_obeys (off (off (State.reviewBoth_obeys
    (State.shutDrives_obeys h hs hl)) .a) .b) (fun y => { y with reloadDue := false }) id) (fun p => { p with blanked := false }) (by intro; rfl)
        (by intro; rfl))) _

end Sys2Proof.Machine
end

section
/-! PROOFS. What every command keeps of those laws, and the laws that every step keeps. -/

namespace Sys2Proof.Machine

variable {P : Prop} {s x : State}

/-! ## Orders -/

theorem State.takeSlot_obeys (h : Obeys P s x) (n : Nat) : Obeys P s (x.takeSlot n).1 := h.same (by rfl)

/-- The owner is handed the state as the take leaves it, in a device power state that lets it have the order. -/
theorem State.withOrder_obeys (h : Obeys P s x) (k : OrderKind) (owner : State → Order → State)
    (ho : ∀ y o, y.pw = x.pw → y.fp = x.fp → takenIn y.pw.state k = true → Obeys P y (owner y o)) : Obeys P s (x.withOrder k owner) := by
  unfold State.withOrder
  split
  · exact h
  · split
    · rename_i hk
      simp only [Bool.and_eq_true] at hk
      exact (State.takeSlot_obeys h _).trans (ho _ _ rfl rfl hk.1.1)
    · exact h

theorem State.withSideOrder_obeys (h : Obeys P s x) (k : OrderKind) (owner : State → Order → Side → State)
    (ho : ∀ y o d, y.pw = x.pw → y.fp = x.fp → takenIn y.pw.state k = true → Obeys P y (owner y o d)) :
    Obeys P s (x.withSideOrder k owner) := by
  refine State.withOrder_obeys h k _ fun y o hp hf hk => ?_
  split
  · exact ho y o _ hp hf hk
  · exact State.complete_obeys (.refl y) _ _ _

theorem State.withPlainOrder_obeys (h : Obeys P s x) (k : OrderKind) (owner : State → Order → State)
    (ho : ∀ y o, y.pw = x.pw → y.fp = x.fp → takenIn y.pw.state k = true → Obeys P y (owner y o)) :
    Obeys P s (x.withPlainOrder k owner) := by
  refine State.withOrder_obeys h k _ fun y o hp hf hk => ?_
  split
  · exact ho y o hp hf hk
  · exact State.complete_obeys (.refl y) _ _ _

/-- An order whose owner tests for HALTED acts in ACTIVE alone. -/
theorem active_of_taken {st : PowerState} {k : OrderKind} (hk : takenIn st k = true) (hw : k ≠ .wake) (hc : k ≠ .setClock)
    (hh : st ≠ .halted) : st = .active := by
  cases st <;> simp_all [takenIn]

theorem State.unlessHalted_obeys (h : Obeys P s x) (o : Order) (act : State → State) (ha : x.pw.state ≠ .halted → Obeys P s (act x)) :
    Obeys P s (x.unlessHalted o act) := by
  unfold State.unlessHalted
  split
  · exact State.complete_obeys h _ _ _
  · exact ha ‹_›

/-! ## Fueling points -/

theorem State.authorizeFp_obeys (h : Obeys P s x) (d : Side) (ha : x.pw.state = .active) (hd : x.fpState d ≠ .fueling) :
    Obeys P s (x.authorizeFp d) := by
  refine State.setFpState_obeys (State.updFp_obeys h d _ (by intro; rfl)) d _ (fun _ _ => ha) fun _ _ => .inl ?_
  rw [State.fpState_updFp, if_pos rfl]
  exact hd

theorem State.refuseHose_obeys (h : Obeys P s x) (d : Side) (hose : Option Hose) : Obeys P s (x.refuseHose d hose) :=
  State.attn_obeys (State.updFp_obeys h d _ (by intro; rfl)) _

theorem State.grantAuth_obeys (h : Obeys P s x) (d : Side) (ha : x.pw.state = .active) (hd : x.fpState d ≠ .fueling) :
    Obeys P s (x.grantAuth d) := by
  have hauth : Obeys P s (x.authorizeFp d) := State.authorizeFp_obeys h d ha hd
  unfold State.grantAuth
  dsimp only
  split
  · exact h
  · split
    · split
      · exact State.openSale_obeys h d _ (fun _ => ha) (fun _ => hd)
      · exact State.refuseHose_obeys hauth d _
    · exact hauth

/-- AUTHORIZE grants in ACTIVE, to a side in IDLE or CALLING (R9). -/
theorem State.authTest_none {d : Side} {b : AuthBody} (h : x.authTest d b = none) :
    x.pw.state ≠ .halted ∧ (x.fpState d = .idle ∨ x.fpState d = .calling) := by
  unfold State.authTest at h
  split at h
  · cases h
  split at h
  · cases h
  split at h
  · cases h
  split at h
  · cases h
  · rename_i hh _ _ hs
    exact ⟨hh, by tauto⟩

theorem State.orderAuthorize_obeys (h : Obeys P s x) (o : Order) (d : Side) (hk : takenIn x.pw.state .authorize = true) :
    Obeys P s (x.orderAuthorize o d) := by
  unfold State.orderAuthorize
  split
  · exact State.complete_obeys h _ _ _
  · split
    · exact State.complete_obeys h _ _ _
    · rename_i b _ _ ht
      obtain ⟨hh, hs⟩ := State.authTest_none ht
      have hfree : Obeys P s { x with free := x.free + bit (decide (b.kind = PresetKind.none)) } := h.same (by rfl)
      refine State.complete_obeys (State.grantAuth_obeys (State.updFp_obeys hfree d _ (by intro; rfl)) d (active_of_taken hk nofun nofun hh) ?_) _ _ _
      rw [State.fpState_updFp, if_pos rfl]
      exact fun hf => by rcases hs with hs | hs <;> exact absurd (hs.symm.trans hf) nofun

theorem State.orderDeauthorize_obeys (h : Obeys P s x) (o : Order) (d : Side) : Obeys P s (x.orderDeauthorize o d) := by
  refine State.unlessHalted_obeys h o _ fun _ => ?_
  split
  · rename_i hd
    exact State.complete_obeys (State.endAuthReady_obeys h d _ fun _ => by simp [hd]) _ _ _
  · exact State.complete_obeys h _ _ _

theorem State.orderStop_obeys (h : Obeys P s x) (o : Order) (d : Side) : Obeys P s (x.orderStop o d) := by
  refine State.unlessHalted_obeys h o _ fun _ => ?_
  split
  iterate 3 exact State.complete_obeys (State.takeCause_obeys h d _) _ _ _
  iterate 2 exact State.complete_obeys h _ _ _

theorem State.pauseFp_obeys (h : Obeys P s x) (d : Side) (ha : x.pw.state = .active) : Obeys P s (x.pauseFp d) := by
  refine State.setFpState_obeys (State.updFp_obeys (State.dropAll_obeys (State.stopBlend_obeys (State.closeSide_obeys h d) d) d) d _ (by intro; rfl)) d _
    (fun _ _ => (congrArg Power.state (State.dropAll_pw _ d)).trans ha) fun _ _ => .inr fun p => ?_
  rw [State.valve]
  simp only [State.updFp_vlv, State.dropAll_vlv]
  cases d <;> cases p <;> rfl

theorem State.orderPause_obeys (h : Obeys P s x) (o : Order) (d : Side) (hk : takenIn x.pw.state .pause = true) :
    Obeys P s (x.orderPause o d) := by
  refine State.unlessHalted_obeys h o _ fun hh => ?_
  split
  · exact State.complete_obeys (State.pauseFp_obeys h d (active_of_taken hk nofun nofun hh)) _ _ _
  · exact State.complete_obeys h _ _ _

theorem State.resumeFp_obeys (h : Obeys P s x) (d : Side) (ha : x.pw.state = .active) (hd : x.fpState d = .paused) :
    Obeys P s (x.resumeFp d) := by
  have ht : Obeys P s ((x.updFp d (fun f => { f with pause := none, base := none, overrun := 0, overrunMade := false, flowMade := false })
      ).enterStarting d) := by
    refine State.enterStarting_obeys (State.updFp_obeys h d _ (by intro; rfl)) d (fun _ => ha) fun _ => ?_
    rw [State.fpState_updFp, if_pos rfl]
    exact fun hf => absurd (hd.symm.trans hf) nofun
  unfold State.resumeFp
  dsimp only
  split
  · exact State.evalStarting_obeys (State.raiseAll_obeys ht d) d
  · exact State.evalStarting_obeys ht d

theorem State.orderResume_obeys (h : Obeys P s x) (o : Order) (d : Side) (hk : takenIn x.pw.state .resume = true) :
    Obeys P s (x.orderResume o d) := by
  refine State.unlessHalted_obeys h o _ fun hh => ?_
  split
  · exact State.complete_obeys (State.resumeFp_obeys h d (active_of_taken hk nofun nofun hh) ‹_›) _ _ _
  · exact State.complete_obeys h _ _ _

theorem State.orderSettle_obeys (h : Obeys P s x) (o : Order) (d : Side) : Obeys P s (x.orderSettle o d) := by
  unfold State.orderSettle
  dsimp only
  split
  · exact State.complete_obeys h _ _ _
  · split
    · exact State.complete_obeys (State.updRetSide_obeys h d _ _) _ _ _
    · exact State.complete_obeys h _ _ _

theorem State.unlockFp_obeys (h : Obeys P s x) (d : Side) (hd : x.fpState d = .locked) : Obeys P s (x.unlockFp d) := by
  have hlive (b : Bool) : (if b then FpState.idle else .unavailable).live = false := by cases b <;> rfl
  have htally := obeys_foldl (fun (y : State) (m : Meter) => y.updMeter m (fun c => { c with tally := 0 })) (sideMeters d)
    (State.updRetSide_obeys h d [.lock] (fun r => { r with locked := false, lockCause := none })) fun y m =>
      State.updMeter_obeys (.refl y) m _ fun c => { c with tally := by simp }
  refine State.leaveFp_obeys (State.updFp_obeys htally d _ (by intro; rfl)) d (hlive _) fun _ => ?_
  rw [State.fpState_updFp, if_pos rfl]
  cases d <;> exact fun hf => absurd (hd.symm.trans hf) nofun

theorem State.orderClearLock_obeys (h : Obeys P s x) (o : Order) (d : Side) : Obeys P s (x.orderClearLock o d) := by
  refine State.unlessHalted_obeys h o _ fun _ => ?_
  split
  · exact State.complete_obeys h _ _ _
  · rename_i hd
    split
    · exact State.complete_obeys h _ _ _
    · split
      · exact State.complete_obeys h _ _ _
      · exact State.complete_obeys (State.unlockFp_obeys h d (Classical.not_not.mp hd)) _ _ _

theorem FuelPoint.lifted_state (f : FuelPoint) (hose : Hose) (now : Word32) : (f.lifted hose now).state = f.state := by cases hose <;> rfl

theorem FuelPoint.hung_state (f : FuelPoint) (hose : Hose) : (f.hung hose).state = f.state := by cases hose <;> rfl

/-- A side is AUTHORIZED only while the device is ACTIVE. -/
theorem State.liftHose_obeys (h : Obeys P s x) (d : Side) (hose : Hose) (ha : P → x.fpState d = .authorized → x.pw.state = .active) :
    Obeys P s (x.liftHose d hose) := by
  have ht : Obeys P s (x.updFp d (fun f => f.lifted hose x.rtc)) := State.updFp_obeys h d _ fun f => f.lifted_state hose _
  have hfp : (x.updFp d (fun f => f.lifted hose x.rtc)).fpState d = x.fpState d := by
    rw [State.fpState_updFp, if_pos rfl, FuelPoint.lifted_state]
    rfl
  unfold State.liftHose
  split
  · exact h
  · dsimp only
    split
    · rename_i hd
      exact State.leaveFp_obeys ht d rfl fun _ => by simp [hfp, hd]
    · rename_i hd
      unfold State.liftAuthorized
      split
      · split
        · exact State.openSale_obeys ht d _ (fun p => ha p hd) fun _ => by simp [hfp, hd]
        · exact State.refuseHose_obeys ht d _
      · exact ht
    · exact ht

theorem State.hangHose_obeys (h : Obeys P s x) (d : Side) (hose : Hose) : Obeys P s (x.hangHose d hose) := by
  have ht : Obeys P s (x.updFp d (fun f => f.hung hose)) := State.updFp_obeys h d _ fun f => f.hung_state hose
  have hfp : (x.updFp d (fun f => f.hung hose)).fpState d = x.fpState d := by
    rw [State.fpState_updFp, if_pos rfl, FuelPoint.hung_state]
    rfl
  unfold State.hangHose
  split
  · exact h
  · dsimp only
    split
    iterate 3
      split
      · exact State.takeCause_obeys ht d _
      · exact ht
    · rename_i hd
      split
      · exact ht
      · exact State.leaveFp_obeys ht d rfl fun _ => by simp [hfp, hd]
    · rename_i hd
      split
      · exact State.leaveFp_obeys ht d rfl fun _ => by simp [hfp, hd]
      split
      · exact State.leaveFp_obeys ht d rfl fun _ => by simp [hfp, hd]
      · exact ht
    · exact ht

theorem State.pressButton_obeys (h : Obeys P s x) (d : Side) (g : Grade) : Obeys P s (x.pressButton d g) := by
  unfold State.pressButton
  split
  · exact State.evalStarting_obeys (State.updFp_obeys h d _ (by intro; rfl)) d
  · exact h

theorem State.expireAuth_obeys (h : Obeys P s x) (d : Side) : Obeys P s (x.expireAuth d) := by
  unfold State.expireAuth
  split
  · rename_i hd
    exact State.endAuthReady_obeys h d _ fun _ => by simp [hd.1]
  · exact h

theorem State.saleTimeout_obeys (h : Obeys P s x) (d : Side) (st : FpState) (t : Timer) (c : Cause) : Obeys P s (x.saleTimeout d st t c) := by
  unfold State.saleTimeout
  split
  · exact State.takeCause_obeys h d c
  · exact h

/-! ## Prices and the halt condition -/

theorem State.supersede_obeys (h : Obeys P s x) (v : Nat) : Obeys P s (x.supersede v) := by
  unfold State.supersede
  split
  · exact h
  · exact State.setPriceOrder_obeys (State.completeOpt_obeys h _ _ _) _

theorem State.setPending_obeys (h : Obeys P s x) (p : PriceSet) : Obeys P s (x.setPending p) := h.same (by rfl)

theorem State.orderPriceSet_obeys (h : Obeys P s x) (o : Order) : Obeys P s (x.orderPriceSet o) := by
  unfold State.orderPriceSet
  split
  · exact State.complete_obeys h _ _ _
  · exact State.applyBoth_obeys (State.attn_obeys (State.setPriceOrder_obeys (State.setPending_obeys (State.supersede_obeys h _) _) _) _)

/-- The device returns to ACTIVE from HALTED. -/
theorem State.clearHalt_obeys (h : Obeys P s x) (hh : x.pw.state = .halted) : Obeys P s x.clearHalt := by
  have ht : Obeys P s ((x.updHalt (fun y => { y with halted := false })).updPower (fun p => { p with state := .active })) :=
    (State.updHalt_obeys h _).trans ⟨id, id, fun _ g loose l => l.setPower rfl
      (fun hf => absurd (l.mains (fun hp => nomatch hh.symm.trans hp)) (Bool.eq_false_iff.mp hf)) (fun hn => absurd rfl hn) (fun hn => absurd rfl hn)⟩
  exact State.applyBoth_obeys (State.reviewBoth_obeys (State.attn_obeys (State.requeueMotors_obeys ht rfl) _))

theorem State.orderClearHalt_obeys (h : Obeys P s x) (o : Order) : Obeys P s (x.orderClearHalt o) := by
  unfold State.orderClearHalt
  split
  · exact State.complete_obeys h _ _ _
  rename_i hh
  split
  · exact State.complete_obeys h _ _ _
  split
  · exact State.complete_obeys h _ _ _
  split
  · exact State.complete_obeys h _ _ _
  · exact State.complete_obeys (State.clearHalt_obeys h (Classical.not_not.mp hh)) _ _ _

/-! ## Metering -/

theorem State.checkTargets_obeys (h : Obeys P s x) (d : Side) : Obeys P s (x.checkTargets d) := by
  have hclose {y : State} (hy : Obeys P s y) : Obeys P s
      (if (y.sale d).closeDue then y.takeCause d (closeCause (y.fp.get d).closeReason) else y) := by
    split
    · exact State.takeCause_obeys hy d _
    · exact hy
  unfold State.checkTargets
  dsimp only
  split
  · refine hclose ?_
    split
    · exact State.slowSide_obeys h d
    · exact h
  · exact h

theorem State.checkOverrun_obeys (h : Obeys P s x) (d : Side) : Obeys P s (x.checkOverrun d) := by
  unfold State.checkOverrun
  dsimp only
  split
  · split
    · exact State.takeCause_obeys (State.updFp_obeys h d _ (by intro; rfl)) d _
    · exact State.updFp_obeys h d _ (by intro; rfl)
  · exact h

theorem State.checkFlow_obeys (h : Obeys P s x) (d : Side) : Obeys P s (x.checkFlow d) := by
  unfold State.checkFlow
  dsimp only
  split
  · split
    · exact State.reportHalt_obeys (State.updFp_obeys h d _ (by intro; rfl)) _
    · exact State.updFp_obeys h d _ (by intro; rfl)
  · exact h

theorem State.addToSale_obeys (h : Obeys P s x) (m : Meter) (rise : Nat) : Obeys P s (x.addToSale m rise) := by
  unfold State.addToSale
  dsimp only
  split
  · exact State.updRetMeter_obeys (State.updSale_obeys h _ _ _) m _ _
  · exact State.checkFlow_obeys (State.checkOverrun_obeys (State.checkTargets_obeys (State.updFp_obeys (State.requestSale_obeys
      (State.updRetMeter_obeys (State.updSale_obeys h _ _ _) m _ _) _) _ _ (by intro; rfl)) _) _) _

theorem State.addLockFlow_obeys (h : Obeys P s x) (d : Side) (rise : Nat) : Obeys P s (x.addLockFlow d rise) := by
  unfold State.addLockFlow
  split
  · exact h
  · dsimp only
    split
    · split
      · exact State.reportHalt_obeys (State.updFp_obeys (State.updFp_obeys h d _ (by intro; rfl)) d _ (by intro; rfl)) _
      · exact State.updFp_obeys (State.updFp_obeys h d _ (by intro; rfl)) d _ (by intro; rfl)
    · exact State.updFp_obeys h d _ (by intro; rfl)

end Sys2Proof.Machine
end

section
/-! PROOFS. What the commands of the metering unit and of the valve, blend and motor drivers keep of the laws. -/

namespace Sys2Proof.Machine

variable {P : Prop} {s x : State}

/-- The position at rest. -/
theorem zero_position : (-3 : Int) ≤ 0 ∧ (0 : Int) ≤ 3 := by decide

theorem addMicro_lt (acc w : Nat) : addMicro acc w < 2 ^ 64 := Nat.mod_lt _ (by decide)

theorem State.addUnassigned_obeys (h : Obeys P s x) (m : Meter) (rise : Nat) : Obeys P s (x.addUnassigned m rise) :=
  State.addLockFlow_obeys (State.updRetMeter_obeys h m _ _) _ _

theorem State.countVolume_obeys (h : Obeys P s x) (m : Meter) : Obeys P s (x.countVolume m) := by
  have hif {y z : State} (c : Prop) [Decidable c] (hy : Obeys P s y) (hz : Obeys P s z) : Obeys P s (if c then y else z) := by
    split
    · exact hy
    · exact hz
  unfold State.countVolume
  dsimp only
  refine hif _ h ?_
  split
  · have ht := State.updMeter_obeys h m (fun c =>
      let acc := addMicro (x.meter m).saleAcc (pulseWeight (x.meter m).correction)
      { c with saleAcc := acc, saleV := acc / (x.meter m).k, w0 := c.w0 + (acc / (x.meter m).k - (x.meter m).saleV) })
      fun c => { c with accumulators := ⟨addMicro_lt _ _, c.accumulators.2⟩ }
    exact hif _ (State.addToSale_obeys ht m _) ht
  · have ht := State.updMeter_obeys h m (fun c =>
      let acc := addMicro (x.meter m).unAcc (pulseWeight (x.meter m).correction)
      { c with unAcc := acc, unV := acc / (x.meter m).k, w0 := c.w0 + (acc / (x.meter m).k - (x.meter m).unV) })
      fun c => { c with accumulators := ⟨c.accumulators.1, addMicro_lt _ _⟩ }
    exact hif _ (State.addUnassigned_obeys ht m _) ht

theorem State.restartTimers_obeys (h : Obeys P s x) (m : Meter) : Obeys P s (x.restartTimers m) := by
  have ht := State.updPower_obeys h (fun p => { p with resetHold := p.resetHold.map (fun _ => 500) }) (by intro; rfl) (by intro; rfl)
  unfold State.restartTimers
  dsimp only
  split
  · split
    · exact State.updFp_obeys ht _ _ (by intro; rfl)
    · exact State.updFp_obeys ht _ _ (by intro; rfl)
    · exact ht
  · exact ht

theorem State.tallyPulse_obeys (h : Obeys P s x) (m : Meter) : Obeys P s (x.tallyPulse m) := by
  unfold State.tallyPulse
  dsimp only
  split
  · rename_i hc
    have ht := State.updMeter_obeys h m (fun c => { c with tally := c.tally + 1 }) fun c => { c with tally := hc.2 }
    split
    · exact State.takeCause_obeys ht _ _
    · exact ht
  · exact h

theorem State.countPulse_obeys (h : Obeys P s x) (m : Meter) : Obeys P s (x.countPulse m) := by
  have ht := State.countVolume_obeys (State.restartTimers_obeys h m) m
  unfold State.countPulse
  dsimp only
  split
  · exact State.tallyPulse_obeys ht m
  · exact ht

theorem Channel.Law.pulseTaken {c : Channel} (h : c.Law) : c.pulseTaken.Law := { h with }

theorem State.forward_obeys (h : Obeys P s x) (m : Meter) : Obeys P s (x.forward m) := by
  have ht := State.updMeter_obeys h m Channel.pulseTaken Channel.Law.pulseTaken
  unfold State.forward
  dsimp only
  split
  · exact State.updMeter_obeys ht m _ fun c => { c with pending := (Nat.sub_le _ _).trans c.pending }
  · exact State.countPulse_obeys ht m

theorem State.pulserFault_obeys (h : Obeys P s x) (m : Meter) : Obeys P s (x.pulserFault m) := by
  unfold State.pulserFault
  split
  · have ht := State.updMeter_obeys h m (fun c => { c with pulserMade := true }) fun c => { c with }
    dsimp only
    split
    · exact State.takeCause_obeys ht _ _
    · exact ht
  · exact h

theorem State.backward_obeys (h : Obeys P s x) (m : Meter) : Obeys P s (x.backward m) := by
  have ht := State.updMeter_obeys h m (fun c => { c.pulseTaken with pendingRev := min 65535 (c.pendingRev + 1) })
    fun c => { c.pulseTaken with pending := Nat.min_le_left _ _ }
  unfold State.backward
  dsimp only
  split
  · exact State.pulserFault_obeys ht m
  · exact ht

/-- The channel after the quarter step that takes a pulse. -/
theorem State.atRest_obeys (h : Obeys P s x) (m : Meter) (p : LevelPair) : Obeys P s (x.updMeter m (fun c => { c with phase := p, position := 0 })) :=
  State.updMeter_obeys h m _ fun c => { c with position := zero_position }

theorem State.quarter_obeys (h : Obeys P s x) (m : Meter) (i : MeterInput) : Obeys P s (x.quarter m i) := by
  unfold State.quarter
  dsimp only
  set p := pairFlip (x.meter m).phase i
  set n : Int := if p = pairAfter (x.meter m).phase then (x.meter m).position + 1 else (x.meter m).position - 1 with hn
  split
  · exact State.forward_obeys (State.atRest_obeys h m p) m
  split
  · exact State.backward_obeys (State.atRest_obeys h m p) m
  · refine State.updMeter_obeys h m _ fun c => { c with position := ?_ }
    obtain ⟨hlow, hhigh⟩ := c.position
    dsimp only
    split at hn <;> omega

theorem State.illegal_obeys (h : Obeys P s x) (m : Meter) : Obeys P s (x.illegal m) := by
  have ht := State.updMeter_obeys h m (fun c =>
      { c with phase := ⟨!c.phase.chA, !c.phase.chB⟩, position := 0,
               illegal := if c.attr = .sale then min 255 (c.illegal + 1) else c.illegal }) fun c =>
    { c with
      position := zero_position
      illegal := by
        dsimp only
        split
        · exact Nat.min_le_left _ _
        · exact c.illegal }
  unfold State.illegal
  dsimp only
  split
  · exact State.pulserFault_obeys ht m
  · exact ht

theorem State.subwindow_obeys (h : Obeys P s x) (m : Meter) : Obeys P s (x.subwindow m) :=
  State.updMeter_obeys h m _ fun c => { c with rate := Nat.min_le_left _ _ }

theorem Channel.Law.quieten {c : Channel} (h : c.Law) (k : QuietKind) : (c.quieten k).Law := by
  cases k <;> exact { h with }

theorem State.decoded_obeys (act : State → State) (h : Obeys P s x) (ha : Obeys P s (act x)) : Obeys P s (x.decoded act) := by
  unfold State.decoded
  split
  · exact ha
  · exact h

/-! ## Valves and blend loops -/

theorem ValveDrive.boundary_shut (slow : Bool) : ValveDrive.boundary slow .shut = .shut := by cases slow <;> rfl

theorem State.boundary_obeys (h : Obeys P s x) : Obeys P s x.boundary := by
  have one {y : State} (hy : Obeys P s y) (d : Side) :
      Obeys P s (y.updValveSide d (fun v => { v with valves := v.valves.map (ValveDrive.boundary v.slow) })) :=
    State.updValveSide_obeys hy d _ fun _ hs p => by rw [Three.get_map, hs p, ValveDrive.boundary_shut]
  unfold State.boundary
  split
  · exact one (one h .a) .b
  · exact h

/-- A valve that is not CLOSED: its side is FUELING. -/
theorem State.updValve_obeys (h : Obeys P s x) (v : Meter) (f : ValveDrive → ValveDrive) (hv : x.valve v ≠ .shut) : Obeys P s (x.updValve v f) :=
  State.updValveSide_obeys h v.side _ fun _ hs => absurd (hs v.product) hv

theorem State.pullInEnd_obeys (h : Obeys P s x) (v : Meter) : Obeys P s (x.pullInEnd v) := by
  unfold State.pullInEnd
  split
  · rename_i hv
    refine State.updValve_obeys h v _ fun hs => ?_
    rw [hs] at hv
    cases hv.2.1
  · exact h

theorem State.correctBlend_obeys (h : Obeys P s x) (d : Side) (e : Int) (hd : x.fpState d = .fueling) : Obeys P s (x.correctBlend d e) := by
  unfold State.correctBlend
  dsimp only
  refine State.updValveSide_obeys (State.updBlend_obeys h d _) d _ fun hn => absurd ?_ hn
  rw [State.updBlend, State.fpState, State.updValveSide_fp]
  exact hd

theorem State.blendExpiry_obeys (h : Obeys P s x) (d : Side) : Obeys P s (x.blendExpiry d) := by
  unfold State.blendExpiry
  dsimp only
  split
  · exact h
  rename_i hn
  have hd : x.fpState d = .fueling := Classical.not_not.mp (not_or.mp hn).2
  split
  · exact State.updBlend_obeys h d _
  · split
    · exact State.takeCause_obeys (State.updBlend_obeys (State.updBlend_obeys h d _) d _) d _
    · exact State.correctBlend_obeys (State.updBlend_obeys (State.updBlend_obeys h d _) d _) d _ hd

/-! ## Motors -/

/-- An operation that may leave a grant owed, and the grant that serves it. -/
theorem Obeys.granted {y : State} (h : Obeys P s x) (hy : Obeys False x y) (hl : P → ∀ g loose, x.DriveLawBut g loose → y.DriveLawBut false loose) :
    Obeys P s y.grant := by
  have hg := State.grant_obeys hy
  exact h.trans ⟨hg.channels, hg.copy, fun p g loose l => (hl p g loose l).grant.served_any g⟩

theorem State.startExpiry_obeys (h : Obeys P s x) (m : Product) : Obeys P s (x.startExpiry m) := by
  unfold State.startExpiry
  split
  · rename_i hm
    refine h.granted (State.evalBoth_obeys ⟨id, id, nofun⟩) fun _ g loose l => ?_
    have ha : x.pw.state = .active := l.active_of_moving (m := m) (by simp [hm.1, MotorState.still])
    refine (State.evalBoth_obeys (P := True) (.refl _)).drive trivial _ _ ⟨l.mainsAbsent, l.liveActive, l.valves, fun hs => absurd ha hs, ?_⟩
    exact l.motors.weaken.replace m (by rw [← State.motor, hm.1]; decide) rfl nofun
  · exact h

theorem State.runOnEnd_obeys (h : Obeys P s x) (m : Product) (hm : (x.motor m).state = .runOn) :
    Obeys P s (x.updMotor m (fun r => { r with state := .off, timer := none })) :=
  State.replaceMotor_obeys h m _ (by simp [hm, MotorState.settled]) rfl (by simp [hm, MotorState.still])

theorem State.closeIfDrawn_obeys (h : Obeys P s x) (d : Side) (m : Product) : Obeys P s (x.closeIfDrawn d m) := by
  unfold State.closeIfDrawn
  split
  · exact State.closeSide_obeys h d
  · exact h

theorem State.tripSide_obeys (h : Obeys P s x) (d : Side) (m : Product) : Obeys P s (x.tripSide d m) := by
  unfold State.tripSide
  split
  · exact State.takeCause_obeys h d _
  · exact h

theorem State.tripMotor_obeys (h : Obeys P s x) (m : Product) : Obeys P s (x.tripMotor m) := by
  have hrest {Q : Prop} {y z : State} (hy : Obeys Q y z) :
      Obeys Q y (((((z.attn .motor).closeIfDrawn .a m).closeIfDrawn .b m).tripSide .a m).tripSide .b m) :=
    State.tripSide_obeys (State.tripSide_obeys (State.closeIfDrawn_obeys (State.closeIfDrawn_obeys (State.attn_obeys hy _) _ m) _ m) _ m) _ m
  refine h.granted (hrest ⟨id, id, nofun⟩) fun _ g loose l => (hrest (Q := True) (.refl _)).drive trivial _ _ ?_
  refine ⟨l.mainsAbsent, l.liveActive, l.valves, fun hs n => ?_, l.motors.weaken.leave m rfl nofun⟩
  change ((x.updMotor m (fun r => r.faulted x.rtc)).motor n).state.still = true
  rw [State.motor_updMotor]
  split
  · rfl
  · exact l.still hs n

theorem State.tripAssert_obeys (h : Obeys P s x) (m : Product) : Obeys P s (x.tripAssert m) := by
  have ht := State.updMotor_obeys h m (fun r => { r with trip := true }) (by intro; rfl)
  unfold State.tripAssert
  dsimp only
  split
  · exact State.tripMotor_obeys ht m
  · exact ht

theorem State.clearMotor_obeys (h : Obeys P s x) (m : Product) (hm : (x.motor m).state = .fault) : Obeys P s (x.clearMotor m) := by
  have ht := State.attn_obeys (State.replaceMotor_obeys h m (fun r => { r with state := .off })
    (by simp [hm, MotorState.settled]) rfl fun _ => rfl) .motor
  unfold State.clearMotor
  dsimp only
  refine State.evalBoth_obeys ?_
  split
  · rename_i hd
    refine State.joinQueue_obeys ht m ?_ hd.2
    change ((x.updMotor m (fun r => { r with state := .off })).motor m).state.settled = true
    rw [State.motor_updMotor, if_pos rfl]
    rfl
  · exact ht

theorem State.orderMotorClear_obeys (h : Obeys P s x) (o : Order) : Obeys P s (x.orderMotorClear o) := by
  unfold State.orderMotorClear
  split
  · exact State.complete_obeys h _ _ _
  split
  · exact State.complete_obeys h _ _ _
  split
  · exact State.complete_obeys h _ _ _
  rename_i hm
  split
  · exact State.complete_obeys h _ _ _
  · exact State.complete_obeys (State.clearMotor_obeys h _ (Classical.not_not.mp hm)) _ _ _

end Sys2Proof.Machine
end

section
/-! PROOFS. What the commands of the display bus controller, the reader link units, the metrology store port, the power sequencer and the host
port keep of the laws. -/

namespace Sys2Proof.Machine

variable {P : Prop} {s x : State}

/-! ## The display bus -/

theorem State.orderShowMessage_obeys (h : Obeys P s x) (o : Order) : Obeys P s (x.orderShowMessage o) := by
  unfold State.orderShowMessage
  split
  · exact State.complete_obeys h _ _ _
  split
  · exact State.complete_obeys h _ _ _
  split
  · exact State.requestMessage_obeys (State.updLine_obeys (State.completeOpt_obeys h _ _ _) _ _) _
  · exact State.complete_obeys h _ _ _

theorem State.startFrame_obeys (h : Obeys P s x) : Obeys P s x.startFrame := by
  have hput {y : State} (hy : Obeys P s y) (f : Flight) : Obeys P s (y.putOnBus f) := State.updDisp_obeys hy _
  unfold State.startFrame
  split
  · split
    · split
      · exact h
      · exact hput h _
    · split
      · exact h
      · split
        · exact h
        · exact State.updDisp_obeys (hput h _) _
  · exact h

theorem State.onFlight_obeys (act : State → Flight → State) (h : Obeys P s x) (ha : ∀ f, Obeys P s (act x f)) : Obeys P s (x.onFlight act) := by
  unfold State.onFlight
  split
  · split
    · exact ha _
    · exact h
  · exact h

theorem State.stretched_obeys (h : Obeys P s x) : Obeys P s x.stretched := by
  unfold State.stretched
  split
  · exact State.updDisp_obeys h _
  · exact State.onFlight_obeys _ h fun f => State.flightFailed_obeys (State.updDisp_obeys h _) f _

theorem State.loseBus_obeys (h : Obeys P s x) : Obeys P s x.loseBus := by
  unfold State.loseBus
  split
  · exact State.updDisp_obeys h _
  · exact State.onFlight_obeys _ h fun f => State.updDisp_obeys h _

theorem FpState.live_of_endable {st : FpState} (h : st.endable = true) : st.live = true := by
  cases st <;> first | rfl | cases h

/-- A change of reader state leaves the power sequencer alone, unless it ends an open sale. -/
theorem State.setReaderState_pw (d : Side) (st : ReaderState) (hd : (x.fpState d).endable = false) : (x.setReaderState d st).pw = x.pw := by
  have hleft (y : State) (hy : y.fpState d = x.fpState d) : (y.readerLeft d).pw = y.pw ∧ ((y.readerLeft d).fpState d).endable = false := by
    unfold State.readerLeft
    split
    · split
      · refine ⟨by simp [State.endAuthReady, State.endAuth], ?_⟩
        rw [State.endAuthReady, State.fpState_set, if_pos rfl]
        unfold FuelPoint.readyState
        split <;> rfl
      · exact ⟨rfl, hy ▸ hd⟩
    · exact ⟨rfl, hy ▸ hd⟩
  have htampered (y : State) (hy : (y.fpState d).endable = false) : (if st = .tampered then y.readerTampered d else y).pw = y.pw := by
    split
    · unfold State.readerTampered
      rw [if_neg (by simp [hy])]
    · rfl
  unfold State.setReaderState
  dsimp only
  split
  · rfl
  set y := (x.updReader d (fun r => { r with state := st, changed := x.rtc })).attn (readerFlag d)
  by_cases hr : (x.rdr.get d).state = .ready
  · obtain ⟨hpw, hend⟩ := hleft y rfl
    rw [if_pos hr, htampered _ hend, hpw]
    rfl
  · rw [if_neg hr, htampered y hd]
    rfl

theorem State.powerFresh_pw (d : Side) (hd : (x.fpState d).endable = false) : (x.powerFresh d).pw = x.pw := by
  unfold State.powerFresh State.powerReader
  dsimp only
  split
  · rfl
  · split
    · exact State.setReaderState_pw d _ hd
    · exact State.setReaderState_pw d _ hd

/-- No side has an open sale while the device wakes. -/
theorem State.DriveLawBut.not_endable {g : Bool} (l : x.DriveLawBut g noSide) (hw : x.pw.state ≠ .active) (d : Side) :
    (x.fpState d).endable = false :=
  Bool.eq_false_iff.mpr fun he => hw (l.liveActive d rfl (FpState.live_of_endable he))

theorem State.readersPhase_waking {g : Bool} (l : x.DriveLawBut g noSide) (hw : x.pw.state = .waking) : x.readersPhase.pw = x.pw := by
  have one (y : State) (d : Side) (ly : y.DriveLawBut g noSide) (hy : y.pw.state = .waking) : ((y.readFitted d).powerFresh d).pw = y.pw := by
    rw [State.powerFresh_pw (x := y.readFitted d) d (ly.not_endable (by simp [hy]) d)]
    rfl
  have ha := one x .a l hw
  have la : ((x.readFitted .a).powerFresh .a).DriveLawBut g noSide :=
    (State.powerFresh_obeys (P := True) (State.updReader_obeys (.refl x) .a _) .a).drive trivial g noSide l
  change (((((x.readFitted .a).powerFresh .a).readFitted .b).powerFresh .b)).pw = x.pw
  rw [one _ .b la (by rw [ha, hw]), ha]

theorem State.drivesPhase_state (s : State) : s.drivesPhase.pw.state = s.pw.state := by
  have one (y : State) (m : Product) :
      (if (y.motor m).trip = true ∧ (y.motor m).state ≠ .fault then (y.updMotor m (fun r => r.faulted y.rtc)).attn .motor else y).pw = y.pw := by
    split <;> rfl
  simp only [State.drivesPhase, one]
  rfl

theorem State.wakeBlankSent_obeys (h : Obeys P s x) (hw : P → x.pw.state = .waking ∧ x.DriveLawBut true noSide) :
    Obeys P s x.wakeBlankSent := by
  have hr {Q : Prop} {y z : State} (hz : Obeys Q y z) : Obeys Q y (z.endSegmentTest.setPhase .readers) :=
    State.setPhase_obeys (State.endSegmentTest_obeys hz) _
  have hstate : P → ((x.endSegmentTest.setPhase .readers).readersPhase).pw.state = .waking := fun p => by
    obtain ⟨hwake, hlaw⟩ := hw p
    have l := (hr (.refl x)).drive trivial true noSide hlaw
    have hwk : (x.endSegmentTest.setPhase .readers).pw.state = .waking := hwake
    rw [State.readersPhase_waking l hwk]
    exact hwk
  have hphase : P → (((x.endSegmentTest.setPhase .readers).readersPhase).setPhase .drives).pw.state = .waking := hstate
  refine State.wakeEnd_obeys (State.drivesPhase_obeys (State.setPhase_obeys (State.readersPhase_obeys (hr h)) _) fun p => ?_) fun p => ?_
  · rw [hphase p]
    decide
  · rw [State.drivesPhase_state, hphase p]

theorem State.shutdownBlankSent_obeys (h : Obeys P s x) : Obeys P s x.shutdownBlankSent :=
  State.updPower_obeys (State.disableDrives_obeys (State.parkDisplay_obeys h)) _ (by intro; rfl) (by intro; rfl)

theorem State.callDone_obeys (h : Obeys P s x) (c : GeneralCall) (hl : P → x.DriveLawBut true noSide) : Obeys P s (x.callDone c) := by
  have ht : Obeys P s x.callSent := State.updDisp_obeys h _
  have hb : Obeys P s x.callSent.blankHeads := State.updDisp_obeys ht _
  unfold State.callDone
  dsimp only
  split
  · split
    · exact State.updDisp_obeys ht _
    · exact ht
  · split
    · rename_i hw
      refine State.wakeBlankSent_obeys hb fun p => ⟨hw.1, ?_⟩
      exact (State.updDisp_obeys (P := True) (State.updDisp_obeys (.refl x) _) _).drive trivial true noSide (hl p)
    · split
      · exact State.shutdownBlankSent_obeys hb
      · exact State.updDisp_obeys hb _

/-! ## The readers -/

theorem State.orderReaderSend_obeys (h : Obeys P s x) (o : Order) (d : Side) : Obeys P s (x.orderReaderSend o d) := by
  unfold State.orderReaderSend
  dsimp only
  split
  · exact State.complete_obeys h _ _ _
  split
  · exact State.complete_obeys h _ _ _
  split
  · exact State.complete_obeys h _ _ _
  · exact State.updReader_obeys h d _

theorem State.restartReader_obeys (h : Obeys P s x) (o : Order) (d : Side) : Obeys P s (x.restartReader o d) :=
  State.complete_obeys (State.powerFresh_obeys h d) _ _ _

theorem State.restartTampered_obeys (h : Obeys P s x) (o : Order) (d : Side) : Obeys P s (x.restartTampered o d) := by
  have ht : Obeys P s { x with free := x.free + 1 } := h.same (by rfl)
  unfold State.restartTampered
  dsimp only
  split
  · exact State.complete_obeys (State.updReader_obeys ht d _) _ _ _
  · exact State.restartReader_obeys ht o d

theorem State.orderReaderRestart_obeys (h : Obeys P s x) (o : Order) (d : Side) : Obeys P s (x.orderReaderRestart o d) := by
  unfold State.orderReaderRestart
  dsimp only
  split
  case h_1 => exact State.restartReader_obeys h o d
  case h_2 =>
    split
    · exact State.restartTampered_obeys h o d
    · exact State.complete_obeys h _ _ _
  case h_3 =>
    split
    · exact State.restartReader_obeys h o d
    · exact State.complete_obeys h _ _ _
  case h_4 =>
    split
    · exact State.complete_obeys h _ _ _
    · exact State.complete_obeys h _ _ _
  all_goals exact State.complete_obeys h _ _ _

theorem State.replyRead_obeys (h : Obeys P s x) (d : Side) (r : Reply) : Obeys P s (x.replyRead d r) := by
  unfold State.replyRead
  split
  · exact h
  · refine State.updReader_obeys ?_ d _
    split
    · exact State.replyTaken_obeys h d _ _ _
    · exact State.readerMiss_obeys h d

theorem State.warmUpFailed_obeys (h : Obeys P s x) (d : Side) : Obeys P s (x.warmUpFailed d) := by
  unfold State.warmUpFailed
  split
  · exact State.updReader_obeys (State.cutReader_obeys h d _ _) d _
  · exact State.cutReader_obeys h d _ _

theorem State.tamperReader_obeys (h : Obeys P s x) (d : Side) : Obeys P s (x.tamperReader d) := by
  unfold State.tamperReader
  split
  case h_3 | h_4 => exact State.cutReader_obeys h d _ _
  case h_5 | h_6 | h_7 => exact State.setReaderState_obeys (State.updReader_obeys h d _) d _
  all_goals exact h

/-! ## The metrology store port -/

theorem State.orderCalibrate_obeys (h : Obeys P s x) (o : Order) : Obeys P s (x.orderCalibrate o) := by
  unfold State.orderCalibrate
  split
  · exact State.complete_obeys h _ _ _
  split
  · exact State.complete_obeys h _ _ _
  split
  · exact State.complete_obeys h _ _ _
  · exact State.takeCalibration_obeys (State.storeEffect_obeys h o _ _ _ _ fun hc => Memory.writeAll_wf (StorePort.image_wf hc) _ _) _

theorem State.settingsImage_wf (s : State) (n : Nat) {m : Memory} (hm : m.wf = true) : (s.settingsImage n m).wf = true := by
  unfold State.settingsImage
  repeat' apply Memory.writeAll_wf
  exact hm

theorem State.orderSetSettings_obeys (h : Obeys P s x) (o : Order) : Obeys P s (x.orderSetSettings o) := by
  unfold State.orderSetSettings
  split
  · exact State.complete_obeys h _ _ _
  split
  · exact State.complete_obeys h _ _ _
  · exact State.evalBoth_obeys (State.tellUsers_obeys (State.storeEffect_obeys h o _ _ _ _ fun hc =>
      State.settingsImage_wf x _ (StorePort.image_wf hc)))

theorem Channel.Law.dropUnassigned {c : Channel} (h : c.Law) : c.dropUnassigned.Law :=
  { h with accumulators := ⟨h.accumulators.1, by simp [Channel.dropUnassigned]⟩ }

theorem State.dropUnassigned_obeys (h : Obeys P s x) (r : Retention) (v : Revisions) :
    Obeys P s { x with ret := r, rev := v, met := ⟨x.met.a.map Channel.dropUnassigned, x.met.b.map Channel.dropUnassigned⟩ } :=
  h.trans ⟨channels_of_map (fun _ hc => hc.dropUnassigned) rfl, id, fun _ _ _ l => ⟨l.mainsAbsent, l.liveActive, l.valves, l.still, l.motors⟩⟩

theorem State.initTotals_obeys (h : Obeys P s x) (o : Order) : Obeys P s (x.initTotals o) := by
  unfold State.initTotals
  refine State.reviewBoth_obeys (State.updPower_obeys ?_ (fun p => { p with totalsInvalid := false }) (by intro; rfl) (by intro; rfl))
  exact State.dropUnassigned_obeys (State.storeEffect_obeys h o _ _ _ _ StorePort.image_wf) _ _

theorem State.orderInitTotals_obeys (h : Obeys P s x) (o : Order) : Obeys P s (x.orderInitTotals o) := by
  unfold State.orderInitTotals
  split
  · exact State.complete_obeys h _ _ _
  split
  · exact State.complete_obeys h _ _ _
  · exact State.initTotals_obeys h o

theorem State.orderClearLog_obeys (h : Obeys P s x) (o : Order) : Obeys P s (x.orderClearLog o) := by
  unfold State.orderClearLog
  split
  · exact State.complete_obeys h _ _ _
  · exact State.storeEffect_obeys h o _ _ _ _ fun hc => clearEntries_wf (StorePort.image_wf hc)

theorem State.mismatch_obeys (h : Obeys P s x) : Obeys P s x.mismatch :=
  State.reportHalt_obeys (State.updStore_obeys h StorePort.markReload (by rw [StorePort.markReload_copy]; exact (by exact id))) _

theorem State.checkExpiry_obeys (h : Obeys P s x) (stored : Word16) : Obeys P s (x.checkExpiry stored) := by
  unfold State.checkExpiry
  split
  · have ht : Obeys P s (x.updStore (fun y => { y with check := some 10000 })) := State.updStore_obeys h _ (by exact id)
    dsimp only
    split
    · exact State.mismatch_obeys ht
    · exact ht
  · exact h

theorem State.reloadDone_obeys (h : Obeys P s x) (image : List Host.Cell) : Obeys P s (x.reloadDone image) := by
  have ht : Obeys P s ((x.loadStore image).updStore (fun y => { y with reloading := false })) :=
    State.updStore_obeys (State.loadStore_obeys h image) _ (by exact id)
  exact State.evalBoth_obeys (State.reviewBoth_obeys (obeys_foldl _ _ (State.tellUsers_obeys ht) fun y m => State.takeCalibration_obeys (.refl y) m))

/-! ## The power sequencer -/

/-- A side that holds no authorization and has no sale in progress. -/
theorem State.busySide_none (hb : x.busySide = none) (d : Side) : (x.fpState d).live = false := by
  simp only [State.busySide, List.find?_eq_none] at hb
  have hd := hb d (by cases d <;> simp)
  simp only [Bool.or_eq_true, decide_eq_true_eq, not_or, State.inSale] at hd
  cases hf : x.fpState d <;> simp_all [FpState.inSale, FpState.live]

theorem State.orderStandby_obeys (h : Obeys P s x) (o : Order) (hk : takenIn x.pw.state .standby = true) : Obeys P s (x.orderStandby o) := by
  unfold State.orderStandby
  dsimp only
  split
  · exact State.complete_obeys h _ _ _
  split
  · exact State.complete_obeys h _ _ _
  rename_i hh
  split
  · exact State.complete_obeys h _ _ _
  · rename_i hb
    have ha := active_of_taken hk nofun nofun hh
    refine State.beginShutdown_obeys (State.updPower_obeys (State.setWakeTime_obeys h _) _ (by intro; rfl) (by intro; rfl))
        (fun _ => ?_) fun _ d => State.busySide_none hb d
    change x.pw.state ≠ .powerFail
    rw [ha]
    decide

/-- A wake from STANDBY. -/
theorem State.wakeFromStandby_obeys (h : Obeys P s x) (c : WakeCause) (hs : x.pw.state = .standby) : Obeys P s (x.wakeStart c) :=
  State.wakeStart_obeys h c (fun _ => .inr (by simp [hs])) fun _ => by simp [hs]

theorem State.orderWake_obeys (h : Obeys P s x) (o : Order) : Obeys P s (x.orderWake o) := by
  have ht := State.complete_obeys h o.ref .ok (powerDetail x.pw.state)
  unfold State.orderWake
  dsimp only
  split
  · rename_i hs
    exact State.wakeFromStandby_obeys ht _ (by simpa using hs)
  · exact ht

theorem State.checkWakeTime_obeys (h : Obeys P s x) : Obeys P s x.checkWakeTime := by
  unfold State.checkWakeTime
  split
  · split
    · rename_i hs
      exact State.wakeFromStandby_obeys h _ hs
    · exact State.updPower_obeys h _ (by intro; rfl) (by intro; rfl)
    · exact h
  · exact h

theorem State.setClock_obeys (h : Obeys P s x) (t : Word32) : Obeys P s { x with rtc := t } := h.same (by rfl)

theorem State.orderSetClock_obeys (h : Obeys P s x) (o : Order) : Obeys P s (x.orderSetClock o) := by
  unfold State.orderSetClock
  dsimp only
  split
  · exact State.complete_obeys h _ _ _
  · have ht := State.rewrite_obeys (State.complete_obeys (State.setClock_obeys h (BitVec.ofNat 32 (x.bodyField o.ref.slot 0 4))) o.ref .ok x.rtc.toNat)
      .device
    split
    · exact State.checkWakeTime_obeys ht
    · exact ht

theorem State.degrade_obeys (h : Obeys P s x) (why : ClockFail) : Obeys P s (x.degrade why) := State.attn_obeys (State.updPower_obeys h _
    (by intro; rfl) (by intro; rfl)) _

theorem State.endClock_obeys (h : Obeys P s x) : Obeys P s x.endClock := State.setPhase_obeys (State.updPower_obeys h _ (by intro; rfl) (by intro; rfl)) _

theorem State.degradeSale_obeys (h : Obeys P s x) (d : Side) : Obeys P s (x.degradeSale d) := by
  unfold State.degradeSale
  split
  · exact State.updSale_obeys h d _ _
  · exact h

theorem State.updMeter_fp_foldl (f : State → Meter → Channel → Channel) (xs : List Meter) (s : State) :
    (xs.foldl (fun s m => s.updMeter m (f s m)) s).fp = s.fp := by
  induction xs generalizing s with
  | nil => rfl
  | cons m rest ih => exact ih _

theorem State.loadStore_fp (s : State) (image : List Host.Cell) : (s.loadStore image).fp = s.fp := by
  rw [State.loadStore, State.loadK, State.updMeter_fp_foldl (fun s m c => { c with k := s.copyK m, cal := s.copyCal m })]
  simp [State.flagMetrology]

theorem State.storeLoaded_obeys (h : Obeys P s x) (image : List Host.Cell) (levels : Sides (Three LevelPair))
    (hd : P → ∀ d, x.fpState d ≠ .fueling) : Obeys P s (x.storeLoaded image levels) := by
  have ht : Obeys P s ((x.loadStore image).updStore (fun y => { y with check := some 10000 })) :=
    State.updStore_obeys (State.loadStore_obeys h image) _ (by exact id)
  have hfp (d : Side) : State.fpState (((x.loadStore image).updStore (fun y => { y with check := some 10000 })).setPhase .retention) d = x.fpState d := by
    rw [State.fpState, State.setPhase, State.attn_fp, State.updPower_fp, State.updStore_fp, State.loadStore_fp]
    rfl
  exact State.enterDisplay_obeys (State.reviewBoth_obeys (State.startDecoding_obeys (State.retentionPhase_obeys (State.setPhase_obeys ht _)
    (fun p => hfp .a ▸ hd p .a) (fun p => hfp .b ▸ hd p .b)) levels))

theorem State.enterStandby_obeys (h : Obeys P s x) (hs : x.pw.state = .shuttingDown) : Obeys P s x.enterStandby := by
  have hoff : Obeys P s (x.disableDrives.stopDecoding.updStore (fun y => { y with check := none, reloading := false, reloadDue := false })) :=
    State.updStore_obeys (State.stopDecoding_obeys (State.disableDrives_obeys h)) _ (by exact id)
  have hst : (x.disableDrives.stopDecoding.updStore (fun y => { y with check := none, reloading := false, reloadDue := false })).pw.state
      = .shuttingDown := hs
  have hsby := State.setPowerState_obeys hoff .standby (fun _ => .inr (by rw [hst]; decide)) fun _ => by rw [hst]; decide
  have hin := State.setPowerState_state (x.disableDrives.stopDecoding.updStore (fun y => { y with check := none, reloading := false, reloadDue := false }))
    .standby
  unfold State.enterStandby
  dsimp only
  set y := (x.disableDrives.stopDecoding.updStore (fun y => { y with check := none, reloading := false, reloadDue := false })).setPowerState .standby
  have hz := State.updPort_obeys (State.completeOpt_obeys (State.updPower_obeys hsby
      (fun p => { p with osc := false, pll := false, standbyOrder := none, wakeRequest := none }) (by intro; rfl) (by intro; rfl)) x.pw.standbyOrder .ok 0)
    (fun p => { p with posts := [], asleep := !p.awake })
  split
  · refine State.wakeFromStandby_obeys hz _ ?_
    simpa using hin
  · exact hz

theorem State.endResetHold_obeys (h : Obeys P s x) : Obeys P s x.endResetHold := by
  unfold State.endResetHold
  split
  · exact State.updPower_obeys (State.zeroExchange_obeys h) (fun p => { p with resetHold := none, resetMax := none }) (by intro; rfl) (by intro; rfl)
  · exact h

theorem State.powerFailWarning_obeys (h : Obeys P s x) : Obeys P s x.powerFailWarning := by
  have hf {y : State} (hy : Obeys P s y) : Obeys P s y.failStandby := State.updPower_obeys (State.completeOpt_obeys hy _ _ _)
    (fun p => { p with standbyOrder := none }) (by intro; rfl) (by intro; rfl)
  unfold State.powerFailWarning
  dsimp only
  split
  · exact State.endResetHold_obeys (State.updPower_obeys h (fun p => { p with warning := true, hold := none }) (by intro; rfl) (by intro; rfl))
  · exact State.endResetHold_obeys (State.updPower_obeys (hf (State.failActions_obeys h _ _)) (fun p => { p with warning := true, hold := none })
        (by intro; rfl) (by intro; rfl))

/-- A wake out of POWER_FAIL, mains being present. -/
theorem State.wakeFromFail_obeys (h : Obeys P s x) (c : WakeCause) (hm : x.pw.mains = true) (hs : x.pw.state = .powerFail) :
    Obeys P s (x.wakeStart c) :=
  State.wakeStart_obeys h c (fun _ => .inl hm) fun _ => by simp [hs]

theorem State.powerGood_obeys (h : Obeys P s x) (hm : x.pw.mains = true) (hs : x.pw.state = .powerFail) : Obeys P s x.powerGood := by
  have ht : Obeys P s (x.updPower (fun p => { p with hold := none, cold := false })) := State.updPower_obeys h _ (by intro; rfl) (by intro; rfl)
  unfold State.powerGood
  dsimp only
  by_cases hc : x.pw.cold = true
  · simp only [if_pos hc]
    split
    · exact State.zeroExchange_obeys ht
    · exact State.wakeFromFail_obeys (State.zeroExchange_obeys ht) _ hm hs
  · simp only [if_neg hc]
    split
    · exact ht
    · exact State.wakeFromFail_obeys ht _ hm hs

theorem State.resetHoldEnd_obeys (h : Obeys P s x) (hm : x.pw.mains = true) (hs : x.pw.state = .powerFail) : Obeys P s x.resetHoldEnd := by
  have ht : Obeys P s (x.zeroExchange.updPower (fun p => { p with resetHold := none, resetMax := none })) :=
    State.updPower_obeys (State.zeroExchange_obeys h) _ (by intro; rfl) (by intro; rfl)
  unfold State.resetHoldEnd
  dsimp only
  split
  · exact ht
  · exact State.wakeFromFail_obeys ht _ hm hs

/-! ## The host port -/

theorem State.onPort_obeys (act : State → State) (h : Obeys P s x) (ha : Obeys P s (act x)) : Obeys P s (x.onPort act) := by
  unfold State.onPort
  split
  · exact ha
  · exact h

theorem State.ignorePost_obeys (h : Obeys P s x) (value : Nat) (why : IgnoreReason) : Obeys P s (x.ignorePost value why) :=
  State.rewrite_obeys (State.attn_obeys (State.updPort_obeys h _) _) _

theorem State.post_obeys (h : Obeys P s x) (value : Word16) : Obeys P s (x.post value) := by
  unfold State.post
  dsimp only
  split
  · exact State.ignorePost_obeys h _ _
  split
  · exact State.ignorePost_obeys h _ _
  split
  · exact State.ignorePost_obeys h _ _
  · exact State.updPort_obeys h _

theorem State.writeReset_obeys (h : Obeys P s x) (value : Bool) : Obeys P s (x.writeReset value) := by
  unfold State.writeReset
  split
  · exact State.deviceReset_obeys h _
  · exact h

theorem State.writeRegister_obeys (h : Obeys P s x) (a : Nat) (v : Word16) : Obeys P s (x.writeRegister a v) := by
  unfold State.writeRegister
  split
  · exact State.updPort_obeys h _
  split
  · exact State.updPort_obeys h _
  split
  · exact State.post_obeys h v
  split
  · exact State.writeReset_obeys (State.updPort_obeys h _) _
  · exact h

theorem State.hostByte_obeys (h : Obeys P s x) (a : Nat) (b : Byte) : Obeys P s (x.hostByte a b) := by
  unfold State.hostByte
  split
  · exact h
  split
  · exact State.updReader_obeys h _ _
  split
  · exact State.updReader_obeys h _ _
  split
  · exact h
  split
  · exact h.same (by rfl)
  · exact h

theorem State.hostBytes_obeys (h : Obeys P s x) (a : Nat) (bs : List Byte) : Obeys P s (x.hostBytes a bs) := by
  induction bs generalizing x a with
  | nil => exact h
  | cons b rest ih => exact ih (State.hostByte_obeys h a b) (a + 1)

theorem State.hostRegisters_obeys (h : Obeys P s x) (a : Nat) (bs : List Byte) : Obeys P s (x.hostRegisters a bs) := by
  fun_induction State.hostRegisters x a bs with
  | case1 x a h l rest ih => exact ih (State.writeRegister_obeys ‹_› _ _)
  | case2 => exact h

theorem State.takeHead_obeys (act : State → Nat → State) (h : Obeys P s x) (ha : ∀ n, Obeys P s (act x n)) : Obeys P s (x.takeHead act) := by
  unfold State.takeHead
  split
  · exact h
  · split
    · exact ha _
    · exact h

theorem State.takeAndAnswer_obeys (h : Obeys P s x) (n : Nat) (code : ResultCode) (detail : Nat) : Obeys P s (x.takeAndAnswer n code detail) :=
  State.complete_obeys (State.takeSlot_obeys h n) _ _ _

end Sys2Proof.Machine
end

section
/-! PROOFS. What every command keeps: the queue, the law of the data and the law of the drives (R152, and O2, O5, O6, O7). -/

namespace Sys2Proof.Machine

variable {s x : State}

/-! ## The close of an event -/

/-- What an operation of an event that began in `s` keeps, the law of the drives holding there. -/
structure Sound (s x : State) : Prop where
  keeps : Keeps s x
  obeys : Obeys s.DriveLaw s x

theorem Sound.refl (s : State) : Sound s s := ⟨.refl s, .refl s⟩

/-- An operation that acts under a condition. -/
theorem Sound.ite {y : State} (c : Prop) [Decidable c] (h : Sound s x) (hy : c → Sound s y) : Sound s (if c then y else x) := by
  split
  · exact hy ‹c›
  · exact h

theorem Sound.unless {y : State} (c : Prop) [Decidable c] (hy : ¬c → Sound s y) : Sound s (if c then s else y) := by
  split
  · exact .refl s
  · exact hy ‹¬c›

/-- What a command answers: the next state, everything kept, and no retention write left to be read back. -/
def Runs (s : State) (o : Host.Outcome State Fault Refusal) : Prop :=
  ∃ t, o = .next t ∧ Sound s t ∧ (s.rev.wrote = [] → t.rev.wrote = [])

theorem Runs.refl (s : State) : Runs s (.next s) := ⟨s, rfl, .refl s, id⟩

theorem commit_obeys {P : Prop} (h : Obeys P s x) (b : State) : Obeys P s (commit b x) := by
  unfold commit
  split
  · exact h.same (by rfl)
  · exact (State.reportHalt_obeys h _).same (by rfl)

theorem commit_wrote (b x : State) : (commit b x).rev.wrote = [] := by
  unfold commit
  split <;> rfl

/-- A command that acts under a condition, and closes its event. -/
theorem runs_commit (b : State) (c : Prop) [Decidable c] (h : c → Sound s x) : Runs s (.next (if c then commit b x else s)) := by
  split
  · rename_i hc
    exact ⟨_, rfl, ⟨commit_keeps (h hc).keeps b, commit_obeys (h hc).obeys b⟩, fun _ => commit_wrote b x⟩
  · exact .refl s

theorem runs_event {f : State → State} (h : Sound s (f s)) : Runs s (event s f) := runs_commit s _ fun _ => h

/-! ## The commands whose conditions the row itself states -/

theorem State.driveLawBut_of (hl : s.DriveLaw) : s.DriveLawBut true noSide := (State.driveLaw_iff s).mp hl

/-- While the device is not ACTIVE, no side holds an authorization or an open sale. -/
theorem State.DriveLaw.not_live (hl : s.DriveLaw) (hs : s.pw.state ≠ .active) (d : Side) : (s.fpState d).live = false :=
  Bool.eq_false_iff.mpr fun h => hs (hl.liveActive d h)

theorem State.DriveLaw.not_fueling (hl : s.DriveLaw) (hs : s.pw.state ≠ .active) (d : Side) : s.fpState d ≠ .fueling := fun h =>
  absurd (hl.not_live hs d) (by rw [h]; decide)

theorem State.onFlight_sound (act : State → Flight → State) (hk : ∀ y f, Keeps y (act y f)) (ho : ∀ f, Obeys s.DriveLaw s (act s f)) :
    Sound s (s.onFlight act) := ⟨State.onFlight_keeps (.refl s) act hk, State.onFlight_obeys act (.refl s) ho⟩

/-- What every owner's part of an order keeps, taken as the row states. -/
theorem State.withPlainOrder_sound (k : OrderKind) (owner : State → Order → State) (hk : ∀ y o, Keeps y (owner y o))
    (ho : ∀ y o, y.pw = s.pw → y.fp = s.fp → takenIn y.pw.state k = true → Obeys s.DriveLaw y (owner y o)) : Sound s (s.withPlainOrder k owner) :=
  ⟨State.withPlainOrder_keeps (.refl s) k owner hk, State.withPlainOrder_obeys (.refl s) k owner ho⟩

theorem State.withOrder_sound (k : OrderKind) (owner : State → Order → State) (hk : ∀ y o, Keeps y (owner y o))
    (ho : ∀ y o, y.pw = s.pw → y.fp = s.fp → takenIn y.pw.state k = true → Obeys s.DriveLaw y (owner y o)) : Sound s (s.withOrder k owner) :=
  ⟨State.withOrder_keeps (.refl s) k owner hk, State.withOrder_obeys (.refl s) k owner ho⟩

theorem State.withSideOrder_sound (k : OrderKind) (owner : State → Order → Side → State) (hk : ∀ y o d, Keeps y (owner y o d))
    (ho : ∀ y o d, y.pw = s.pw → y.fp = s.fp → takenIn y.pw.state k = true → Obeys s.DriveLaw y (owner y o d)) :
    Sound s (s.withSideOrder k owner) :=
  ⟨State.withSideOrder_keeps (.refl s) k owner hk, State.withSideOrder_obeys (.refl s) k owner ho⟩

theorem State.decoded_sound (act : State → State) (hk : ∀ y, Keeps y (act y)) (ho : Obeys s.DriveLaw s (act s)) : Sound s (s.decoded act) :=
  ⟨State.decoded_keeps (.refl s) act hk, State.decoded_obeys act (.refl s) ho⟩

theorem State.onPort_sound (act : State → State) (hk : ∀ y, Keeps y (act y)) (ho : Obeys s.DriveLaw s (act s)) : Sound s (s.onPort act) :=
  ⟨State.onPort_keeps (.refl s) act hk, State.onPort_obeys act (.refl s) ho⟩

theorem State.takeHead_sound (act : State → Nat → State) (hk : ∀ y n, Keeps y (act y n)) (ho : ∀ n, Obeys s.DriveLaw s (act s n)) :
    Sound s (s.takeHead act) := ⟨State.takeHead_keeps (.refl s) act hk, State.takeHead_obeys act (.refl s) ho⟩

/-! ## What each command keeps, where its row states more than one operation -/

theorem State.holdEnds_state (h : s.holdEnds = true) : s.pw.state = .powerFail := by
  simp only [State.holdEnds, Bool.and_eq_true, decide_eq_true_eq] at h
  exact h.1.1

theorem execSettleTimerExpiry_runs (d : Side) (s : State) : Runs s (execSettleTimerExpiry d s) :=
  runs_event (.ite _ (.refl s) fun hc => ⟨State.completeSale_keeps (.refl s) d, State.completeSale_obeys (.refl s) d fun _ => by simp [hc.1]⟩)

theorem execRunOnExpiry_runs (m : Product) (s : State) : Runs s (execRunOnExpiry m s) :=
  runs_event (.ite _ (.refl s) fun hc => ⟨State.updMotor_keeps (.refl s) m _, State.runOnEnd_obeys (.refl s) m hc.1⟩)

theorem execBusClearDone_runs (b : Bool) (s : State) : Runs s (execBusClearDone b s) :=
  runs_event (.ite _ (.refl s) fun _ => by
    split
    · exact ⟨State.updDisp_keeps (.refl s) _, State.updDisp_obeys (.refl s) _⟩
    · exact ⟨State.updDisp_keeps (.refl s) _, State.updDisp_obeys (.refl s) _⟩)

theorem execGeneralCallComplete_runs (s : State) : Runs s (execGeneralCallComplete s) := by
  refine runs_event ?_
  split
  · split
    · exact ⟨State.callDone_keeps (.refl s) _, State.callDone_obeys (.refl s) _ State.driveLawBut_of⟩
    · exact .refl s
  · exact .refl s

theorem execReaderReply_runs (d : Side) (skipped : List Byte) (kind flags : Byte) (rest : List Byte) (s : State) :
    Runs s (execReaderReply d skipped kind flags rest s) := by
  refine runs_event ?_
  split
  · exact .ite _ (.refl s) fun _ => ⟨State.replyRead_keeps (.refl s) d _, State.replyRead_obeys (.refl s) d _⟩
  · exact .refl s

theorem execStorePageDone_runs (readBack : List Byte) (s : State) : Runs s (execStorePageDone readBack s) := by
  refine runs_event ?_
  split
  · exact .refl s
  · split
    · exact ⟨State.pageGood_keeps (.refl s) _, State.pageGood_obeys (.refl s) _⟩
    · exact ⟨State.writeBad_keeps (.refl s), State.writeBad_obeys (.refl s)⟩

theorem execPllLockTimeout_runs (s : State) : Runs s (execPllLockTimeout s) :=
  runs_event (.ite _ (.refl s) fun _ => by
    split
    · exact ⟨State.endClock_keeps (State.degrade_keeps (.refl s) _), State.endClock_obeys (State.degrade_obeys (.refl s) _)⟩
    · exact ⟨State.updPower_keeps (.refl s) _, State.updPower_obeys (.refl s) (fun p => { p with lockWait := some 5, pllRetried := true })
          (by intro; rfl) (by intro; rfl)⟩)

theorem execStoreLoadDone_runs (image : List Host.Cell) (levels : Sides (Three LevelPair)) (s : State) : Runs s (execStoreLoadDone image levels s) :=
  runs_event (.ite _ (.refl s) fun hc => ⟨State.storeLoaded_keeps (.refl s) image levels,
    State.storeLoaded_obeys (.refl s) image levels fun hl => hl.not_fueling (by simp [hc.1])⟩)

theorem execWakePin_runs (s : State) : Runs s (execWakePin s) := by
  refine runs_event ?_
  split
  · exact ⟨State.wakeStart_keeps (.refl s) _, State.wakeFromStandby_obeys (.refl s) _ ‹_›⟩
  · exact ⟨State.updPower_keeps (.refl s) _, State.updPower_obeys (.refl s) _ (by intro; rfl) (by intro; rfl)⟩
  · exact .refl s

theorem State.secondPassed_sound (s : State) : Sound s { s with rtc := s.rtc + 1 } :=
  ⟨(Keeps.refl s).same rfl rfl rfl rfl rfl, State.setClock_obeys (.refl s) _⟩

theorem execRtcSecond_runs (s : State) : Runs s (execRtcSecond s) := by
  unfold execRtcSecond
  split
  · exact ⟨_, rfl, ⟨commit_keeps (State.secondPassed_sound s).keeps s, commit_obeys (State.secondPassed_sound s).obeys s⟩, fun _ => commit_wrote _ _⟩
  · exact ⟨_, rfl, State.secondPassed_sound s, id⟩

theorem State.powerLost_driveLaw (s : State) : s.mainsLost.DriveLawBut true noSide := by
  have hstop : s.mainsLost.DriveLawBut true (fun _ => true) :=
    .of_stopped (fun _ => rfl) (fun v => by obtain ⟨d, p⟩ := v; cases d <;> cases p <;> rfl) rfl (fun m => by cases m <;> rfl) true
  refine { hstop with liveActive := fun d _ hd => absurd hd (Bool.eq_false_iff.mp ?_) }
  cases d <;> simp only [State.mainsLost, State.fpState, Sides.get, FuelPoint.powerUp] <;> split <;> rfl

theorem execMainsLoss_runs (s : State) : Runs s (execMainsLoss s) := by
  unfold execMainsLoss
  split
  · refine ⟨_, rfl, ⟨State.mainsLost_keeps (.refl s), fun _ => State.reset_dataLaw.channels, fun _ => State.reset_dataLaw.copy, fun _ g loose _ => ?_⟩,
      fun _ => rfl⟩
    exact ((State.powerLost_driveLaw s).served_any g).loosen fun _ _ => rfl
  · exact .refl s

theorem execMainsReturn_runs (warning : Bool) (s : State) : Runs s (execMainsReturn warning s) := by
  unfold execMainsReturn
  split
  · exact .refl s
  · rename_i hm
    refine ⟨_, rfl, ⟨State.updPower_keeps (.refl s) _, id, id, fun hl g loose l => ?_⟩, id⟩
    have hs : s.pw.state ≠ .active := fun ha => nomatch (hl.mainsAbsent (Bool.eq_false_iff.mpr hm)).symm.trans ha
    exact l.setPower rfl nofun (fun _ d _ => hl.not_live hs d) fun _ => l.still hs

theorem execRetentionSupplyLow_runs (s : State) : Runs s (execRetentionSupplyLow s) := by
  unfold execRetentionSupplyLow
  split
  · exact .refl s
  · exact ⟨_, rfl, ⟨(Keeps.refl s).same rfl rfl rfl rfl rfl, (Obeys.refl s).same (by rfl)⟩, id⟩

theorem execTakeUnknownKind_runs (s : State) : Runs s (execTakeUnknownKind s) :=
  runs_event (State.takeHead_sound _ (fun y n => keeps_ite _ (State.takeAndAnswer_keeps (.refl y) n _ _) (.refl y)) fun n => by
    split
    · exact State.takeAndAnswer_obeys (.refl s) n _ _
    · exact .refl s)

theorem execNotActiveTake_runs (s : State) : Runs s (execNotActiveTake s) :=
  runs_event (State.takeHead_sound _ (fun y n => keeps_ite _ (State.takeAndAnswer_keeps (.refl y) n _ _) (.refl y)) fun n => by
    split
    · exact State.takeAndAnswer_obeys (.refl s) n _ _
    · exact .refl s)

theorem State.tailPosts_keeps (y : State) : Keeps y (y.updPort (fun p => { p with posts := p.posts.tail })) :=
  ⟨rfl, rfl, fun l => ⟨l.memory, l.numbers, l.width, fun n hn => l.slots n (List.mem_of_mem_tail hn), l.once.sublist (List.tail_sublist _)⟩⟩

theorem State.withdrawHead_keeps (y : State) (n : Nat) :
    Keeps y (if y.slotPosted n then y else (y.updPort (fun p => { p with posts := p.posts.tail })).ignorePost n .withdrawn) := by
  split
  · exact .refl y
  · exact State.ignorePost_keeps (State.tailPosts_keeps y) _ _

theorem execTakeWithdrawn_runs (s : State) : Runs s (execTakeWithdrawn s) :=
  runs_event (State.takeHead_sound _ State.withdrawHead_keeps fun n => by
    split
    · exact .refl s
    · exact State.ignorePost_obeys (State.updPort_obeys (.refl s) _) _ _)

theorem execRead_runs (addr : Option Word16) (count : Nat) (s : State) : Runs s (execRead addr count s) := by
  refine runs_event ?_
  split
  · split
    · exact ⟨State.updPort_keeps (.refl s) _ rfl rfl, State.updPort_obeys (.refl s) _⟩
    · exact .refl s
  · exact ⟨State.updPort_keeps (.refl s) _ rfl rfl, State.updPort_obeys (.refl s) _⟩

theorem execWrite_runs (addr : Option Word16) (data : List Byte) (s : State) : Runs s (execWrite addr data s) := by
  cases addr with
  | none => exact runs_event (State.onPort_sound _ .refl (.refl s))
  | some a =>
    refine runs_event (State.onPort_sound _ (fun y => keeps_ite _ (State.hostBytes_keeps (.refl y) _ _) (State.hostRegisters_keeps (.refl y) _ _)) ?_)
    dsimp only
    split
    · exact State.hostBytes_obeys (.refl s) _ _
    · exact State.hostRegisters_obeys (.refl s) _ _

theorem execInvalidCommand_runs (command : Byte) (count : Nat) (s : State) : Runs s (execInvalidCommand command count s) := by
  refine runs_event ?_
  split
  · exact .refl s
  · exact ⟨State.updPort_keeps (.refl s) _ rfl rfl, State.updPort_obeys (.refl s) _⟩

/-! ## Every command -/

/-- Every command answers a next state and keeps the queue, the law of the data and the law of the drives (R152, R182). -/
theorem exec_runs (c : Instr) (s : State) : Runs s (exec c s) := by
  unfold exec
  cases c with
  | authorize =>
    refine runs_event ?_
    exact State.withSideOrder_sound _ _ (fun y => State.orderAuthorize_keeps (.refl y)) fun y o d _ _ hk =>
      State.orderAuthorize_obeys (.refl y) o d hk
  | deauthorize =>
    refine runs_event ?_
    exact State.withSideOrder_sound _ _ (fun y => State.orderDeauthorize_keeps (.refl y)) fun y o d _ _ _ =>
      State.orderDeauthorize_obeys (.refl y) o d
  | stop =>
    refine runs_event ?_
    exact State.withSideOrder_sound _ _ (fun y => State.orderStop_keeps (.refl y)) fun y o d _ _ _ => State.orderStop_obeys (.refl y) o d
  | pause =>
    refine runs_event ?_
    exact State.withSideOrder_sound _ _ (fun y => State.orderPause_keeps (.refl y)) fun y o d _ _ hk => State.orderPause_obeys (.refl y) o d hk
  | resume =>
    refine runs_event ?_
    exact State.withSideOrder_sound _ _ (fun y => State.orderResume_keeps (.refl y)) fun y o d _ _ hk => State.orderResume_obeys (.refl y) o d hk
  | settle =>
    refine runs_event ?_
    exact State.withSideOrder_sound _ _ (fun y => State.orderSettle_keeps (.refl y)) fun y o d _ _ _ => State.orderSettle_obeys (.refl y) o d
  | clearLock =>
    refine runs_event ?_
    exact State.withSideOrder_sound _ _ (fun y => State.orderClearLock_keeps (.refl y)) fun y o d _ _ _ => State.orderClearLock_obeys (.refl y) o d
  | clearHalt =>
    refine runs_event ?_
    exact State.withPlainOrder_sound _ _ (fun y => State.orderClearHalt_keeps (.refl y)) fun y o _ _ _ => State.orderClearHalt_obeys (.refl y) o
  | priceSet =>
    refine runs_event ?_
    exact State.withPlainOrder_sound _ _ (fun y => State.orderPriceSet_keeps (.refl y)) fun y o _ _ _ => State.orderPriceSet_obeys (.refl y) o
  | showMessage =>
    refine runs_event ?_
    exact State.withOrder_sound _ _ (fun y => State.orderShowMessage_keeps (.refl y)) fun y o _ _ _ => State.orderShowMessage_obeys (.refl y) o
  | readerSend =>
    refine runs_event ?_
    exact State.withSideOrder_sound _ _ (fun y => State.orderReaderSend_keeps (.refl y)) fun y o d _ _ _ =>
      State.orderReaderSend_obeys (.refl y) o d
  | readerRestart =>
    refine runs_event ?_
    exact State.withSideOrder_sound _ _ (fun y => State.orderReaderRestart_keeps (.refl y)) fun y o d _ _ _ =>
      State.orderReaderRestart_obeys (.refl y) o d
  | motorClear =>
    refine runs_event ?_
    exact State.withOrder_sound _ _ (fun y => State.orderMotorClear_keeps (.refl y)) fun y o _ _ _ => State.orderMotorClear_obeys (.refl y) o
  | standby =>
    refine runs_event ?_
    exact State.withPlainOrder_sound _ _ (fun y => State.orderStandby_keeps (.refl y)) fun y o _ _ hk => State.orderStandby_obeys (.refl y) o hk
  | wake =>
    refine runs_event ?_
    exact State.withPlainOrder_sound _ _ (fun y => State.orderWake_keeps (.refl y)) fun y o _ _ _ => State.orderWake_obeys (.refl y) o
  | setClock =>
    refine runs_event ?_
    exact State.withPlainOrder_sound _ _ (fun y => State.orderSetClock_keeps (.refl y)) fun y o _ _ _ => State.orderSetClock_obeys (.refl y) o
  | calibrate =>
    refine runs_event ?_
    exact State.withOrder_sound _ _ (fun y => State.orderCalibrate_keeps (.refl y)) fun y o _ _ _ => State.orderCalibrate_obeys (.refl y) o
  | setSettings =>
    refine runs_event ?_
    exact State.withPlainOrder_sound _ _ (fun y => State.orderSetSettings_keeps (.refl y)) fun y o _ _ _ => State.orderSetSettings_obeys (.refl y) o
  | initTotals =>
    refine runs_event ?_
    exact State.withPlainOrder_sound _ _ (fun y => State.orderInitTotals_keeps (.refl y)) fun y o _ _ _ => State.orderInitTotals_obeys (.refl y) o
  | clearLog =>
    refine runs_event ?_
    exact State.withPlainOrder_sound _ _ (fun y => State.orderClearLog_keeps (.refl y)) fun y o _ _ _ => State.orderClearLog_obeys (.refl y) o
  | takeUnknownKind => exact execTakeUnknownKind_runs s
  | takeWithdrawn => exact execTakeWithdrawn_runs s
  | notActiveTake => exact execNotActiveTake_runs s
  | orderPost v =>
    refine runs_event ?_
    exact State.onPort_sound _ (fun y => State.post_keeps (.refl y) v) (State.post_obeys (.refl s) v)
  | attnEnable m =>
    refine runs_event ?_
    exact State.onPort_sound _ (fun y => State.setEnable_keeps (.refl y) m) (State.updPort_obeys (.refl s) _)
  | attnClear m =>
    refine runs_event ?_
    exact State.onPort_sound _ (fun y => State.clearAttn_keeps (.refl y) m) (State.updPort_obeys (.refl s) _)
  | deviceReset v =>
    refine runs_event ?_
    exact State.onPort_sound _ (fun y => State.writeReset_keeps (.refl y) v) (State.writeReset_obeys (.refl s) v)
  | portAwakeInStandby v =>
    refine runs_event ?_
    exact State.onPort_sound _ (fun y => State.writeAwake_keeps (.refl y) v) (State.updPort_obeys (.refl s) _)
  | registerWriteIgnored =>
    refine runs_event ?_
    exact .refl s
  | read addr count => exact execRead_runs addr count s
  | write addr data => exact execWrite_runs addr data s
  | invalidCommand command count => exact execInvalidCommand_runs command count s
  | hoseLift d hose =>
    refine runs_event ?_
    exact ⟨State.liftHose_keeps (.refl s) d hose, State.liftHose_obeys (.refl s) d hose fun hl ha => hl.liveActive d (ha ▸ rfl)⟩
  | hoseHang d hose =>
    refine runs_event ?_
    exact ⟨State.hangHose_keeps (.refl s) d hose, State.hangHose_obeys (.refl s) d hose⟩
  | gradeButtonPress d g =>
    refine runs_event ?_
    exact ⟨State.pressButton_keeps (.refl s) d g, State.pressButton_obeys (.refl s) d g⟩
  | authExpiry d =>
    refine runs_event ?_
    exact ⟨State.expireAuth_keeps (.refl s) d, State.expireAuth_obeys (.refl s) d⟩
  | gradePressValidityExpiry d =>
    refine runs_event ?_
    exact ⟨State.updFp_keeps (.refl s) d _, State.updFp_obeys (.refl s) d _ (by intro; rfl)⟩
  | startTimeout d =>
    refine runs_event ?_
    exact ⟨State.saleTimeout_keeps (.refl s) d _ _ _, State.saleTimeout_obeys (.refl s) d _ _ _⟩
  | noFlowTimeout d =>
    refine runs_event ?_
    exact ⟨State.saleTimeout_keeps (.refl s) d _ _ _, State.saleTimeout_obeys (.refl s) d _ _ _⟩
  | pauseTimeout d =>
    refine runs_event ?_
    exact ⟨State.saleTimeout_keeps (.refl s) d _ _ _, State.saleTimeout_obeys (.refl s) d _ _ _⟩
  | settleTimerExpiry d => exact execSettleTimerExpiry_runs d s
  | forwardPulse m =>
    refine runs_event ?_
    exact State.decoded_sound _ (fun y => State.forward_keeps (State.updMeter_keeps (.refl y) m _) m) (State.forward_obeys
      (State.atRest_obeys (.refl s) m (pairAfter (s.meter m).phase)) m)
  | reversePulse m =>
    refine runs_event ?_
    exact State.decoded_sound _ (fun y => State.backward_keeps (State.updMeter_keeps (.refl y) m _) m) (State.backward_obeys
      (State.atRest_obeys (.refl s) m (pairBefore (s.meter m).phase)) m)
  | illegalTransition m =>
    refine runs_event ?_
    exact State.decoded_sound _ (fun y => State.illegal_keeps (.refl y) m) (State.illegal_obeys (.refl s) m)
  | subwindowExpiry m =>
    refine runs_event ?_
    exact State.decoded_sound _ (fun y => State.subwindow_keeps (.refl y) m) (State.subwindow_obeys (.refl s) m)
  | quietTimerExpiry m k =>
    refine runs_event ?_
    exact State.decoded_sound _ (fun y => State.updMeter_keeps (.refl y) m _) (State.updMeter_obeys (.refl s) m _ fun c => c.quieten k)
  | pwmPeriodBoundary =>
    refine runs_event ?_
    exact ⟨State.boundary_keeps (.refl s), State.boundary_obeys (.refl s)⟩
  | pullInEnd v =>
    refine runs_event ?_
    exact ⟨State.pullInEnd_keeps (.refl s) v, State.pullInEnd_obeys (.refl s) v⟩
  | blendIntervalExpiry d =>
    refine runs_event ?_
    exact ⟨State.blendExpiry_keeps (.refl s) d, State.blendExpiry_obeys (.refl s) d⟩
  | motorStartExpiry m =>
    refine runs_event ?_
    exact ⟨State.startExpiry_keeps (.refl s) m, State.startExpiry_obeys (.refl s) m⟩
  | runOnExpiry m => exact execRunOnExpiry_runs m s
  | motorTripAssert m =>
    refine runs_event ?_
    exact ⟨State.tripAssert_keeps (.refl s) m, State.tripAssert_obeys (.refl s) m⟩
  | motorTripRelease m =>
    refine runs_event ?_
    exact ⟨State.updMotor_keeps (.refl s) m _, State.updMotor_obeys (.refl s) m _ (by intro; rfl)⟩
  | displayFrameStart =>
    refine runs_event ?_
    exact ⟨State.startFrame_keeps (.refl s), State.startFrame_obeys (.refl s)⟩
  | displayFrameComplete b check =>
    refine runs_event ?_
    exact State.onFlight_sound _ (fun y f => State.transferDone_keeps (.refl y) f b check) fun f => State.transferDone_obeys (.refl s) f b check
  | displayFrameNack =>
    refine runs_event ?_
    exact State.onFlight_sound _ (fun y f => State.flightFailed_keeps (State.endFlight_keeps (.refl y)) f _) fun f =>
      State.flightFailed_obeys (State.endFlight_obeys (.refl s)) f _
  | clockStretchTimeout =>
    refine runs_event ?_
    exact ⟨State.stretched_keeps (.refl s), State.stretched_obeys (.refl s)⟩
  | arbitrationLost =>
    refine runs_event ?_
    exact ⟨State.loseBus_keeps (.refl s), State.loseBus_obeys (.refl s)⟩
  | busStart =>
    refine runs_event ?_
    exact Sound.ite _ (.refl s) fun _ => ⟨State.updDisp_keeps (.refl s) _, State.updDisp_obeys (.refl s) _⟩
  | busStop =>
    refine runs_event ?_
    exact Sound.ite _ (.refl s) fun _ => ⟨State.updDisp_keeps (.refl s) _, State.updDisp_obeys (.refl s) _⟩
  | busStuckTimeout =>
    refine runs_event ?_
    exact Sound.ite _ (.refl s) fun _ => ⟨State.updDisp_keeps (.refl s) _, State.updDisp_obeys (.refl s) _⟩
  | busClearDone b => exact execBusClearDone_runs b s
  | generalCallComplete => exact execGeneralCallComplete_runs s
  | refreshTimerExpiry r =>
    refine runs_event ?_
    exact Sound.ite _ (.refl s) fun _ => ⟨State.updDisp_keeps (State.updHead_keeps (.refl s) r _) _, State.updDisp_obeys
      (State.updHead_obeys (.refl s) r _) _⟩
  | probeTimerExpiry r =>
    refine runs_event ?_
    exact Sound.ite _ (.refl s) fun _ => ⟨State.updDisp_keeps (State.updHead_keeps (.refl s) r _) _, State.updDisp_obeys
      (State.updHead_obeys (.refl s) r _) _⟩
  | staleDeadlineExpiry d =>
    refine runs_event ?_
    exact Sound.ite _ (.refl s) fun _ => ⟨State.headFailed_keeps (.refl s) _ _, State.headFailed_obeys (.refl s) _ _⟩
  | messageDurationExpiry d =>
    refine runs_event ?_
    exact Sound.ite _ (.refl s) fun _ => ⟨State.requestMessage_keeps (State.updLine_keeps (.refl s) d _) d, State.requestMessage_obeys
      (State.updLine_obeys (.refl s) d _) d⟩
  | saleSpacingExpiry r =>
    refine runs_event ?_
    exact ⟨State.updHead_keeps (.refl s) r _, State.updHead_obeys (.refl s) r _⟩
  | segmentTestEnd =>
    refine runs_event ?_
    exact Sound.ite _ (.refl s) fun _ => ⟨State.askCall_keeps (State.updDisp_keeps (.refl s) _) _, State.askCall_obeys
      (State.updDisp_obeys (.refl s) _) _⟩
  | displaySettleEnd =>
    refine runs_event ?_
    exact Sound.ite _ (.refl s) fun _ => ⟨State.checkProbing_keeps (State.attn_keeps (State.readMap_keeps
      (State.updDisp_keeps (.refl s) _)) _), State.checkProbing_obeys (State.attn_obeys (State.readMap_obeys (State.updDisp_obeys (.refl s) _)) _)⟩
  | readerPollExpiry d =>
    refine runs_event ?_
    exact Sound.ite _ (.refl s) fun _ => ⟨State.updReader_keeps (.refl s) d _, State.updReader_obeys (.refl s) d _⟩
  | readerReply d skipped kind flags rest => exact execReaderReply_runs d skipped kind flags rest s
  | readerResponseTimeout d =>
    refine runs_event ?_
    exact Sound.ite _ (.refl s) fun _ => ⟨State.updReader_keeps (State.readerMiss_keeps (.refl s) d) d _, State.updReader_obeys
      (State.readerMiss_obeys (.refl s) d) d _⟩
  | warmUpExpiry d =>
    refine runs_event ?_
    exact Sound.ite _ (.refl s) fun _ => ⟨State.warmUpFailed_keeps (.refl s) d, State.warmUpFailed_obeys (.refl s) d⟩
  | powerOffTimerExpiry d =>
    refine runs_event ?_
    exact Sound.ite _ (.refl s) fun _ => ⟨State.warmReader_keeps (State.updReader_keeps (.refl s) d _) d, State.warmReader_obeys
      (State.updReader_obeys (.refl s) d _) d⟩
  | tamperAssert d =>
    refine runs_event ?_
    exact ⟨State.tamperReader_keeps (State.updReader_keeps (.refl s) d _) d, State.tamperReader_obeys (State.updReader_obeys (.refl s) d _) d⟩
  | tamperRelease d =>
    refine runs_event ?_
    exact ⟨State.updReader_keeps (.refl s) d _, State.updReader_obeys (.refl s) d _⟩
  | overcurrent d =>
    refine runs_event ?_
    exact Sound.ite _ (.refl s) fun _ => ⟨State.cutReader_keeps (State.updReader_keeps (.refl s) d _) d _ _, State.cutReader_obeys
      (State.updReader_obeys (.refl s) d _) d _ _⟩
  | supplyFaultRelease d =>
    refine runs_event ?_
    exact ⟨State.updReader_keeps (.refl s) d _, State.updReader_obeys (.refl s) d _⟩
  | metrologySwitchChange on =>
    refine runs_event ?_
    exact Sound.unless _ fun _ => ⟨State.attn_keeps (State.updStore_keeps (.refl s) _) _, State.attn_obeys
      (State.updStore_obeys (.refl s) (fun x => { x with switchOn := on }) (by exact id)) _⟩
  | checkTimerExpiry crc =>
    refine runs_event ?_
    exact ⟨State.checkExpiry_keeps (.refl s) crc, State.checkExpiry_obeys (.refl s) crc⟩
  | reloadStart =>
    refine runs_event ?_
    exact Sound.ite _ (.refl s) fun _ => ⟨State.updStore_keeps (.refl s) _,
      State.updStore_obeys (.refl s) (fun x => { x with reloadDue := false, reloading := true }) (by exact id)⟩
  | reloadDone image =>
    refine runs_event ?_
    exact Sound.ite _ (.refl s) fun _ => ⟨State.reloadDone_keeps (.refl s) image, State.reloadDone_obeys (.refl s) image⟩
  | storeLoadDone image levels => exact execStoreLoadDone_runs image levels s
  | storePageDone readBack => exact execStorePageDone_runs readBack s
  | storeCycleTimeout =>
    refine runs_event ?_
    exact Sound.ite _ (.refl s) fun _ => ⟨State.writeBad_keeps (.refl s), State.writeBad_obeys (.refl s)⟩
  | crystalDetected =>
    refine runs_event ?_
    exact Sound.ite _ (.refl s) fun _ => ⟨State.updPower_keeps (.refl s) _,
      State.updPower_obeys (.refl s) (fun p => { p with crystalWatch := none, lockWait := some 5, pllRetried := false }) (by intro; rfl) (by intro; rfl)⟩
  | crystalWatchTimeout =>
    refine runs_event ?_
    exact Sound.ite _ (.refl s) fun _ => ⟨State.endClock_keeps (State.degrade_keeps (.refl s) _), State.endClock_obeys
      (State.degrade_obeys (.refl s) _)⟩
  | pllLock =>
    refine runs_event ?_
    exact Sound.ite _ (.refl s) fun _ => ⟨State.endClock_keeps (State.updPower_keeps (.refl s) _), State.endClock_obeys
      (State.updPower_obeys (.refl s) (fun p => { p with clock := .crystal, clockFail := none, pll := true, degraded := false }) (by intro; rfl)
          (by intro; rfl))⟩
  | pllLockTimeout => exact execPllLockTimeout_runs s
  | crystalStop =>
    refine runs_event ?_
    exact Sound.ite _ (.refl s) fun _ => ⟨State.degradeSale_keeps (State.degradeSale_keeps (State.degrade_keeps (.refl s) _) .a) .b,
      State.degradeSale_obeys (State.degradeSale_obeys (State.degrade_obeys (.refl s) _) .a) .b⟩
  | standbyEntry =>
    refine runs_event ?_
    exact Sound.ite _ (.refl s) fun hc => ⟨State.enterStandby_keeps (.refl s), State.enterStandby_obeys (.refl s) hc.1⟩
  | wakeTimeReached =>
    refine runs_event ?_
    exact ⟨State.checkWakeTime_keeps (.refl s), State.checkWakeTime_obeys (.refl s)⟩
  | wakePin => exact execWakePin_runs s
  | rtcSecond => exact execRtcSecond_runs s
  | powerFailWarning =>
    exact runs_commit _ _ fun _ => ⟨State.powerFailWarning_keeps (.refl s), State.powerFailWarning_obeys (.refl s)⟩
  | warningRelease =>
    refine runs_event ?_
    exact Sound.ite _ (.refl s) fun _ => ⟨State.updPower_keeps (.refl s) _,
      State.updPower_obeys (.refl s) (fun p => { p with warning := false, hold := some 500 }) (by intro; rfl) (by intro; rfl)⟩
  | powerGoodHoldEnd =>
    exact runs_commit _ _ fun hc => ⟨State.powerGood_keeps (.refl s), State.powerGood_obeys (.refl s) hc.1 (State.holdEnds_state hc.2)⟩
  | mainsLoss => exact execMainsLoss_runs s
  | mainsReturn warning => exact execMainsReturn_runs warning s
  | retentionSupplyLow => exact execRetentionSupplyLow_runs s
  | resetPin =>
    refine runs_event ?_
    exact ⟨State.deviceReset_keeps (.refl s) _, State.deviceReset_obeys (.refl s) _⟩
  | resetHoldEnd =>
    exact runs_commit _ _ fun hc => ⟨State.resetHoldEnd_keeps (.refl s), State.resetHoldEnd_obeys (.refl s) hc.1 hc.2.1⟩
  | quarterStep m i =>
    refine runs_event ?_
    exact State.decoded_sound _ (fun y => State.quarter_keeps (.refl y) m i) (State.quarter_obeys (.refl s) m i)
  | readerFrameEnd d =>
    refine runs_event ?_
    exact Sound.ite _ (.refl s) fun _ => ⟨State.updReader_keeps (.refl s) d _, State.updReader_obeys (.refl s) d _⟩
  | bothLinesHigh =>
    refine runs_event ?_
    exact Sound.ite _ (.refl s) fun _ => ⟨State.updDisp_keeps (.refl s) _, State.updDisp_obeys (.refl s) _⟩
  | abandonedFrameStop =>
    refine runs_event ?_
    exact Sound.ite _ (.refl s) fun _ => ⟨State.updDisp_keeps (.refl s) _, State.updDisp_obeys (.refl s) _⟩

/-! ## The obligations -/

/-- Settles O2, by what every command keeps. -/
theorem everyCommandCompletesAndLeavesTheQueue : Obligations.EveryCommandCompletesAndLeavesTheQueue := fun c s => by
  obtain ⟨t, ht, hs, hw⟩ := exec_runs c s
  exact ⟨t, ht, hs.keeps.pending, hs.keeps.readBack, hw⟩

/-- A step is sound from the state whose queue holds the commands that wait behind. -/
theorem step_sound {t : State} (h : step s = .next t) : Sound { s with pending := s.pending.tail } t := by
  unfold step at h
  split at h
  · rename_i hq
    obtain rfl : s = t := by simpa using h
    have hs : ({ s with pending := s.pending.tail } : State) = s := by
      rw [show s.pending.tail = s.pending by rw [hq]; rfl]
    rw [hs]
    exact .refl s
  · rename_i c rest hq
    obtain ⟨u, hu, hs, _⟩ := exec_runs c { s with pending := rest }
    obtain rfl : u = t := by simpa [hu] using h
    rw [hq]
    exact hs

/-- Settles O5: the law of the data does not speak of the queue, and every step keeps it. -/
theorem dataLawKeptByEveryStep : Obligations.DataLawKeptByEveryStep := fun _ _ hl h =>
  have hs := step_sound h
  ⟨hs.keeps.law ⟨hl.port.memory, hl.port.numbers, hl.port.width, hl.port.slots, hl.port.once⟩, hs.obeys.channels hl.channels, hs.obeys.copy hl.copy⟩

/-- Settles O6: the strengthened law (in the middle of an event, an arbiter may owe a grant and a side may be loose) is kept by every operation of
the event, and at its ends it is the law of the drives. -/
theorem driveLawKeptByEveryStep : Obligations.DriveLawKeptByEveryStep := fun s t hl h => by
  have hs := step_sound h
  have hq : ({ s with pending := s.pending.tail } : State).DriveLaw :=
    ⟨hl.mainsAbsent, hl.liveActive, hl.valves, hl.motors, hl.queueOnce, hl.queued, hl.oneStart, hl.granted⟩
  exact (State.driveLaw_iff t).mpr (hs.obeys.drive hq true noSide ((State.driveLaw_iff _).mp hq))

/-- Settles O7: every other command is an event, or acts under the condition that mains is present. -/
theorem nothingElseActsWithoutMains : Obligations.NothingElseActsWithoutMains := by
  intro c s hm hsec hlow hret
  unfold exec
  cases c with
  | rtcSecond => exact absurd rfl hsec
  | retentionSupplyLow => exact absurd rfl hlow
  | mainsReturn w => exact absurd rfl (hret w)
  | powerFailWarning | mainsLoss => exact congrArg _ (if_neg (by simp [hm]))
  | powerGoodHoldEnd | resetHoldEnd => exact congrArg _ (if_neg (by simp [hm]))
  | _ => exact event_off hm

end Sys2Proof.Machine
end

section
/-! PROOFS. The metering unit: the rate, the quiet timers, and the decoding of quarter steps, pulses and illegal transitions. -/

namespace Sys2Proof.Machine

/-- A command of the metering unit that changes one channel alone. -/
theorem exec_channel {s : State} {m : Meter} {o : Host.Outcome State Fault Refusal} {f : Channel → Channel} (h : o = .next (publish s (s.updMeter m f)))
    {c : Channel} (hc : f (s.meter m) = c) :
    ∃ t, o = .next t ∧ t.meter m = c ∧ (∀ x, x ≠ m → t.meter x = s.meter x) ∧ t = { s with met := t.met, rev := t.rev } :=
  ⟨_, h, by rw [publish_meter, State.updMeter_meter, hc], fun x hx => State.updMeter_meter_ne s f hx, rfl⟩

/-- Settles O24, by the definitions of the sub-window's rate and of the band. -/
theorem ratesBandsAndQuietTimers : Obligations.RatesBandsAndQuietTimers := by
  intro s m hs hd
  refine ⟨fun x hx => ?_, fun k => ?_⟩
  · have he : exec (.subwindowExpiry m) s = .next (publish s (s.subwindow m)) := event_decoded hs hd
    refine exec_channel he ?_
    simp only [Channel.bandAt, Channel.sumRate, hx]
    rfl
  · have he : exec (.quietTimerExpiry m k) s = .next (publish s (s.updMeter m (fun c => c.quieten k))) := event_decoded hs hd
    refine exec_channel he ?_
    cases k <;> rfl

/-! ## Pulses -/

/-- Two updates of one channel are one. -/
theorem State.updMeter_updMeter (s : State) (m : Meter) (f g : Channel → Channel) :
    (s.updMeter m f).updMeter m g = s.updMeter m (fun c => g (f c)) := by
  obtain ⟨d, p⟩ := m
  cases d <;> cases p <;> rfl

theorem State.updMeter_congr {s : State} {m : Meter} {f g : Channel → Channel} (h : f (s.meter m) = g (s.meter m)) :
    s.updMeter m f = s.updMeter m g := by
  unfold State.updMeter
  exact congrArg (fun c => { s with met := s.met.set m.side ((s.met.get m.side).set m.product c) }) h

/-- A reverse pulse that does not pass the limit of pending reverse (R35). -/
theorem State.backward_pending {s : State} {m : Meter} (h : (s.meter m).pendingRev < 50) :
    s.backward m = s.updMeter m (fun c => { c.pulseTaken with pendingRev := min 65535 (c.pendingRev + 1) }) := by
  unfold State.backward
  dsimp only
  rw [State.updMeter_meter, if_neg]
  simp only [Nat.not_lt]
  omega

/-- A forward pulse that cancels a pending reverse one (R35). -/
theorem State.forward_cancels {s : State} {m : Meter} (h : 0 < (s.meter m).pendingRev) :
    s.forward m = s.updMeter m (fun c => { c.pulseTaken with pendingRev := c.pulseTaken.pendingRev - 1 }) := by
  unfold State.forward
  dsimp only
  rw [if_pos h, State.updMeter_updMeter]

/-- An illegal transition that does not pass the limit of the illegal count (R35). -/
theorem State.illegal_counted {s : State} {m : Meter} (h : (s.meter m).illegal < 3) :
    s.illegal m = s.updMeter m (fun c => { c with
      phase := ⟨!c.phase.chA, !c.phase.chB⟩, position := 0, illegal := if c.attr = .sale then min 255 (c.illegal + 1) else c.illegal }) := by
  unfold State.illegal
  dsimp only
  rw [State.updMeter_meter, if_neg]
  dsimp only
  split <;> omega

theorem pairFlip_before {p : LevelPair} {i : MeterInput} (h : pairFlip p i ≠ pairAfter p) : pairFlip p i = pairBefore p := by
  revert h
  obtain ⟨a, b⟩ := p
  cases a <;> cases b <;> cases i <;> decide

/-- Settles O20: a quarter step is a forward pulse, a reverse pulse, or a move of the position. -/
theorem quarterStepsAndPulsesAreDecoded : Obligations.QuarterStepsAndPulsesAreDecoded := by
  refine ⟨fun s m i hs hd => ?_, fun s m hs hd => ⟨fun hp => ?_, fun hp => ?_⟩, fun s m hs hd hi => ?_⟩
  · have he : exec (.quarterStep m i) s = .next (publish s (s.quarter m i)) := event_decoded hs hd
    refine ⟨fun hf hb => ?_, fun hp hc => ?_, fun hp hc => ?_⟩
    · have hq : s.quarter m i = s.updMeter m (fun c => { c with
          phase := pairFlip (s.meter m).phase i
          position := if pairFlip (s.meter m).phase i = pairAfter (s.meter m).phase then (s.meter m).position + 1 else (s.meter m).position - 1 }) :=
        (if_neg hf).trans (if_neg hb)
      exact exec_channel (hq ▸ he) rfl
    · have hf : exec (.forwardPulse m) s = .next (publish s ((s.updMeter m (fun c => { c with phase := pairAfter c.phase, position := 0 })).forward m)) :=
        event_decoded hs hd
      have hq : s.quarter m i = (s.updMeter m (fun c => { c with phase := pairFlip (s.meter m).phase i, position := 0 })).forward m :=
        if_pos (by rw [if_pos hp, hc]; rfl)
      rw [he, hf, hq, State.updMeter_congr (g := fun c => { c with phase := pairAfter c.phase, position := 0 }) (by rw [hp])]
    · have hb : exec (.reversePulse m) s = .next (publish s ((s.updMeter m
          (fun c => { c with phase := pairBefore c.phase, position := 0 })).backward m)) :=
        event_decoded hs hd
      have hq : s.quarter m i = (s.updMeter m (fun c => { c with phase := pairFlip (s.meter m).phase i, position := 0 })).backward m :=
        (if_neg (by rw [if_neg hp, hc]; decide)).trans (if_pos (by rw [if_neg hp, hc]; rfl))
      rw [he, hb, hq, State.updMeter_congr (g := fun c => { c with phase := pairBefore c.phase, position := 0 }) (by rw [pairFlip_before hp])]
  · have he : exec (.reversePulse m) s
        = .next (publish s ((s.updMeter m (fun c => { c with phase := pairBefore c.phase, position := 0 })).backward m)) := event_decoded hs hd
    rw [State.backward_pending (by simpa using hp), State.updMeter_updMeter] at he
    have hmin : min 65535 ((s.meter m).pendingRev + 1) = (s.meter m).pendingRev + 1 := by omega
    refine exec_channel he ?_
    simp only [Channel.pulseTaken, hmin]
  · have he : exec (.forwardPulse m) s
        = .next (publish s ((s.updMeter m (fun c => { c with phase := pairAfter c.phase, position := 0 })).forward m)) := event_decoded hs hd
    rw [State.forward_cancels (by simpa using hp), State.updMeter_updMeter] at he
    exact exec_channel he rfl
  · have he : exec (.illegalTransition m) s = .next (publish s (s.illegal m)) := event_decoded hs hd
    rw [State.illegal_counted hi] at he
    have hmin : min 255 ((s.meter m).illegal + 1) = (s.meter m).illegal + 1 := by omega
    refine exec_channel he ?_
    simp only [hmin]

end Sys2Proof.Machine
end

section
/-! PROOFS. The valve and blend driver: the period boundary, the end of a pull-in, the blend interval. -/

namespace Sys2Proof.Machine

/-- What a period boundary does to a valve, by its state and its count (R56). -/
theorem ValveDrive.boundary_eq (slow : Bool) (x : ValveDrive) : x.boundary slow = match x.state, x.pullIn with
    | .closed, _ => { x with applied := 0 }
    | .pullIn, k + 1 => { x with applied := 255, pullIn := k }
    | .pullIn, 0 => if slow then { x with state := .openSlow, applied := slowDuty x.commanded } else { x with state := .opened, applied := x.commanded }
    | .opened, _ => { x with applied := x.commanded }
    | .openSlow, _ => { x with applied := slowDuty x.commanded } := by
  obtain ⟨st, c, a, k⟩ := x
  cases st with
  | pullIn =>
    cases k with
    | zero => cases slow <;> rfl
    | succ k => rfl
  | closed | opened | openSlow => rfl

/-- A period boundary while the outputs are enabled (R55, R56). -/
theorem State.boundary_on {s : State} (h : s.pw.drives = true) :
    s.boundary = (s.updValveSide .a (fun x => { x with valves := x.valves.map (ValveDrive.boundary x.slow) })).updValveSide .b
      (fun x => { x with valves := x.valves.map (ValveDrive.boundary x.slow) }) := if_pos h

theorem State.boundary_valve {s : State} (h : s.pw.drives = true) (v : Meter) :
    s.boundary.valve v = (s.valve v).boundary (s.vlv.get v.side).slow := by
  rw [State.boundary_on h]
  obtain ⟨d, p⟩ := v
  cases d <;> exact Three.get_map _ _ _

theorem State.updValve_valve_ne (s : State) {v w : Meter} (f : ValveDrive → ValveDrive) (h : w ≠ v) : (s.updValve v f).valve w = s.valve w := by
  obtain ⟨d, p⟩ := v
  obtain ⟨e, q⟩ := w
  cases d <;> cases e <;> cases p <;> cases q <;> first | rfl | exact absurd rfl h

theorem State.updValve_slow_blend (s : State) (v : Meter) (f : ValveDrive → ValveDrive) (d : Side) :
    ((s.updValve v f).vlv.get d).slow = (s.vlv.get d).slow ∧ ((s.updValve v f).vlv.get d).blend = (s.vlv.get d).blend := by
  obtain ⟨e, p⟩ := v
  cases d <;> cases e <;> exact ⟨rfl, rfl⟩

/-- Settles O25, valve by valve. -/
theorem periodBoundariesApplyTheDuty : Obligations.PeriodBoundariesApplyTheDuty := by
  intro s hs hd
  refine ⟨⟨publish s s.boundary, event_steady hs, fun v => ?_, fun d => ?_, ?_⟩, fun v hp hk => ?_⟩
  · rw [publish_valve, State.boundary_valve hd, ValveDrive.boundary_eq]
    rfl
  · rw [State.boundary_on hd]
    cases d <;> exact ⟨rfl, rfl⟩
  · rw [State.boundary_on hd]
    rfl
  · have hv : s.pullInEnd v = s.updValve v (fun x => { x.endPullIn (s.vlv.get v.side).slow with
        applied := (x.endPullIn (s.vlv.get v.side).slow).dutyOfState }) := if_pos ⟨hd, hp, hk⟩
    have he : exec (.pullInEnd v) s = .next (publish s (s.pullInEnd v)) := event_steady hs
    rw [hv] at he
    refine ⟨_, he, ?_, fun w hw => (publish_valve _ _ _).trans (State.updValve_valve_ne s _ hw),
      fun d => by rw [publish_vlv]; exact State.updValve_slow_blend s v _ d, rfl⟩
    rw [publish_valve, State.updValve_valve]
    cases (s.vlv.get v.side).slow <;> rfl

/-! ## The blend interval -/

theorem clampInt_eq (lo hi v : Int) (h : lo ≤ hi) : clampInt lo hi v = max lo (min hi v) := by
  unfold clampInt
  split
  · omega
  · split <;> omega

theorem blendStep_eq (error : Int) : blendStep error = max (-16) (min 16 (error.tdiv 4)) := clampInt_eq _ _ _ (by decide)

theorem stepDuty_eq (dutyH : Nat) (step : Int) : stepDuty dutyH step = (max 0 (min 255 ((dutyH : Int) + step))).toNat :=
  congrArg Int.toNat (clampInt_eq _ _ _ (by decide))

end Sys2Proof.Machine
end

section
/-! PROOFS. The end of a sale as a step shows it: its frame, and a cause of class LOCK that meets no fault of the other side. -/

namespace Sys2Proof.Machine

/-- Two states agree when each field does. -/
theorem State.ext_fields {t u : State} (pending : t.pending = u.pending) (readBack : t.readBack = u.readBack)
    (free : t.free = u.free) (pw : t.pw = u.pw) (rtc : t.rtc = u.rtc) (ret : t.ret = u.ret)
    (port : t.port = u.port) (mem : t.mem = u.mem) (rev : t.rev = u.rev) (fp : t.fp = u.fp)
    (met : t.met = u.met) (vlv : t.vlv = u.vlv) (mot : t.mot = u.mot) (price : t.price = u.price)
    (disp : t.disp = u.disp) (rdr : t.rdr = u.rdr) (halt : t.halt = u.halt)
    (store : t.store = u.store) : t = u := by
  cases t
  cases u
  simp only at *
  subst_vars
  rfl

/-- What the end of a sale leaves alone (R21). -/
theorem State.endSale_frame (s : State) (d : Side) (c : Cause) : s.endSale d c = { s with
    fp := (s.endSale d c).fp, ret := (s.endSale d c).ret, vlv := (s.endSale d c).vlv, mot := (s.endSale d c).mot, met := (s.endSale d c).met
    port := (s.endSale d c).port, rev := (s.endSale d c).rev } := by
  apply State.ext_fields <;> simp

section ends
variable {s t u w : State} {d : Side} {f : FuelPoint} {c : Cause}

/-- The end of a sale does not speak of what lies outside the fueling points, sales, valves, motors and meters. -/
theorem State.SaleEnds.congr (h : s.SaleEnds t d f c) (hfp : u.fp = t.fp) (hret : u.ret = t.ret) (hvlv : u.vlv = t.vlv) (hmot : u.mot = t.mot)
    (hmet : u.met = t.met) : s.SaleEnds u d f c where
  fp := hfp.trans h.fp
  ret := hret.trans h.ret
  valves := hvlv.trans h.valves
  demand m := by rw [State.motor, hmot]; exact h.demand m
  motors l := (h.motors l).congr hmot
  meters p := by rw [State.meter, hmet]; exact h.meters p
  otherMet := by rw [hmet]; exact h.otherMet

theorem State.SaleEnds.publish (h : s.SaleEnds t d f c) (b : State) : s.SaleEnds (publish b t) d f c := h.congr rfl rfl rfl rfl rfl

theorem State.DemandDropped.from (h : w.DemandDropped t d) (hmot : s.mot = w.mot) (hst : s.store = w.store) : s.DemandDropped t d := by
  have hr (m : Product) : s.motor m = w.motor m := by rw [State.motor, hmot]; rfl
  have ha (m : Product) : s.aloneDemands d m = w.aloneDemands d m := by simp only [State.aloneDemands, hr]
  have hq : s.queueWithout d = w.queueWithout d := by simp only [State.queueWithout, hmot, ha]
  have hf : s.freeWithout d = w.freeWithout d := by simp only [State.freeWithout, hr, ha]
  have hstart : s.startTime = w.startTime := by simp only [State.startTime, State.copyField, hst]
  have hrun : s.runOnTime = w.runOnTime := by simp only [State.runOnTime, State.copyField, hst]
  refine ⟨by rw [hf, hq]; exact h.queue, fun m => ?_⟩
  rw [hf, hq, hr, ha, hstart, hrun]
  exact h.motors m

/-- The law of the drives reads mains, the device power state, the fueling-point states, the valves and the motors alone. -/
theorem State.DriveLaw.congr (l : s.DriveLaw) (hm : w.pw.mains = s.pw.mains) (hs : w.pw.state = s.pw.state) (hfp : ∀ d, w.fpState d = s.fpState d)
    (hv : ∀ v, w.valve v = s.valve v) (hmot : w.mot = s.mot) : w.DriveLaw := by
  have hmotor (m : Product) : w.motor m = s.motor m := by rw [State.motor, hmot]; rfl
  refine ⟨?_, fun d => ?_, fun v => ?_, ?_, hmot ▸ l.queueOnce, fun m => ?_, fun m n => ?_, ?_⟩
  · rw [hm, hs]; exact l.mainsAbsent
  · rw [hfp, hs]; exact l.liveActive d
  · rw [hv, hfp]; exact l.valves v
  · simp only [hs, hmotor]; exact l.motors
  · rw [hmot, hmotor]; exact l.queued m
  · rw [hmotor, hmotor]; exact l.oneStart m n
  · rw [show w.arbiterFree = s.arbiterFree by simp only [State.arbiterFree, hmot], hmot]; exact l.granted

/-- The valves of a side shut, its blend loop stopped. -/
def ValveSide.halted (v : ValveSide) : ValveSide := { v with valves := ⟨.shut, .shut, .shut⟩, blend := { v.blend with timer := none } }

/-- The end of a sale reads the fueling points, the sales, the valves, the motors, the meters and the drive settings alone. -/
theorem State.SaleEnds.fromLawful (h : w.SaleEnds t d f c) (hset : ∀ g, s.fp.set d g = w.fp.set d g) (hret : s.ret = w.ret)
    (hshut : s.vlv.set d (s.vlv.get d).halted = w.vlv.set d (w.vlv.get d).halted) (hlaw : s.DriveLaw → w.DriveLaw) (hmot : s.mot = w.mot)
    (hmet : s.met = w.met) (hst : s.store = w.store) : s.SaleEnds t d f c where
  fp := by rw [hset, State.sale, hret]; exact h.fp
  ret := by rw [State.sale, hret]; exact h.ret
  valves := h.valves.trans hshut.symm
  demand m := by rw [State.motor, State.motor, hmot]; exact h.demand m
  motors l := (h.motors (hlaw l)).from hmot hst
  meters p := by
    have hm : s.meter ⟨d, p⟩ = w.meter ⟨d, p⟩ := by rw [State.meter, hmet]; rfl
    rw [hm, State.sale, hret]; exact h.meters p
  otherMet := by rw [hmet]; exact h.otherMet

theorem State.SaleEnds.fromShut (h : w.SaleEnds t d f c) (hset : ∀ g, s.fp.set d g = w.fp.set d g) (hstate : ∀ e, w.fpState e = s.fpState e)
    (hret : s.ret = w.ret) (hshut : s.vlv.set d (s.vlv.get d).halted = w.vlv.set d (w.vlv.get d).halted) (hv : ∀ v, w.valve v = s.valve v)
    (hmot : s.mot = w.mot) (hmet : s.met = w.met) (hpw : s.pw = w.pw) (hst : s.store = w.store) : s.SaleEnds t d f c :=
  h.fromLawful hset hret hshut (fun l => l.congr (by rw [hpw]) (by rw [hpw]) hstate hv hmot.symm) hmot hmet hst

theorem State.SaleEnds.from (h : w.SaleEnds t d f c) (hfp : s.fp = w.fp) (hret : s.ret = w.ret) (hvlv : s.vlv = w.vlv) (hmot : s.mot = w.mot)
    (hmet : s.met = w.met) (hpw : s.pw = w.pw) (hst : s.store = w.store) : s.SaleEnds t d f c :=
  h.fromShut (fun g => by rw [hfp]) (fun e => by rw [State.fpState, State.fpState, hfp]) hret (by rw [hvlv])
      (fun v => by rw [State.valve, State.valve, hvlv]) hmot hmet hpw hst

end ends

/-! ## A cause of class LOCK while the other side has not faulted (R139, R141) -/

/-- A side that is neither LOCKED nor SETTLING gives no pair to a report of the other side. -/
theorem State.lockPair_none {s : State} {o : Side} (hl : s.fpState o ≠ .locked) (hs : s.fpState o ≠ .settling) : s.lockPair o = none := by
  unfold State.lockPair
  split
  · exact absurd ‹_› hl
  · exact absurd ‹_› hs
  · rfl

theorem State.reportLock_alone {s : State} {d : Side} (hl : s.fpState d.other ≠ .locked) (hs : s.fpState d.other ≠ .settling) (c : Cause) :
    s.reportLock d c = s := by
  unfold State.reportLock
  rw [State.lockPair_none hl hs]

theorem Side.other_ne (d : Side) : d.other ≠ d := by cases d <;> decide

/-- A cause that reaches a sale in STARTING, FUELING or PAUSED ends it, and no more while the other side has not faulted (R21, R141). -/
theorem State.takeCause_endsAlone {s : State} {d : Side} (h : (s.fpState d).endable = true) (hl : s.fpState d.other ≠ .locked)
    (hs : s.fpState d.other ≠ .settling) (c : Cause) : s.takeCause d c = s.endSale d c := by
  have ho : (s.endSale d c).fpState d.other = s.fpState d.other := by rw [State.endSale_fpState, if_neg d.other_ne]
  have hr : (s.endSale d c).reportLock d c = s.endSale d c := State.reportLock_alone (ho ▸ hl) (ho ▸ hs) c
  unfold State.takeCause
  dsimp only
  rw [hr, ite_self]
  revert h
  cases s.fpState d <;> simp [FpState.endable]

/-- A cause of class LOCK in SETTLING replaces an END or STOP cause, and no more while the other side has not faulted (R23, R141). -/
theorem State.takeCause_replaces {s : State} {d : Side} {c e : Cause} (hc : c.isLock = true) (hd : s.fpState d = .settling)
    (he : (s.sale d).endCause = some e) (hel : e.isLock = false) (hl : s.fpState d.other ≠ .locked) (hs : s.fpState d.other ≠ .settling) :
    s.takeCause d c = s.updSale d [.endCause, .firstCause] (Sale.replaceCause c) := by
  have hr := State.reportLock_alone (s := s.updSale d [.endCause, .firstCause] (Sale.replaceCause c)) (d := d) hl hs c
  unfold State.takeCause State.settlingLock
  simp only [hd, hc, he, hel, if_true, hr]
  rfl

theorem FpState.endable_ne_settling {st : FpState} (h : st.endable = true) : st ≠ .settling := by
  rintro rfl
  cases h

/-- The step that ends a sale, from a state `x` of its event with the sale as it stood (R21). -/
theorem State.endsIn {s x : State} {d : Side} {o : Host.Outcome State Fault Refusal} (c : Cause) (he : o = .next (publish s (x.endSale d c)))
    (hd : x.fpState d ≠ .settling) : ∃ t, o = .next t ∧ x.SaleEnds t d (x.fp.get d) c
      ∧ t.port = { x.port with attn := x.port.attn ||| (fpFlag d).mask }
      ∧ t = { x with fp := t.fp, ret := t.ret, vlv := t.vlv, mot := t.mot, met := t.met, port := t.port, rev := t.rev } := by
  refine ⟨_, he, (State.endSale_ends x d c hd).publish s, State.endSale_port x d c hd, ?_⟩
  rw [publish]
  exact congrArg (fun y : State => { y with rev := nextRevisions s (x.endSale d c) }) (State.endSale_frame x d c)

end Sys2Proof.Machine
end

section
/-! PROOFS. STOP, the hang of the active hose, the sale timers and the blend interval: the events that end a sale with a cause of their own. -/

namespace Sys2Proof.Machine

/-- The flags of a list of one. -/
theorem flagsOf_one (f : Attn) : flagsOf [f] = f.mask := by simp

/-! ## The hang and the timers (R6, R16, R17, R19) -/

/-- The hang of the active hose ends the sale (R6). -/
theorem State.hangHose_ends {s : State} {d : Side} (hd : (s.fpState d).endable = true) (hl : ((s.fp.get d).lift (s.sale d).hose).isSome = true) :
    s.hangHose d (s.sale d).hose = (s.updFp d (fun f => f.hung (s.sale d).hose)).endSale d .nozzleHung := by
  have hlift : ¬ ((s.fp.get d).lift (s.sale d).hose).isNone = true := by simpa [Option.isSome_iff_ne_none] using hl
  have hst : (s.updFp d (fun f => f.hung (s.sale d).hose)).fpState d = s.fpState d := by
    rw [State.fpState_updFp, if_pos rfl, FuelPoint.hung_state]
    rfl
  have hend := State.takeCause_ends (s := s.updFp d (fun f => f.hung (s.sale d).hose)) (c := .nozzleHung) (hst ▸ hd) rfl
  unfold State.hangHose
  rw [if_neg hlift]
  dsimp only
  rw [if_pos rfl, hend]
  revert hd
  cases s.fpState d <;> simp [FpState.endable]

theorem State.saleTimeout_ends {s : State} {d : Side} {st : FpState} {t : Timer} {c : Cause} (hd : s.fpState d = st) (he : st.endable = true)
    (ht : t.isSome = true) (hc : c.isLock = false) : s.saleTimeout d st t c = s.endSale d c := by
  rw [State.saleTimeout, if_pos ⟨hd, ht⟩, State.takeCause_ends (by rw [hd, he]) hc]

/-- A step that ends the sale of a side as the step found it. -/
theorem State.endsNow {s : State} {d : Side} {o : Host.Outcome State Fault Refusal} (c : Cause) (he : o = .next (publish s (s.endSale d c)))
    (hd : (s.fpState d).endable = true) : ∃ t, o = .next t
      ∧ (t.port = { s.port with attn := s.port.attn ||| flagsOf [fpFlag d] }
        ∧ t = { s with fp := t.fp, ret := t.ret, vlv := t.vlv, mot := t.mot, met := t.met, port := t.port, rev := t.rev })
      ∧ s.SaleEnds t d (s.fp.get d) c := by
  obtain ⟨t, ht, hends, hport, hframe⟩ := State.endsIn c he (FpState.endable_ne_settling hd)
  exact ⟨t, ht, ⟨by rw [hport, flagsOf_one], hframe⟩, hends⟩

/-- Settles O12: each of the four events is the end of the sale with its cause. -/
theorem hangAndTimersEndASale : Obligations.HangAndTimersEndASale := by
  intro s d hs
  refine ⟨fun hd hl => ?_, fun hd ht => ?_, fun hd ht => ?_, fun hd ht => ?_⟩
  · have he : exec (.hoseHang d (s.sale d).hose) s = .next (publish s (s.hangHose d (s.sale d).hose)) :=
      event_steady (f := fun x => x.hangHose d (s.sale d).hose) hs
    have hst (e : Side) : (s.updFp d (fun f => f.hung (s.sale d).hose)).fpState e = s.fpState e := by
      rw [State.fpState_updFp, FuelPoint.hung_state]
      split
      · rename_i h
        rw [h]
        rfl
      · rfl
    rw [State.hangHose_ends hd hl] at he
    obtain ⟨t, ht, hends, hport, hframe⟩ := State.endsIn .nozzleHung he (by rw [hst]; exact FpState.endable_ne_settling hd)
    refine ⟨t, ht, ⟨by rw [hport, flagsOf_one]; rfl, hframe⟩, ?_⟩
    have hfp : (s.updFp d (fun f => f.hung (s.sale d).hose)).fp.get d = (s.fp.get d).hung (s.sale d).hose := by simp
    rw [hfp] at hends
    exact hends.fromShut (fun g => by simp) hst rfl rfl (fun _ => rfl) rfl rfl rfl rfl
  · have he : exec (.startTimeout d) s = .next (publish s (s.saleTimeout d .starting (s.fp.get d).start .startTimeout)) := event_steady hs
    rw [State.saleTimeout_ends hd rfl ht rfl] at he
    exact State.endsNow _ he (hd ▸ rfl)
  · have he : exec (.noFlowTimeout d) s = .next (publish s (s.saleTimeout d .fueling (s.fp.get d).noFlow .noFlow)) := event_steady hs
    rw [State.saleTimeout_ends hd rfl ht rfl] at he
    exact State.endsNow _ he (hd ▸ rfl)
  · have he : exec (.pauseTimeout d) s = .next (publish s (s.saleTimeout d .paused (s.fp.get d).pause .pauseTimeout)) := event_steady hs
    rw [State.saleTimeout_ends hd rfl ht rfl] at he
    exact State.endsNow _ he (hd ▸ rfl)

/-! ## STOP (R22) -/

theorem State.Offers.exec_stop {s : State} {n : Nat} {d : Side} (h : s.Offers .stop n (sideCode d)) :
    exec .stop s = .next (publish s ((s.takeSlot n).1.orderStop (s.takeSlot n).2 d)) := h.sideEvent State.orderStop

/-- An order that its owner turns away at once: the answer, and nothing else. -/
theorem State.Offers.turnedAway {s : State} {k : OrderKind} {n target : Nat} (h : s.Offers k n target) {o : Host.Outcome State Fault Refusal}
    {code : ResultCode} {detail : Nat} (he : o = .next (publish s ((s.takeSlot n).1.complete (s.takeSlot n).2.ref code detail))) :
    ∃ t, o = .next t ∧ s.Answered t n code detail [] ∧ t = { s with mem := t.mem, port := t.port, rev := t.rev } :=
  ⟨_, he, h.completed_alone code detail⟩

/-- An operation on a fueling point in ACTIVE, and in HALTED its answer. -/
theorem State.unlessHalted_active {s : State} (h : s.pw.state ≠ .halted) (o : Order) (act : State → State) : s.unlessHalted o act = act s := if_neg h

theorem State.unlessHalted_halted {s : State} (h : s.pw.state = .halted) (o : Order) (act : State → State) :
    s.unlessHalted o act = s.complete o.ref .unavailable Reason.halted.code := if_pos h

theorem State.orderStop_halted {s : State} {o : Order} {d : Side} (hh : s.pw.state = .halted) :
    s.orderStop o d = s.complete o.ref .unavailable Reason.halted.code := State.unlessHalted_halted hh _ _

theorem State.orderStop_ends {s : State} {o : Order} {d : Side} (ha : s.pw.state = .active) (hd : (s.fpState d).endable = true) :
    s.orderStop o d = (s.endSale d .hostStop).complete o.ref .ok 0 := by
  rw [State.orderStop, State.unlessHalted_active (by simp [ha]), State.takeCause_ends hd rfl]
  revert hd
  cases s.fpState d <;> simp [FpState.endable]

theorem State.orderStop_settling {s : State} {o : Order} {d : Side} (ha : s.pw.state = .active) (hd : s.fpState d = .settling) :
    s.orderStop o d = s.complete o.ref .ok 0x106 := by
  rw [State.orderStop, State.unlessHalted_active (by simp [ha]), hd]
  rfl

theorem State.orderStop_noSale {s : State} {o : Order} {d : Side} (ha : s.pw.state = .active) (hd : (s.fpState d).inSale = false) :
    s.orderStop o d = s.complete o.ref .ok 0x105 := by
  rw [State.orderStop, State.unlessHalted_active (by simp [ha])]
  revert hd
  cases s.fpState d <;> simp [FpState.inSale] <;> rfl

/-- An order taken in this event that ends the sale of its side and is answered OK. -/
theorem State.Offers.ended {s : State} {k : OrderKind} {n target : Nat} (h : s.Offers k n target) {d : Side} {c : Cause}
    (hd : (s.fpState d).endable = true) :
    let t := publish s (((s.takeSlot n).1.endSale d c).complete (s.takeSlot n).2.ref .ok 0)
    s.Answered t n .ok 0 [fpFlag d] ∧ s.SaleEnds t d (s.fp.get d) c
      ∧ t = { s with fp := t.fp, ret := t.ret, vlv := t.vlv, mot := t.mot, met := t.met, mem := t.mem, port := t.port, rev := t.rev } := by
  have hns : (s.takeSlot n).1.fpState d ≠ .settling := FpState.endable_ne_settling hd
  refine ⟨h.answeredNow s .ok 0 [fpFlag d] (by simp) ?_, ?_, ?_⟩
  · rw [State.endSale_port _ d c hns, flagsOf_one]
    rfl
  · have hends := State.endSale_ends (s.takeSlot n).1 d c hns
    exact (hends.congr (by simp) (by simp) (by simp) (by simp) (by simp)).from rfl rfl rfl rfl rfl rfl rfl
  · apply State.ext_fields <;> simp

/-- Settles O11, by the state of the fueling point. -/
theorem stopFollowsTheState : Obligations.StopFollowsTheState := by
  intro s n d h
  refine ⟨fun hh => ?_, fun ha hd => ?_, fun ha hd => ?_, fun ha hd => ?_⟩
  · have ho := State.orderStop_halted (s := (s.takeSlot n).1) (o := (s.takeSlot n).2) (d := d) hh
    exact h.turnedAway (ho ▸ h.exec_stop)
  · have ho := State.orderStop_settling (s := (s.takeSlot n).1) (o := (s.takeSlot n).2) ha hd
    exact h.turnedAway (ho ▸ h.exec_stop)
  · have ho := State.orderStop_noSale (s := (s.takeSlot n).1) (o := (s.takeSlot n).2) ha hd
    exact h.turnedAway (ho ▸ h.exec_stop)
  · have ho := State.orderStop_ends (s := (s.takeSlot n).1) (o := (s.takeSlot n).2) ha hd
    exact ⟨_, ho ▸ h.exec_stop, h.ended hd⟩

end Sys2Proof.Machine
end

section
/-! PROOFS. The blend interval. -/

namespace Sys2Proof.Machine

section interval
variable {s : State} {d : Side} (hd : s.fpState d = .fueling) (ht : (s.vlv.get d).blend.timer.isSome = true)
include hd ht

theorem State.blendExpiry_running : ¬ ((s.vlv.get d).blend.timer.isNone = true ∨ s.fpState d ≠ .fueling) := by
  cases h : (s.vlv.get d).blend.timer <;> simp_all

/-- In slow flow and below 50 cL the interval starts again and the loop stands (R64). -/
theorem State.blendExpiry_idle (h : (s.vlv.get d).slow = true ∨ (s.sale d).volume < 50) :
    s.blendExpiry d = s.updBlend d (fun b => { b with timer := some 200 }) := by
  rw [State.blendExpiry, if_neg (State.blendExpiry_running hd ht), if_pos h]

/-- The error of the sale's products under the loop's share. -/
def State.loopError (s : State) (d : Side) : Int := blendError (s.vlv.get d).blend.share (s.sale d).products.p1 (s.sale d).products.p2

/-- The consecutive count after it. -/
def State.loopCount (s : State) (d : Side) : Nat := blendCount (s.sale d).volume (s.loopError d) (s.vlv.get d).blend.count

/-- The loop with the error and the count taken. -/
def State.loopTaken (s : State) (d : Side) : State :=
  (s.updBlend d (fun b => { b with timer := some 200 })).updBlend d (fun b => { b with lastError := s.loopError d, count := s.loopCount d })

/-- Otherwise the error and the count are taken, and the loop corrects its duties or faults (R64, R65). -/
theorem State.blendExpiry_taken (hs : (s.vlv.get d).slow = false) (hv : 50 ≤ (s.sale d).volume) :
    s.blendExpiry d = if 5 ≤ s.loopCount d then (s.loopTaken d).takeCause d .blendFault else (s.loopTaken d).correctBlend d (s.loopError d) := by
  have h : ¬ ((s.vlv.get d).slow = true ∨ (s.sale d).volume < 50) := by
    rw [hs]
    rintro (h | h)
    · cases h
    · omega
  rw [State.blendExpiry, if_neg (State.blendExpiry_running hd ht), if_neg h]
  rfl

end interval

/-- Settles O26, by the branch that the expiry takes. -/
theorem blendLoopsCorrectTheShare : Obligations.BlendLoopsCorrectTheShare := by
  intro s d hs hd ht
  have he : exec (.blendIntervalExpiry d) s = .next (publish s (s.blendExpiry d)) := event_steady (f := fun x => x.blendExpiry d) hs
  dsimp only
  refine ⟨fun h => ?_, fun hslow hv hn => ?_, fun hslow hv hn _ hl hset => ?_⟩
  · rw [State.blendExpiry_idle hd ht h] at he
    exact ⟨_, he, rfl, rfl⟩
  · have hcount : ¬ 5 ≤ s.loopCount d := Nat.not_le.mpr hn
    rw [State.blendExpiry_taken hd ht hslow hv, if_neg hcount] at he
    refine ⟨_, he, ?_, rfl⟩
    simp only [State.correctBlend, State.loopTaken, publish_vlv, State.updValveSide_vlv, State.updBlend_vlv, Sides.get_set_same, Sides.set_set,
      stepDuty_eq, blendStep_eq]
    rfl
  · have hcount : 5 ≤ s.loopCount d := hn
    have hst : (s.loopTaken d).fpState d = .fueling := hd
    rw [State.blendExpiry_taken hd ht hslow hv, if_pos hcount, State.takeCause_endsAlone (s := s.loopTaken d) (by rw [hst]; rfl) hl hset] at he
    obtain ⟨t, het, hends, hport, hframe⟩ := State.endsIn .blendFault he (by rw [hst]; decide)
    refine ⟨t, het, hends.fromShut (fun _ => rfl) (fun _ => rfl) rfl ?_ ?_ rfl rfl rfl rfl, by rw [hport, flagsOf_one]; rfl, hframe⟩
    · simp only [ValveSide.halted, State.loopTaken, State.updBlend_vlv, Sides.get_set_same, Sides.set_set]
      rfl
    · intro v
      rw [State.valve, State.valve]
      obtain ⟨e, p⟩ := v
      cases d <;> cases e <;> rfl

end Sys2Proof.Machine
end

section
/-! PROOFS. Motor start, run-on, trip release and MOTOR_CLEAR. -/

namespace Sys2Proof.Machine

/-! ## A flag leaves the units alone -/

@[simp] theorem State.attn_fpState (s : State) (f : Attn) (d : Side) : (s.attn f).fpState d = s.fpState d := rfl
@[simp] theorem State.attn_sale (s : State) (f : Attn) (d : Side) : (s.attn f).sale d = s.sale d := rfl
@[simp] theorem State.attn_meter (s : State) (f : Attn) (m : Meter) : (s.attn f).meter m = s.meter m := rfl
@[simp] theorem State.attn_valve (s : State) (f : Attn) (v : Meter) : (s.attn f).valve v = s.valve v := rfl
@[simp] theorem State.attn_motor (s : State) (f : Attn) (m : Product) : (s.attn f).motor m = s.motor m := rfl
@[simp] theorem State.attn_head (s : State) (f : Attn) (r : Role) : (s.attn f).head r = s.head r := rfl

/-! ## An update of a fueling point leaves the other units alone -/

section updates
variable (s : State) (d : Side) (f : FuelPoint → FuelPoint)

@[simp] theorem State.updFp_sale (e : Side) : (s.updFp d f).sale e = s.sale e := rfl
@[simp] theorem State.updFp_meter (m : Meter) : (s.updFp d f).meter m = s.meter m := rfl
@[simp] theorem State.updFp_valve (v : Meter) : (s.updFp d f).valve v = s.valve v := rfl
@[simp] theorem State.updFp_motor (m : Product) : (s.updFp d f).motor m = s.motor m := rfl
@[simp] theorem State.updFp_head (r : Role) : (s.updFp d f).head r = s.head r := rfl

end updates

/-! ## A completion leaves the units alone -/

section completes
variable (s : State) (r : OrderRef) (c : ResultCode) (n : Nat)

@[simp] theorem State.complete_fpState (d : Side) : (s.complete r c n).fpState d = s.fpState d := by rw [State.fpState, State.complete_fp]; rfl
@[simp] theorem State.complete_sale (d : Side) : (s.complete r c n).sale d = s.sale d := by rw [State.sale, State.complete_ret]; rfl
@[simp] theorem State.complete_meter (m : Meter) : (s.complete r c n).meter m = s.meter m := by rw [State.meter, State.complete_met]; rfl
@[simp] theorem State.complete_valve (v : Meter) : (s.complete r c n).valve v = s.valve v := by rw [State.valve, State.complete_vlv]; rfl
@[simp] theorem State.complete_motor (m : Product) : (s.complete r c n).motor m = s.motor m := by rw [State.motor, State.complete_mot]; rfl
@[simp] theorem State.complete_head (q : Role) : (s.complete r c n).head q = s.head q := by rw [State.head, State.complete_disp]; rfl

end completes

/-! ## The arbiter and the gates where little waits -/

/-- With no side in STARTING no gate is tested (R14, R15). -/
theorem State.evalStarting_idle {s : State} {d : Side} (h : s.fpState d ≠ .starting) : s.evalStarting d = s := by
  rw [State.evalStarting, if_neg fun hs => h hs.1]

theorem State.evalBoth_idle {s : State} (h : ∀ d, s.fpState d ≠ .starting) : s.evalBoth = s := by
  rw [State.evalBoth, State.evalStarting_idle (h .a), State.evalStarting_idle (h .b)]

/-- A grant with the arbiter free changes the motors and the start queue alone. -/
theorem State.grant_frame (s : State) : s.grant = { s with mot := s.grant.mot } := by
  apply State.ext_fields <;> simp

/-- A motor that joins the queue while another is STARTING waits there (R68, R69). -/
theorem State.joinQueue_waits {s : State} {m q : Product} (hq : (s.motor q).state = .starting) (hne : q ≠ m) :
    s.joinQueue m = (s.updMotor m (fun r => { r with state := .queued })).setStartQueue (s.mot.queue ++ [m]) :=
  State.grant_busy_eq _ q (by rw [State.setStartQueue_motor, State.updMotor_motor_ne _ _ hne]; exact hq)

/-- A motor that joins an empty queue with the arbiter free starts at once (R69). -/
theorem State.joinQueue_starts {s : State} {m : Product} (hf : s.arbiterFree = true) (hq : s.mot.queue = []) :
    (s.joinQueue m).mot.queue = [] ∧ (s.joinQueue m).motor m = { s.motor m with state := .starting, timer := some s.startTime }
      ∧ ∀ q, q ≠ m → (s.joinQueue m).motor q = s.motor q := by
  have hfree := (State.arbiterFree_iff s).mp hf
  obtain ⟨hqueue, hmotor⟩ := State.grant_free_eq
    ((s.updMotor m (fun r => { r with state := .queued })).setStartQueue (s.mot.queue ++ [m])) fun q => by
      rw [State.setStartQueue_motor, State.motor_updMotor]
      split
      · nofun
      · exact hfree q
  refine ⟨hqueue.trans (by rw [hq]; rfl), (hmotor m).trans ?_, fun q hne => (hmotor q).trans ?_⟩
  · rw [if_pos (by simp [hq]), State.setStartQueue_motor, State.updMotor_motor]
    rfl
  · rw [if_neg (by simpa [hq] using fun h => hne h.symm), State.setStartQueue_motor, State.updMotor_motor_ne _ _ hne]

theorem demandCount_eq_zero {x : Sides Bool} : demandCount x = 0 ↔ x = ⟨false, false⟩ := by
  obtain ⟨a, b⟩ := x
  cases a <;> cases b <;> decide

/-! ## MOTOR_CLEAR (R75) -/

theorem motorOfTarget_code (m : Product) : motorOfTarget (0x10 + motorCode m) = some m := by cases m <;> rfl

theorem State.Offers.exec_motorClear {s : State} {n target : Nat} (h : s.Offers .motorClear n target) :
    exec .motorClear s = .next (publish s ((s.takeSlot n).1.orderMotorClear (s.takeSlot n).2)) := h.orderEvent State.orderMotorClear

section clears
variable {s : State} {o : Order} {m : Product} (ht : o.target = 0x10 + motorCode m)
include ht

theorem State.orderMotorClear_halted (hh : s.pw.state = .halted) : s.orderMotorClear o = s.complete o.ref .unavailable 0 := by
  rw [State.orderMotorClear, ht, motorOfTarget_code]
  exact if_pos hh

variable (ha : s.pw.state = .active)
include ha

theorem State.orderMotorClear_noFault (hm : (s.motor m).state ≠ .fault) :
    s.orderMotorClear o = s.complete o.ref .wrongState (motorDetail (s.motor m).state) := by
  rw [State.orderMotorClear, ht, motorOfTarget_code]
  exact (if_neg (by simp [ha])).trans (if_pos hm)

theorem State.orderMotorClear_tripped (hm : (s.motor m).state = .fault) (htrip : (s.motor m).trip = true) :
    s.orderMotorClear o = s.complete o.ref .causePresent 0 := by
  rw [State.orderMotorClear, ht, motorOfTarget_code]
  exact (if_neg (by simp [ha])).trans ((if_neg (by simp [hm])).trans (if_pos htrip))

theorem State.orderMotorClear_clears (hm : (s.motor m).state = .fault) (htrip : (s.motor m).trip = false) :
    s.orderMotorClear o = (s.clearMotor m).complete o.ref .ok 0 := by
  rw [State.orderMotorClear, ht, motorOfTarget_code]
  exact (if_neg (by simp [ha])).trans ((if_neg (by simp [hm])).trans (if_neg (by simp [htrip])))

end clears

section cleared
variable {s : State} {m : Product} (hfp : ∀ d, s.fpState d ≠ .starting)
include hfp

/-- A cleared motor that no side demands is OFF. -/
theorem State.clearMotor_off (hd : (s.motor m).demand = ⟨false, false⟩) :
    s.clearMotor m = (s.updMotor m (fun r => { r with state := .off })).attn .motor := by
  rw [State.clearMotor, if_neg fun h => h.1 (demandCount_eq_zero.mpr hd)]
  exact State.evalBoth_idle hfp

/-- A cleared motor that is demanded joins the start queue. -/
theorem State.clearMotor_joins (ha : s.pw.state = .active) (hd : (s.motor m).demand ≠ ⟨false, false⟩) :
    s.clearMotor m = ((s.updMotor m (fun r => { r with state := .off })).attn .motor).joinQueue m := by
  rw [State.clearMotor, if_pos ⟨fun h => hd (demandCount_eq_zero.mp h), ha⟩]
  exact State.evalBoth_idle fun d => by rw [State.fpState, State.joinQueue_fp]; exact hfp d

/-- What the clearing of a motor leaves alone, whether it is demanded or not. -/
theorem State.clearMotor_frame (ha : s.pw.state = .active) :
    s.clearMotor m = { s with mot := (s.clearMotor m).mot, port := (s.clearMotor m).port }
      ∧ (s.clearMotor m).port = { s.port with attn := s.port.attn ||| Attn.motor.mask } := by
  by_cases hd : (s.motor m).demand = ⟨false, false⟩
  · rw [State.clearMotor_off hfp hd]
    exact ⟨rfl, rfl⟩
  · rw [State.clearMotor_joins hfp ha hd]
    exact ⟨by apply State.ext_fields <;> simp, by simp⟩

end cleared

/-- MOTOR_CLEAR with its tests passed and no sale in STARTING (R75). -/
theorem State.Offers.motorClears {s : State} {n target : Nat} {m : Product} (h : s.Offers .motorClear n target) (ha : s.pw.state = .active)
    (hfault : (s.motor m).state = .fault) (hfp : ∀ d, s.fpState d ≠ .starting) :
    let t := publish s (((s.takeSlot n).1.clearMotor m).complete (s.takeSlot n).2.ref .ok 0)
    s.Answered t n .ok 0 [.motor]
      ∧ ((s.motor m).demand = ⟨false, false⟩ → t.motor m = { s.motor m with state := .off } ∧ t.mot.queue = s.mot.queue
          ∧ ∀ q, q ≠ m → t.motor q = s.motor q)
      ∧ ((s.motor m).demand ≠ ⟨false, false⟩ → s.arbiterFree = false →
          t.motor m = { s.motor m with state := .queued } ∧ t.mot.queue = s.mot.queue ++ [m] ∧ ∀ q, q ≠ m → t.motor q = s.motor q)
      ∧ ((s.motor m).demand ≠ ⟨false, false⟩ → s.arbiterFree = true → s.mot.queue = [] →
          t.motor m = { s.motor m with state := .starting, timer := some s.startTime } ∧ t.mot.queue = []
          ∧ ∀ q, q ≠ m → t.motor q = s.motor q)
      ∧ t = { s with mot := t.mot, mem := t.mem, port := t.port, rev := t.rev } := by
  intro t
  obtain ⟨hframe, hport⟩ := State.clearMotor_frame (s := (s.takeSlot n).1) (m := m) hfp ha
  have hmot : t.mot = ((s.takeSlot n).1.clearMotor m).mot := by simp [t]
  have hmotor (q : Product) : t.motor q = ((s.takeSlot n).1.clearMotor m).motor q := by rw [State.motor, hmot]; rfl
  refine ⟨h.answeredNow s .ok 0 [.motor] (by rw [hframe]) (by rw [hport, flagsOf_one]; rfl), fun hd => ?_, fun hd hf => ?_, fun hd hf hq => ?_, ?_⟩
  · simp only [hmot, hmotor]
    rw [State.clearMotor_off (s := (s.takeSlot n).1) hfp hd]
    exact ⟨by simp, rfl, fun q hne => by simp [State.updMotor_motor_ne _ _ hne]⟩
  · simp only [hmot, hmotor]
    rw [State.clearMotor_joins (s := (s.takeSlot n).1) hfp ha hd]
    obtain ⟨q, hq⟩ : ∃ q, (s.motor q).state = .starting := by
      by_contra hno
      rw [(State.arbiterFree_iff s).mpr fun q hq => hno ⟨q, hq⟩] at hf
      cases hf
    have hne : q ≠ m := by
      rintro rfl
      rw [hfault] at hq
      cases hq
    rw [State.joinQueue_waits (q := q) (by rw [State.attn_motor, State.updMotor_motor_ne _ _ hne]; exact hq) hne]
    refine ⟨?_, rfl, fun r hr => ?_⟩
    · simp
    · simp [State.updMotor_motor_ne _ _ hr]
  · simp only [hmot, hmotor]
    rw [State.clearMotor_joins (s := (s.takeSlot n).1) hfp ha hd]
    have hfree : (((s.takeSlot n).1.updMotor m (fun r => { r with state := .off })).attn .motor).arbiterFree = true := by
      rw [State.arbiterFree_iff] at hf ⊢
      intro q
      rw [State.attn_motor, State.motor_updMotor]
      split
      · nofun
      · exact hf q
    obtain ⟨hqueue, hm, hrest⟩ := State.joinQueue_starts (m := m) hfree hq
    refine ⟨hm.trans ?_, hqueue, fun q hne => (hrest q hne).trans ?_⟩
    · rw [State.attn_motor, State.updMotor_motor]
      rfl
    · simp [State.updMotor_motor_ne _ _ hne]
  · apply State.ext_fields <;> first | with_reducible rfl | (simp [t]; rw [hframe]; rfl)

/-! ## The start timer, the run-on and the trip release (R70, R71, R72) -/

/-- A motor's start timer runs out while no sale waits in STARTING (R70). -/
theorem State.startExpiry_idle {s : State} {m : Product} (hm : (s.motor m).state = .starting) (ht : (s.motor m).timer.isSome = true)
    (hfp : ∀ d, s.fpState d ≠ .starting) : s.startExpiry m = (s.updMotor m (fun r => { r with state := .running, timer := none })).grant := by
  rw [State.startExpiry, if_pos ⟨hm, ht⟩, State.evalBoth_idle (s := s.updMotor m _) hfp]

/-- A step that updates one motor record. -/
theorem State.updMotor_step {s : State} {m : Product} {f : MotorRec → MotorRec} {o : Host.Outcome State Fault Refusal}
    (he : o = .next (publish s (s.updMotor m f))) : ∃ t, o = .next t ∧ t.motor m = f (s.motor m) ∧ (∀ q, q ≠ m → t.motor q = s.motor q)
      ∧ t.mot.queue = s.mot.queue ∧ t = { s with mot := t.mot, rev := t.rev } :=
  ⟨_, he, State.updMotor_motor s m f, fun _ hne => State.updMotor_motor_ne s f hne, rfl, rfl⟩

/-- Settles O27, command by command. -/
theorem motorsStartAndStop : Obligations.MotorsStartAndStop := by
  refine ⟨fun s m hs hm ht hone hfp hq => ?_, fun s m => ⟨fun hs hm ht => ?_, fun hs => ?_, fun n h => ⟨fun hh => ?_, fun ha hm => ?_, fun ha hm htrip => ?_, fun ha hm htrip hfp => ?_⟩⟩⟩
  · have he : exec (.motorStartExpiry m) s = .next (publish s (s.startExpiry m)) := event_steady (f := fun x => x.startExpiry m) hs
    rw [State.startExpiry_idle hm ht hfp] at he
    obtain ⟨hqueue, hmotor⟩ := State.grant_free_eq (s.updMotor m (fun r => { r with state := .running, timer := none })) fun q => by
      rw [State.motor_updMotor]
      split
      · nofun
      · exact hone q ‹_›
    have hhead : s.mot.queue.head? ≠ some m := fun h => hq (List.mem_of_mem_head? h)
    refine ⟨_, he, (hmotor m).trans ?_, fun q hne => (hmotor q).trans ?_, hqueue, ?_⟩
    · rw [State.updMotor_motor]
      exact if_neg hhead
    · rw [State.updMotor_motor_ne _ _ hne]
      rfl
    · rw [State.grant_frame]
      rfl
  · have he : exec (.runOnExpiry m) s = .next (publish s (s.updMotor m (fun r => { r with state := .off, timer := none }))) :=
      (event_steady hs).trans (by rw [if_pos ⟨hm, ht⟩])
    exact State.updMotor_step he
  · exact State.updMotor_step (event_steady (f := fun x => x.updMotor m (fun r => { r with trip := false })) hs)
  · have ho := State.orderMotorClear_halted (s := (s.takeSlot n).1) (o := (s.takeSlot n).2) h.target hh
    exact h.turnedAway (ho ▸ h.exec_motorClear)
  · have ho := State.orderMotorClear_noFault (s := (s.takeSlot n).1) (o := (s.takeSlot n).2) h.target ha hm
    exact h.turnedAway (ho ▸ h.exec_motorClear)
  · have ho := State.orderMotorClear_tripped (s := (s.takeSlot n).1) (o := (s.takeSlot n).2) h.target ha hm htrip
    exact h.turnedAway (ho ▸ h.exec_motorClear)
  · have ho := State.orderMotorClear_clears (s := (s.takeSlot n).1) (o := (s.takeSlot n).2) h.target ha hm htrip
    exact ⟨_, ho ▸ h.exec_motorClear, h.motorClears ha hm hfp⟩

end Sys2Proof.Machine
end

section
/-! PROOFS. The entry to FUELING, and the start expiry that meets the last gate. -/

namespace Sys2Proof.Machine

theorem State.updValveSide_updValveSide (s : State) (d : Side) (f g : ValveSide → ValveSide) :
    (s.updValveSide d f).updValveSide d g = s.updValveSide d (fun v => g (f v)) := by
  cases d <;> rfl

theorem State.updValveSide_self (s : State) (d : Side) : s.updValveSide d (fun v => v) = s := by cases d <;> rfl

/-- A side of the driver as slow flow finds it at the entry to FUELING: slow where the slow condition holds (R48, R57). -/
def ValveSide.slowedFor (v : ValveSide) (x : Sale) (margin : Nat) : ValveSide :=
  if x.slowDue margin then { v with slow := true, valves := v.valves.map ValveDrive.slowed } else v

/-- The blend loop as a blend sale's flow starts it (R63). -/
def ValveSide.blendStarted (v : ValveSide) (x : Sale) (share : Nat) : ValveSide :=
  if x.drawn.p1 && x.drawn.p2 then
    { v with blend := { (if v.blend.setUp then v.blend else v.blend.settingUp share) with count := 0, timer := some 200 } }
  else v

/-- The valves of a product set opened, each with its duty (R57, R63). -/
def ValveSide.opened (v : ValveSide) (set : Three Bool) : ValveSide :=
  let blend := set.p1 && set.p2
  { v with valves :=
      ⟨if set.p1 then .opening v.slow (if blend then v.blend.dutyL else 255) else v.valves.p1,
       if set.p2 then .opening v.slow (if blend then v.blend.dutyH else 255) else v.valves.p2,
       if set.p3 then .opening v.slow 255 else v.valves.p3⟩ }

/-- A side of the driver as flow starts (R48, R57, R63). -/
def ValveSide.started (v : ValveSide) (x : Sale) (margin share : Nat) : ValveSide :=
  ((v.slowedFor x margin).blendStarted x share).opened x.drawn

section fueling
variable {s : State} {d : Side} {g : Grade}

theorem State.startBlend_eq (hg : (s.sale d).grade = some g) :
    s.startBlend d = s.updValveSide d (fun v => v.blendStarted (s.sale d) (s.gradeShare d g)) := by
  rw [State.startBlend, hg]
  unfold ValveSide.blendStarted
  dsimp only
  cases h : (s.sale d).drawn.p1 && (s.sale d).drawn.p2
  · exact (State.updValveSide_self s d).symm
  · rfl

/-- The entry to FUELING of a sale below its close target: its timers, its state, and its side of the driver. -/
theorem State.enterFueling_eq (hg : (s.sale d).grade = some g) (hv : (s.sale d).volume < (s.sale d).closeTarget) :
    s.enterFueling d = ((s.updFp d (fun f => { f with start := none, noFlow := some 60000 })).setFpState d .fueling).updValveSide d
      (fun v => v.started (s.sale d) (s.fp.get d).slowMargin (s.gradeShare d g)) := by
  have hclose : (s.sale d).closeDue = false := by simp [Sale.closeDue, hv]
  unfold State.enterFueling
  dsimp only
  generalize hu : (s.updFp d (fun f => { f with start := none, noFlow := some 60000 })).setFpState d .fueling = u
  have hsale : u.sale d = s.sale d := by rw [← hu, State.sale, State.setFpState_ret]; rfl
  have hstore : u.store = s.store := by rw [← hu, State.setFpState_store]; rfl
  have hslow : (if (s.sale d).slowDue (s.fp.get d).slowMargin then u.slowSide d else u) =
      u.updValveSide d (fun v => v.slowedFor (s.sale d) (s.fp.get d).slowMargin) := by
    unfold ValveSide.slowedFor
    split
    · rfl
    · exact (State.updValveSide_self u d).symm
  have hshare : u.gradeShare d g = s.gradeShare d g := by simp only [State.gradeShare, State.copyField, hstore]
  rw [hclose, hslow, State.startBlend_eq (by rw [← hsale] at hg; exact hg), if_neg (by decide)]
  have hopen (w : State) : w.openValves d = w.updValveSide d (fun v => v.opened (w.sale d).drawn) := rfl
  rw [hopen, State.updValveSide_updValveSide, State.updValveSide_updValveSide]
  show u.updValveSide d (fun v => (ValveSide.blendStarted _ (u.sale d) (u.gradeShare d g)).opened (u.sale d).drawn) = _
  rw [hsale, hshare]
  rfl

end fueling

/-! ## What the driver shows as flow starts -/

section flow
variable (v : ValveSide) (x : Sale) (margin share : Nat)

theorem ValveSide.slowedFor_slow : (v.slowedFor x margin).slow = (v.slow || decide (x.closeTarget ≤ x.volume + margin)) := by
  unfold ValveSide.slowedFor Sale.slowDue
  split
  · simp_all
  · simp_all

theorem ValveSide.blendStarted_slow : (v.blendStarted x share).slow = v.slow := by
  unfold ValveSide.blendStarted
  split <;> rfl

theorem ValveSide.started_slow : (v.started x margin share).slow = (v.slow || decide (x.closeTarget ≤ x.volume + margin)) := by
  rw [← ValveSide.slowedFor_slow]
  exact ValveSide.blendStarted_slow _ _ _

theorem ValveSide.slowedFor_blend : (v.slowedFor x margin).blend = v.blend := by
  unfold ValveSide.slowedFor
  split <;> rfl

theorem ValveSide.started_blend : (v.started x margin share).blend = ((v.slowedFor x margin).blendStarted x share).blend := rfl

/-- A valve that stays shut, or whose side does not slow, is left as it is by the slow command. -/
theorem ValveSide.slowedFor_valve (q : Product) (h : v.valves.get q = .shut ∨ x.volume + margin < x.closeTarget) :
    (v.slowedFor x margin).valves.get q = v.valves.get q := by
  unfold ValveSide.slowedFor Sale.slowDue
  split
  · rename_i hs
    rcases h with h | h
    · rw [Three.get_map, h]
      rfl
    · simp only [decide_eq_true_eq] at hs
      omega
  · rfl

theorem ValveSide.started_valve_undrawn (q : Product) (hq : x.drawn.get q = false) :
    (v.started x margin share).valves.get q = (v.slowedFor x margin).valves.get q := by
  have hb : ((v.slowedFor x margin).blendStarted x share).valves = (v.slowedFor x margin).valves := by
    unfold ValveSide.blendStarted
    split <;> rfl
  have hset : ∀ w : ValveSide, (w.opened x.drawn).valves.get q = w.valves.get q := by
    intro w
    cases q <;> exact if_neg (Bool.eq_false_iff.mp hq)
  rw [ValveSide.started, hset, hb]

end flow

/-- What the entry to FUELING gives the driver, in the words of the claims (R48, R57, R63). -/
theorem State.flowStarts {s t : State} {d : Side} {g : Grade}
    (ht : t.vlv = s.vlv.set d ((s.vlv.get d).started (s.sale d) (s.fp.get d).slowMargin (s.gradeShare d g))) :
    s.FlowStarts t d (s.sale d) g := by
  have hget : t.vlv.get d = (s.vlv.get d).started (s.sale d) (s.fp.get d).slowMargin (s.gradeShare d g) := by rw [ht, Sides.get_set_same]
  have hvalve (q : Product) : t.valve ⟨d, q⟩ = ((s.vlv.get d).started (s.sale d) (s.fp.get d).slowMargin (s.gradeShare d g)).valves.get q := by
    rw [State.valve, hget]
  refine ⟨?_, ?_, fun q hq => ?_, fun q hq h => ?_, by rw [ht, Sides.get_set_other]⟩
  · rw [hget, ValveSide.started_slow]
  · rw [hget, ValveSide.started_blend]
    unfold ValveSide.blendStarted
    rw [ValveSide.slowedFor_blend]
    dsimp only
    split
    · unfold BlendLoop.settingUp blendDutyH
      cases (s.vlv.get d).blend.setUp <;> rfl
    · exact ValveSide.slowedFor_blend _ _ _
  · rw [hvalve, hget]
    cases q
    case p1 => exact if_pos hq
    case p2 => exact if_pos hq
    case p3 =>
      simp only [ite_self]
      exact if_pos hq
  · rw [hvalve, ValveSide.started_valve_undrawn _ _ _ _ q hq]
    exact ValveSide.slowedFor_valve _ _ _ q h

/-! ## The last gate (R15, R70) -/

theorem attributed_fueling (x : Sale) (p : Product) : attributed .fueling x p = x.claims p := attributed_settling x p

theorem State.runningAll_of {s : State} {set : Three Bool} (h : ∀ q, set.get q = true → (s.motor q).state = .running) : s.runningAll set = true := by
  have one (q : Product) : (!set.get q || decide ((s.motor q).state = .running)) = true := by
    cases hq : set.get q
    · rfl
    · simp [h q hq]
  simp only [State.runningAll, List.all_cons, List.all_nil, one, Bool.and_true]

section gates
variable {s : State} {d : Side} {g : Grade} (hg : (s.sale d).grade = some g)
include hg

/-- A grade that is fixed is not fixed again (R14). -/
theorem State.tryFix_fixed : s.tryFix d = s := by
  unfold State.tryFix
  rw [hg]

/-- All gates of a sale in STARTING are met: it enters FUELING (R15). -/
theorem State.evalStarting_enters (hd : s.fpState d = .starting) (ha : s.pw.state = .active) (h1 : (s.fp.get d).gate1 = true)
    (h2 : (s.fp.get d).gate2 = true) (h3 : s.runningAll (s.sale d).drawn = true) :
    s.evalStarting d = (s.updFp d (fun f => { f with gate3 := true })).enterFueling d := by
  have ht : s.testGate3 d = s.updFp d (fun f => { f with gate3 := true }) := by
    rw [State.testGate3, hg, h3]
    rfl
  have hmet : ((s.updFp d (fun f => { f with gate3 := true })).fp.get d).gatesMet = true := by simp [FuelPoint.gatesMet, h1, h2]
  rw [State.evalStarting, if_pos ⟨hd, ha⟩, State.tryFix_fixed hg]
  dsimp only
  rw [ht, if_pos hmet]

end gates

section entered
variable {s : State} {d : Side} {g : Grade} (hg : (s.sale d).grade = some g) (hv : (s.sale d).volume < (s.sale d).closeTarget)
include hg hv

theorem State.enterFueling_frame : s.enterFueling d = { s with
    fp := s.fp.set d { s.fp.get d with state := .fueling, start := none, noFlow := some 60000 }
    vlv := s.vlv.set d ((s.vlv.get d).started (s.sale d) (s.fp.get d).slowMargin (s.gradeShare d g))
    met := (s.enterFueling d).met, port := (s.enterFueling d).port } := by
  rw [State.enterFueling_eq hg hv]
  apply State.ext_fields <;> simp

theorem State.enterFueling_otherMet : (s.enterFueling d).met.get d.other = s.met.get d.other := by
  rw [State.enterFueling_eq hg hv, State.updValveSide_met, State.setFpState_met_other]
  rfl

variable (hd : s.fpState d = .starting)
include hd

theorem State.enterFueling_port : (s.enterFueling d).port = { s.port with attn := s.port.attn ||| (fpFlag d).mask } := by
  rw [State.enterFueling_eq hg hv, State.updValveSide_port, State.setFpState_port]
  simp [State.fpState_updFp, show (s.fp.get d).state = .starting from hd]

theorem State.enterFueling_meter (p : Product) : (s.enterFueling d).meter ⟨d, p⟩ = (s.meter ⟨d, p⟩).under ((s.sale d).claims p) := by
  have hne : (s.updFp d (fun f => { f with start := none, noFlow := some 60000 })).fpState d ≠ .fueling := by
    simp [State.fpState_updFp, show (s.fp.get d).state = .starting from hd]
  rw [State.enterFueling_eq hg hv, State.meter, State.updValveSide_met]
  have hm := State.setFpState_meter _ d .fueling ⟨d, p⟩ hne
  rw [State.meter] at hm
  rw [hm, if_pos rfl, attributed_fueling, Channel.under_eq_attribute]
  rfl

end entered

/-- With the other side not in STARTING, both evaluations are the one of the side that is. -/
theorem State.evalBoth_one {s : State} {d : Side} (ho : s.fpState d.other ≠ .starting)
    (hkeep : (s.evalStarting d).fpState d.other = s.fpState d.other) : s.evalBoth = s.evalStarting d := by
  cases d
  · exact State.evalStarting_idle (hkeep ▸ ho)
  · exact congrArg (fun u : State => u.evalStarting .b) (State.evalStarting_idle ho)

/-- Settles O28: the motor runs, the gates stand met, flow starts, and the arbiter grants the next start. -/
theorem theLastGateOpensTheValves : Obligations.TheLastGateOpensTheValves := by
  intro s m d g hs ha hm ht hq hd ho hg h1 h2 hrun hv
  have he : exec (.motorStartExpiry m) s = .next (publish s (s.startExpiry m)) := event_steady (f := fun x => x.startExpiry m) hs
  obtain ⟨y, hy⟩ : ∃ y, y = s.updMotor m (fun r => { r with state := .running, timer := none }) := ⟨_, rfl⟩
  have hym (q : Product) : y.motor q = if q = m then { s.motor q with state := .running, timer := none } else s.motor q := by
    rw [hy, State.motor_updMotor]
    split
    · rename_i h
      rw [h]
    · rfl
  have hframe : y = { s with mot := y.mot } := by rw [hy]; rfl
  have h3 : y.runningAll (s.sale d).drawn = true := State.runningAll_of fun q hdrawn => by
    rw [hym]
    split
    · rfl
    · exact (hrun q hdrawn).resolve_left ‹_›
  obtain ⟨w, hw⟩ : ∃ w, w = y.updFp d (fun f => { f with gate3 := true }) := ⟨_, rfl⟩
  have hwframe : w = { s with mot := y.mot, fp := s.fp.set d { s.fp.get d with gate3 := true } } := by rw [hw, hframe]; rfl
  have hsale : w.sale d = s.sale d := by rw [hwframe]; rfl
  have hwd : w.fpState d = .starting := by rw [hw, State.fpState_updFp, if_pos rfl, hframe]; exact hd
  have hu := State.enterFueling_frame (s := w) (hsale ▸ hg) (hsale ▸ hv)
  have hmeter := State.enterFueling_meter (s := w) (hsale ▸ hg) (hsale ▸ hv) hwd
  have hport := State.enterFueling_port (s := w) (hsale ▸ hg) (hsale ▸ hv) hwd
  have hother := State.enterFueling_otherMet (s := w) (hsale ▸ hg) (hsale ▸ hv)
  have heval : y.evalStarting d = w.enterFueling d := by
    rw [hw, State.evalStarting_enters (s := y) (g := g) (by rw [hframe]; exact hg) (by rw [hframe]; exact hd) (by rw [hframe]; exact ha)
      (by rw [hframe]; exact h1) (by rw [hframe]; exact h2) (by rw [hframe]; rw [hframe] at h3; exact h3)]
  have hboth : y.evalBoth = w.enterFueling d := by
    rw [State.evalBoth_one (d := d) (by rw [hframe]; exact ho) ?_, heval]
    rw [heval, State.fpState, hu, hframe]
    simp [hwframe]
    rfl
  have hstart : s.startExpiry m = (w.enterFueling d).grant := by rw [State.startExpiry, if_pos ⟨hm, ht⟩, ← hboth, hy]
  rw [hstart] at he
  have hgm := State.grant_demand (w.enterFueling d)
  have hmotor (q : Product) : (w.enterFueling d).motor q = y.motor q := by rw [State.motor, hu, hwframe]; rfl
  have hqueue : (w.enterFueling d).mot.queue = s.mot.queue := by rw [hu, hwframe, hy]; rfl
  have hhead : s.mot.queue.head? ≠ some m := fun h => hq (List.mem_of_mem_head? h)
  have hgrant (hfree : ∀ q, q ≠ m → (s.motor q).state ≠ .starting) :=
    State.grant_free_eq (w.enterFueling d) fun q => by
      rw [hmotor, hym]
      split
      · nofun
      · exact hfree q ‹_›
  refine ⟨_, he, ?_, State.flowStarts ?_, ?_, fun q => ?_, fun hfree => ⟨?_, fun q hne => ?_⟩, fun p => ?_, ?_, ?_, ?_⟩
  · rw [publish_fp, State.grant_fp, hu, hwframe]
    simp
  · rw [publish_vlv, State.grant_vlv, hu, hwframe]
    simp
    rfl
  · by_cases hfree : ∀ q, q ≠ m → (s.motor q).state ≠ .starting
    · rw [publish_motor, (hgrant hfree).2, hqueue, if_neg hhead, hmotor, hym, if_pos rfl]
    · obtain ⟨q, hne, hst⟩ : ∃ q, q ≠ m ∧ (s.motor q).state = .starting := by
        by_contra hno
        exact hfree fun q hne hst => hno ⟨q, hne, hst⟩
      rw [State.grant_busy_eq _ q (by rw [hmotor, hym, if_neg hne]; exact hst), publish_motor, hmotor, hym, if_pos rfl]
  · rw [publish_motor, hgm, hmotor, hym]
    split <;> rfl
  · rw [publish_mot, (hgrant hfree).1, hqueue]
  · rw [publish_motor, (hgrant hfree).2, hqueue, hmotor, hym, if_neg hne]
    rw [show (w.enterFueling d).startTime = s.startTime by simp only [State.startTime, State.copyField]; rw [hu, hwframe]]
  · rw [publish_meter, State.meter, State.grant_met]
    exact (hmeter p).trans (by rw [hwframe]; rfl)
  · rw [publish_met, State.grant_met, hother, hwframe]
  · rw [publish_port, State.grant_port, hport, hwframe, flagsOf_one]
  · apply State.ext_fields <;> first | with_reducible rfl | (simp; rw [hu, hwframe])

end Sys2Proof.Machine
end

section
/-! PROOFS. A trip of a motor. -/

namespace Sys2Proof.Machine

/-- A state that satisfies the law of the drives owes no grant. -/
theorem State.DriveLaw.grant_self {s : State} (l : s.DriveLaw) : s.grant = s := by
  by_cases hf : s.arbiterFree = true
  · exact State.grant_nil (l.granted hf)
  · rw [State.grant, if_neg hf]

theorem State.endSale_driveLaw {s : State} (l : s.DriveLaw) (d : Side) (c : Cause) : (s.endSale d c).DriveLaw :=
  (State.driveLaw_iff _).mpr ((State.endSale_obeys (P := True) (.refl s) d c).drive trivial _ _ ((State.driveLaw_iff s).mp l))

/-! ## The other side as a sale ends -/

theorem State.SaleEnds.sale_other {s t : State} {d : Side} {f : FuelPoint} {c : Cause} (h : s.SaleEnds t d f c) : t.sale d.other = s.sale d.other := by
  rw [State.sale, h.ret]
  exact congrArg RetSide.sale (Sides.get_set_other _ _ _)

theorem State.SaleEnds.inSale_other {s t : State} {d : Side} {f : FuelPoint} {c : Cause} (h : s.SaleEnds t d f c) :
    t.inSale d.other = s.inSale d.other := by
  rw [State.inSale, State.fpState, h.fp, Sides.get_set_other]
  rfl

/-- A grant after the end of a sale starts no motor that the end did not (R69). -/
theorem State.SaleEnds.grant {s t : State} {d : Side} {f : FuelPoint} {c : Cause} (h : s.SaleEnds t d f c) (hlaw : s.DriveLaw → t.DriveLaw) :
    s.SaleEnds t.grant d f c where
  fp := by rw [State.grant_fp]; exact h.fp
  ret := by rw [State.grant_ret]; exact h.ret
  valves := by rw [State.grant_vlv]; exact h.valves
  demand m := by rw [State.grant_demand]; exact h.demand m
  motors l := by rw [(hlaw l).grant_self]; exact h.motors l
  meters p := by rw [State.meter, State.grant_met]; exact h.meters p
  otherMet := by rw [State.grant_met]; exact h.otherMet

/-- The law of the drives with the valves of a side shut. -/
theorem State.DriveLaw.closeSide {s : State} (l : s.DriveLaw) (d : Side) : (s.closeSide d).DriveLaw :=
  (State.driveLaw_iff _).mpr ((State.closeSide_obeys (P := True) (.refl s) d).drive trivial _ _ ((State.driveLaw_iff s).mp l))

/-! ## A motor that is down -/

/-- A motor in FAULT with its trip input asserted, outside the start queue (R72, R73). -/
structure State.Down (s : State) (m : Product) (now : Word32) : Prop where
  out : m ∉ s.mot.queue
  fault : (s.motor m).state = .fault
  since : (s.motor m).faultTime = some now
  trip : (s.motor m).trip = true

section down
variable {s : State} {m : Product} {now : Word32}

theorem State.Down.congr {t : State} (h : s.Down m now) (hq : ∀ q ∈ t.mot.queue, q ∈ s.mot.queue) (hs : (t.motor m).state = (s.motor m).state)
    (hf : (t.motor m).faultTime = (s.motor m).faultTime) (ht : (t.motor m).trip = (s.motor m).trip) : t.Down m now :=
  ⟨fun hm => h.out (hq m hm), hs.trans h.fault, hf.trans h.since, ht.trans h.trip⟩

/-- Another motor's record may change; the queue may shrink. -/
theorem State.Down.other (h : s.Down m now) {q : Product} (hq : q ≠ m) (f : MotorRec → MotorRec) : (s.updMotor q f).Down m now := by
  have hm : (s.updMotor q f).motor m = s.motor m := State.updMotor_motor_ne s f (Ne.symm hq)
  exact h.congr (fun _ hp => hp) (by rw [hm]) (by rw [hm]) (by rw [hm])

theorem State.Down.setStartQueue (h : s.Down m now) {queue : List Product} (hq : ∀ q ∈ queue, q ∈ s.mot.queue) : (s.setStartQueue queue).Down m now :=
  h.congr hq rfl rfl rfl

theorem State.Down.grant (h : s.Down m now) : s.grant.Down m now := by
  unfold State.grant
  split
  · split
    · exact h
    · rename_i q rest hqueue
      have hq : q ≠ m := by
        rintro rfl
        exact h.out (by rw [hqueue]; exact List.mem_cons_self)
      exact (h.setStartQueue fun p hp => by rw [hqueue]; exact List.mem_cons_of_mem q hp).other hq _
  · exact h

theorem State.Down.dropDemand (h : s.Down m now) (d : Side) (q : Product) : (s.dropDemand d q).Down m now := by
  rw [State.dropDemand_eq]
  dsimp only
  by_cases hq : q = m
  · subst hq
    have hd : (s.updMotor q (fun r => { r with demand := r.demand.set d false })).Down q now :=
      h.congr (fun _ hp => hp) (by rw [State.updMotor_motor]) (by rw [State.updMotor_motor]) (by rw [State.updMotor_motor])
    rw [h.fault]
    split <;> exact hd
  · have hd := h.other hq (fun r => { r with demand := r.demand.set d false })
    split
    · split
      · exact (hd.other hq _).setStartQueue fun p hp => (List.mem_filter.mp hp).1
      · exact (hd.other hq _).grant
      · split <;> exact hd.other hq _
      · exact hd
    · exact hd

theorem State.Down.endSale (h : s.Down m now) (d : Side) (c : Cause) : (s.endSale d c).Down m now := by
  have hclosed : (((s.updSale d [.endCause] (fun x => { x with endCause := some c })).closeSide d).stopBlend d).Down m now :=
    h.congr (fun _ hp => hp) rfl rfl rfl
  have hdrop := ((hclosed.dropDemand d .p1).dropDemand d .p2).dropDemand d .p3
  have hmot : (s.endSale d c).mot = ((((s.updSale d [.endCause] (fun x => { x with endCause := some c })).closeSide d).stopBlend d).dropAll d).mot := by
    unfold State.endSale
    dsimp only
    split <;> simp
  exact hdrop.congr (fun _ hp => by rw [hmot] at hp; exact hp) (by rw [State.motor, hmot]; rfl) (by rw [State.motor, hmot]; rfl) (by rw [State.motor, hmot]; rfl)

end down

/-! ## The trip (R73, R74) -/

/-- The state with a motor faulted and out of the start queue. -/
def State.faultMotor (s : State) (m : Product) : State :=
  (s.updMotor m (fun r => { r with trip := true, state := .fault, faultTime := some s.rtc, timer := none })).setStartQueue
    (s.mot.queue.filter (fun q => decide (q ≠ m)))

theorem State.updMotor_updMotor (s : State) (m : Product) (f g : MotorRec → MotorRec) : (s.updMotor m f).updMotor m g = s.updMotor m (fun r => g (f r)) := by
  cases m <;> rfl

section trips
variable {s : State} {m : Product}

theorem State.tripAssert_recorded (h : s.pw.drives = false ∨ (s.motor m).state = .fault) :
    s.tripAssert m = s.updMotor m (fun r => { r with trip := true }) := by
  refine if_neg fun hc => ?_
  rcases h with h | h
  · rw [h] at hc
    cases hc.1
  · exact hc.2 h

theorem State.tripAssert_faults (hd : s.pw.drives = true) (hm : (s.motor m).state ≠ .fault) :
    s.tripAssert m = (((((((s.faultMotor m).attn .motor).closeIfDrawn .a m).closeIfDrawn .b m).tripSide .a m).tripSide .b m)).grant := by
  have hf : (s.updMotor m (fun r => { r with trip := true })).updMotor m (fun r => r.faulted s.rtc) =
      s.updMotor m (fun r => { r with trip := true, state := .fault, faultTime := some s.rtc, timer := none }) := State.updMotor_updMotor s m _ _
  rw [State.tripAssert, if_pos ⟨hd, hm⟩, State.faultMotor, ← hf]
  rfl

theorem State.faultMotor_motor :
    (s.faultMotor m).motor m = { s.motor m with trip := true, state := .fault, faultTime := some s.rtc, timer := none } := by
  rw [State.faultMotor, State.setStartQueue_motor, State.updMotor_motor]

theorem State.faultMotor_motor_ne {q : Product} (hq : q ≠ m) : (s.faultMotor m).motor q = s.motor q := by
  rw [State.faultMotor, State.setStartQueue_motor, State.updMotor_motor_ne _ _ hq]

theorem State.faultMotor_down : (s.faultMotor m).Down m s.rtc := by
  refine ⟨fun h => ?_, ?_, ?_, ?_⟩
  · exact absurd rfl (of_decide_eq_true (List.mem_filter.mp h).2)
  all_goals rw [State.faultMotor_motor]

theorem State.closeIfDrawn_not {d : Side} (h : s.drawsOn d m = false) : s.closeIfDrawn d m = s := by rw [State.closeIfDrawn, h]; rfl

theorem State.tripSide_not {d : Side} (h : s.drawsOn d m = false) : s.tripSide d m = s := by
  rw [State.tripSide, if_neg fun hc => by rw [h] at hc; cases hc.1]

/-- A motor that no sale draws on faults alone. -/
theorem State.tripAssert_undrawn (hd : s.pw.drives = true) (hm : (s.motor m).state ≠ .fault) (hn : ∀ d, s.drawsOn d m = false) :
    s.tripAssert m = ((s.faultMotor m).attn .motor).grant := by
  have h (d : Side) : ((s.faultMotor m).attn .motor).drawsOn d m = false := hn d
  rw [State.tripAssert_faults hd hm, State.closeIfDrawn_not (h .a), State.closeIfDrawn_not (h .b), State.tripSide_not (h .a), State.tripSide_not (h .b)]

/-- A motor that the sale of one side in FUELING draws on ends that sale. -/
theorem State.tripAssert_drawn (hd : s.pw.drives = true) (hm : (s.motor m).state ≠ .fault) {d : Side} (hdraw : s.drawsOn d m = true)
    (hf : s.fpState d = .fueling) (hn : s.drawsOn d.other m = false) :
    s.tripAssert m = ((((s.faultMotor m).attn .motor).closeSide d).endSale d .motorTrip).grant := by
  obtain ⟨x, hx⟩ : ∃ x, x = (s.faultMotor m).attn .motor := ⟨_, rfl⟩
  have hxdraw (e : Side) : x.drawsOn e m = s.drawsOn e m := by rw [hx]; rfl
  have hcdraw (e : Side) : (x.closeSide d).drawsOn e m = s.drawsOn e m := by rw [hx]; rfl
  have hcf : (x.closeSide d).fpState d = .fueling := by rw [hx]; exact hf
  have hclose : x.closeIfDrawn d m = x.closeSide d := by rw [State.closeIfDrawn, hxdraw, hdraw]; rfl
  have hends := State.endSale_ends (x.closeSide d) d .motorTrip (by rw [hcf]; decide)
  have htrip : (x.closeSide d).tripSide d m = (x.closeSide d).endSale d .motorTrip := by
    rw [State.tripSide, if_pos ⟨by rw [hcdraw, hdraw], .inr hcf⟩, State.takeCause_ends (by rw [hcf]; rfl) rfl]
  have hother : ((x.closeSide d).endSale d .motorTrip).drawsOn d.other m = false := by
    rw [State.drawsOn, hends.inSale_other, hends.sale_other]
    exact (hcdraw d.other).trans hn
  rw [State.tripAssert_faults hd hm, ← hx]
  cases d
  · rw [hclose, State.closeIfDrawn_not (d := .b) (by rw [hcdraw]; exact hn), htrip, State.tripSide_not (d := .b) hother]
  · rw [State.closeIfDrawn_not (d := .a) (by rw [hxdraw]; exact hn), hclose, State.tripSide_not (d := .a) (by rw [hcdraw]; exact hn), htrip]

end trips

/-- Settles O29, by what draws on the motor. -/
theorem motorTripsFaultTheMotor : Obligations.MotorTripsFaultTheMotor := by
  intro s m hs
  have he : exec (.motorTripAssert m) s = .next (publish s (s.tripAssert m)) := event_steady (f := fun x => x.tripAssert m) hs
  refine ⟨fun hd hm hns l hn => ?_, fun d hd hm hdraw hf hn => ?_, fun h => ?_⟩
  · have hgrant : ((s.faultMotor m).attn .motor).grant = (s.faultMotor m).attn .motor := by
      by_cases hst : ∃ q, (s.motor q).state = .starting
      · obtain ⟨q, hq⟩ := hst
        have hne : q ≠ m := fun h => hns (h ▸ hq)
        exact State.grant_busy_eq _ q (by rw [State.attn_motor, State.faultMotor_motor_ne hne]; exact hq)
      · have hq := l.granted ((State.arbiterFree_iff s).mpr fun q hq => hst ⟨q, hq⟩)
        exact State.grant_nil (by rw [State.attn_mot, State.faultMotor, State.setStartQueue_mot, hq]; rfl)
    rw [State.tripAssert_undrawn hd hm hn, hgrant] at he
    exact ⟨_, he, State.faultMotor_motor, fun q hne => State.faultMotor_motor_ne hne, rfl, by rw [flagsOf_one]; rfl, rfl⟩
  · rw [State.tripAssert_drawn hd hm hdraw hf hn] at he
    obtain ⟨x, hx⟩ : ∃ x, x = ((s.faultMotor m).attn .motor).closeSide d := ⟨_, rfl⟩
    rw [← hx] at he
    have hns : x.fpState d ≠ .settling := by
      rw [show x.fpState d = .fueling by rw [hx]; exact hf]
      decide
    have hdown : (x.endSale d .motorTrip).Down m s.rtc :=
      State.Down.endSale (s := x) (by rw [hx]; exact State.faultMotor_down.congr (fun _ hp => hp) rfl rfl rfl) d .motorTrip
    have hends := State.endSale_ends x d .motorTrip hns
    have hfinal := hends.grant fun l => State.endSale_driveLaw l d .motorTrip
    have hxfp : x.fp.get d = s.fp.get d := by rw [hx]; rfl
    rw [hxfp] at hfinal
    refine ⟨_, he, (hfinal.publish s).fromLawful ?_ ?_ ?_ ?_ ?_ ?_ ?_, hdown.grant.fault, hdown.grant.since, hdown.grant.trip, ?_, ?_⟩
    · intro g
      rw [hx]
      rfl
    · rw [hx]
      rfl
    · rw [hx]
      cases d <;> rfl
    · intro l
      rw [hx]
      exact State.DriveLaw.closeSide (s := (s.faultMotor m).attn .motor) (l.congr rfl rfl (fun _ => rfl) (fun _ => rfl) rfl) d
    · rw [hx]
      cases m <;> rfl
    · rw [hx]
      rfl
    · rw [hx]
      rfl
    · rw [publish_port, State.grant_port, State.endSale_port x d _ hns, hx, flagsOf_cons, flagsOf_one, ← BitVec.or_assoc]
      rfl
    · rw [State.grant_frame, State.endSale_frame, hx]
      rfl
  · rw [State.tripAssert_recorded h] at he
    exact State.updMotor_step he

end Sys2Proof.Machine
end

section
/-! PROOFS. The end of an authorization, CLEAR_LOCK and CLEAR_HALT. -/

namespace Sys2Proof.Machine

/-! ## The end of an authorization (R12) -/

/-- A fueling point whose authorization has ended while it can go on (R12). -/
def FuelPoint.authEnded (f : FuelPoint) (c : Cause) (now : Word32) : FuelPoint :=
  { f with state := if f.lift1.isSome || f.lift2.isSome then .calling else .idle, auth := none, refused := none, expiry := none
           lastEnd := some { kind := .authEnded, cause := c, number := 0, time := now } }

/-- The flags of that end. -/
def FuelPoint.endFlags (f : FuelPoint) (d : Side) : List Attn := if f.lift1.isSome || f.lift2.isSome then [fpFlag d, .call] else [fpFlag d]

theorem attributed_ready (f : FuelPoint) (x : Sale) (p : Product) : attributed f.readyState x p = .unassigned := by
  unfold FuelPoint.readyState
  split <;> rfl

theorem State.endAuthReady_frame (s : State) (d : Side) (c : Cause) : s.endAuthReady d c = { s with
    fp := s.fp.set d ((s.fp.get d).authEnded c s.rtc), met := (s.endAuthReady d c).met, port := (s.endAuthReady d c).port } := by
  unfold State.endAuthReady
  apply State.ext_fields <;> simp [State.endAuth, FuelPoint.authEnded, FuelPoint.readyState, FuelPoint.anyLifted]

section ends
variable {s : State} {d : Side} (hd : s.fpState d = .authorized) (c : Cause)
include hd

theorem State.endAuth_ne_ready : (s.endAuth d c).fpState d ≠ ((s.endAuth d c).fp.get d).readyState := by
  rw [State.endAuth_fpState, hd]
  unfold FuelPoint.readyState
  split <;> nofun

theorem State.endAuthReady_port :
    (s.endAuthReady d c).port = { s.port with attn := s.port.attn ||| flagsOf ((s.fp.get d).endFlags d) } := by
  unfold State.endAuthReady
  dsimp only
  rw [State.setFpState_port, if_neg (State.endAuth_ne_ready hd c)]
  have hf : ((s.endAuth d c).fp.get d).readyState = (s.fp.get d).readyState := by simp [State.endAuth, FuelPoint.readyState, FuelPoint.anyLifted]
  rw [hf]
  unfold FuelPoint.readyState FuelPoint.endFlags FuelPoint.anyLifted
  cases ((s.fp.get d).lift1.isSome || (s.fp.get d).lift2.isSome) <;> simp [State.endAuth, BitVec.or_assoc]

theorem State.endAuthReady_meter (m : Meter) :
    (s.endAuthReady d c).meter m = if m.side = d then (s.meter m).under .unassigned else s.meter m := by
  unfold State.endAuthReady
  dsimp only
  rw [State.setFpState_meter _ _ _ _ (State.endAuth_ne_ready hd c), attributed_ready, Channel.under_eq_attribute]
  rfl

theorem State.endAuthReady_kept (m : Meter) (hm : m.side ≠ d ∨ (s.meter m).attr = .unassigned) : (s.endAuthReady d c).meter m = s.meter m := by
  rw [State.endAuthReady_meter hd]
  split
  · exact if_pos (hm.resolve_left fun h => h ‹_›)
  · rfl

end ends

theorem State.orderDeauthorize_ends {s : State} {o : Order} {d : Side} (ha : s.pw.state = .active) (hd : s.fpState d = .authorized) :
    s.orderDeauthorize o d = (s.endAuthReady d .deauthorized).complete o.ref .ok 0 := by
  rw [State.orderDeauthorize, State.unlessHalted_active (by simp [ha]), if_pos hd]

/-- Settles O10. -/
theorem anAuthorizationEnds : Obligations.AnAuthorizationEnds := by
  intro s d hd
  refine ⟨fun n h ha => ?_, fun hs ht => ?_⟩
  · have he : exec .deauthorize s = .next (publish s ((s.takeSlot n).1.orderDeauthorize (s.takeSlot n).2 d)) := h.sideEvent State.orderDeauthorize
    rw [State.orderDeauthorize_ends (s := (s.takeSlot n).1) ha hd] at he
    have hframe := State.endAuthReady_frame (s.takeSlot n).1 d .deauthorized
    refine ⟨_, he, h.answeredNow s .ok 0 _ (by rw [hframe]) ?_, ?_, fun m hm => ?_, ?_⟩
    · rw [State.endAuthReady_port (s := (s.takeSlot n).1) hd]
      rfl
    · rw [publish_fp, State.complete_fp, hframe]
      rfl
    · rw [publish_meter, State.complete_meter]
      exact State.endAuthReady_kept (s := (s.takeSlot n).1) hd .deauthorized m hm
    · apply State.ext_fields <;> first | with_reducible rfl | (simp; rw [hframe]; rfl)
  · have he : exec (.authExpiry d) s = .next (publish s (s.expireAuth d)) := event_steady (f := fun x => x.expireAuth d) hs
    rw [State.expireAuth, if_pos ⟨hd, ht⟩] at he
    have hframe := State.endAuthReady_frame s d .authExpired
    refine ⟨_, he, ?_, ?_, fun m hm => State.endAuthReady_kept hd _ m hm, ?_⟩
    · exact State.endAuthReady_port hd _
    · rw [publish_fp, hframe]
      rfl
    · apply State.ext_fields <;> first | with_reducible rfl | (simp; rw [hframe])

/-! ## CLEAR_LOCK (R150) -/

theorem State.Offers.exec_clearLock {s : State} {n : Nat} {d : Side} (h : s.Offers .clearLock n (sideCode d)) :
    exec .clearLock s = .next (publish s ((s.takeSlot n).1.orderClearLock (s.takeSlot n).2 d)) := h.sideEvent State.orderClearLock

section locks
variable {s : State} {o : Order} {d : Side}

theorem State.orderClearLock_halted (hh : s.pw.state = .halted) : s.orderClearLock o d = s.complete o.ref .unavailable Reason.halted.code :=
  State.unlessHalted_halted hh _ _

variable (ha : s.pw.state = .active)
include ha

theorem State.orderClearLock_wrongState (hd : s.fpState d ≠ .locked) :
    s.orderClearLock o d = s.complete o.ref .wrongState (fpDetail (s.fpState d)) := by
  rw [State.orderClearLock, State.unlessHalted_active (by simp [ha]), if_pos hd]

variable (hd : s.fpState d = .locked)
include hd

theorem State.orderClearLock_nozzle {h : Hose} (hn : (s.fp.get d).nozzleOut = some h) :
    s.orderClearLock o d = s.complete o.ref .nozzleOut (hoseCode h) := by
  rw [State.orderClearLock, State.unlessHalted_active (by simp [ha]), if_neg (by simp [hd]), hn]

variable (hn : (s.fp.get d).nozzleOut = none)
include hn

theorem State.orderClearLock_flowing {m : Meter} (hm : s.flowingUnassigned d = some m) :
    s.orderClearLock o d = s.complete o.ref .stillFlowing (meterCode m) := by
  rw [State.orderClearLock, State.unlessHalted_active (by simp [ha]), if_neg (by simp [hd]), hn]
  simp only [hm]

theorem State.orderClearLock_unlocks (hm : s.flowingUnassigned d = none) :
    s.orderClearLock o d = (s.unlockFp d).complete o.ref .ok (optCode (s.ret.sides.get d).lockCause causeDetail) := by
  rw [State.orderClearLock, State.unlessHalted_active (by simp [ha]), if_neg (by simp [hd]), hn]
  simp only [hm]

end locks

/-- One hose lifted, the other not: NOZZLE_OUT names it. -/
theorem FuelPoint.nozzleOut_one {f : FuelPoint} {h : Hose} (hl : (f.lift h).isSome = true) (ho : f.lift (otherHose h) = none) : f.nozzleOut = some h := by
  obtain ⟨t, ht⟩ := Option.isSome_iff_exists.mp hl
  unfold FuelPoint.nozzleOut
  cases h
  · rw [show f.lift1 = some t from ht, show f.lift2 = none from ho]
  · rw [show f.lift1 = none from ho, show f.lift2 = some t from ht]

theorem FuelPoint.nozzleOut_none {f : FuelPoint} (h1 : f.lift1 = none) (h2 : f.lift2 = none) : f.nozzleOut = none := by
  unfold FuelPoint.nozzleOut
  rw [h1, h2]

theorem State.flowingUnassigned_none {s : State} {d : Side} (h : ∀ p, (s.meter ⟨d, p⟩).quietUn = none) : s.flowingUnassigned d = none := by
  refine List.find?_eq_none.mpr fun m hm => ?_
  obtain ⟨p, rfl⟩ : ∃ p, m = ⟨d, p⟩ := by
    simp only [sideMeters, List.mem_cons, List.not_mem_nil, or_false] at hm
    rcases hm with rfl | rfl | rfl <;> exact ⟨_, rfl⟩
  simp [h p]

/-- The first meter of a side that is not quiet for unassigned flow. -/
theorem State.flowingUnassigned_first {s : State} {m : Meter} (hm : (s.meter m).quietUn.isSome = true)
    (hfirst : ∀ p, motorCode p < motorCode m.product → (s.meter ⟨m.side, p⟩).quietUn = none) : s.flowingUnassigned m.side = some m := by
  obtain ⟨d, p⟩ := m
  have hquiet (q : Product) (hq : motorCode q < motorCode p) : ((s.meter ⟨d, q⟩).quietUn.isSome) = false := by rw [hfirst q hq]; rfl
  cases p
  · simp [State.flowingUnassigned, sideMeters, hm]
  · simp [State.flowingUnassigned, sideMeters, hm, hquiet .p1 (by decide)]
  · simp [State.flowingUnassigned, sideMeters, hm, hquiet .p1 (by decide), hquiet .p2 (by decide)]

/-! ### The effect -/

section unlocked
variable (s : State) (d : Side)

/-- The tallies of a side's meters at 0 (R37). -/
theorem State.tallies_meter (m : Meter) : ((sideMeters d).foldl (fun s m => s.updMeter m (fun c => { c with tally := 0 })) s).meter m =
    if m.side = d then { s.meter m with tally := 0 } else s.meter m := by
  obtain ⟨e, p⟩ := m
  cases d <;> cases e <;> cases p <;> rfl

/-- A side whose lock is cleared, before its next state (R37, R51, R150). -/
def State.unlocking : State :=
  ((sideMeters d).foldl (fun s m => s.updMeter m (fun c => { c with tally := 0 }))
    (s.updRetSide d [.lock] (fun r => { r with locked := false, lockCause := none }))).updFp d
    (fun f => { f with lockFlow := none, lockFlowMade := false })

theorem State.unlockFp_eq : s.unlockFp d = (s.unlocking d).setFpState d (if s.fuelable d then .idle else .unavailable) := rfl

theorem State.unlocking_frame : s.unlocking d = { s with
    ret := { s.ret with sides := s.ret.sides.set d { s.ret.sides.get d with locked := false, lockCause := none } }
    fp := s.fp.set d { s.fp.get d with lockFlow := none, lockFlowMade := false }
    met := (s.unlocking d).met, rev := (s.unlocking d).rev } := rfl

theorem State.unlocking_meter (m : Meter) : (s.unlocking d).meter m = if m.side = d then { s.meter m with tally := 0 } else s.meter m :=
  State.tallies_meter (s.updRetSide d [.lock] (fun r => { r with locked := false, lockCause := none })) d m

/-- A side as CLEAR_LOCK leaves it (R150). -/
theorem State.unlockFp_frame : s.unlockFp d = { s with
    ret := { s.ret with sides := s.ret.sides.set d { s.ret.sides.get d with locked := false, lockCause := none } }
    fp := s.fp.set d { s.fp.get d with state := if s.fuelable d then .idle else .unavailable, lockFlow := none, lockFlowMade := false }
    met := (s.unlockFp d).met, port := (s.unlockFp d).port, rev := (s.unlockFp d).rev } := by
  rw [State.unlockFp_eq, State.unlocking_frame]
  apply State.ext_fields <;> simp

variable {s d} (hd : s.fpState d = .locked)
include hd

theorem State.unlocking_ne : (s.unlocking d).fpState d ≠ (if s.fuelable d then .idle else .unavailable) := by
  have hst : (s.unlocking d).fpState d = .locked := by rw [State.unlocking_frame, State.fpState, Sides.get_set_same]; exact hd
  rw [hst]
  split <;> nofun

theorem State.unlockFp_port : (s.unlockFp d).port = { s.port with attn := s.port.attn ||| (fpFlag d).mask } := by
  rw [State.unlockFp_eq, State.setFpState_port, if_neg (State.unlocking_ne hd), State.unlocking_frame]
  cases s.fuelable d <;> rfl

theorem State.unlockFp_meter (m : Meter) : (s.unlockFp d).meter m =
    if m.side = d then { s.meter m with tally := 0 }.under .unassigned else s.meter m := by
  have ha (b : Bool) (x : Sale) (p : Product) : attributed (if b then .idle else .unavailable) x p = .unassigned := by cases b <;> rfl
  rw [State.unlockFp_eq, State.setFpState_meter _ _ _ _ (State.unlocking_ne hd), ha, State.unlocking_meter]
  split <;> rfl

end unlocked

/-- Settles O15: the tests in their order, and the lock cleared. -/
theorem clearLockTestsThenUnlocks : Obligations.ClearLockTestsThenUnlocks := by
  intro s n d h
  refine ⟨fun hh => ?_, fun ha hd => ?_, fun x ha hd hl ho => ?_, fun m ha hd h1 h2 hm hq hfirst => ?_, fun ha hd h1 h2 hq => ?_⟩
  · have ho := State.orderClearLock_halted (s := (s.takeSlot n).1) (o := (s.takeSlot n).2) (d := d) hh
    exact h.turnedAway (ho ▸ h.exec_clearLock)
  · have ho := State.orderClearLock_wrongState (s := (s.takeSlot n).1) (o := (s.takeSlot n).2) ha hd
    exact h.turnedAway (ho ▸ h.exec_clearLock)
  · have ho := State.orderClearLock_nozzle (s := (s.takeSlot n).1) (o := (s.takeSlot n).2) ha hd (FuelPoint.nozzleOut_one hl ho)
    exact h.turnedAway (ho ▸ h.exec_clearLock)
  · subst hm
    have ho := State.orderClearLock_flowing (s := (s.takeSlot n).1) (o := (s.takeSlot n).2) ha hd (FuelPoint.nozzleOut_none h1 h2)
      (State.flowingUnassigned_first hq hfirst)
    exact h.turnedAway (ho ▸ h.exec_clearLock)
  · have ho := State.orderClearLock_unlocks (s := (s.takeSlot n).1) (o := (s.takeSlot n).2) ha hd (FuelPoint.nozzleOut_none h1 h2)
      (State.flowingUnassigned_none hq)
    have he := ho ▸ h.exec_clearLock
    rw [State.takeSlot_ret] at he
    have hframe := State.unlockFp_frame (s.takeSlot n).1 d
    have hmeter := State.unlockFp_meter (s := (s.takeSlot n).1) hd
    have hport := State.unlockFp_port (s := (s.takeSlot n).1) hd
    have hans := h.answeredNow (u := (s.takeSlot n).1.unlockFp d) s .ok (optCode (s.ret.sides.get d).lockCause causeDetail) [fpFlag d]
      (by rw [hframe]) (by rw [hport, flagsOf_one]; rfl)
    refine ⟨_, he, ?_, ?_, ?_, fun m hm => ?_, fun m hm => ?_, ?_⟩
    · convert hans using 1
      cases (s.ret.sides.get d).lockCause <;> rfl
    · rw [publish_ret, State.complete_ret, hframe]
      rfl
    · rw [publish_fp, State.complete_fp, hframe]
      rfl
    · rw [publish_meter, State.complete_meter, hmeter]
      split
      · exact if_pos hm
      · rfl
    · rw [publish_meter, State.complete_meter, hmeter, if_neg hm]
      rfl
    · apply State.ext_fields <;> first | with_reducible rfl | (simp; rw [hframe]; rfl)

end Sys2Proof.Machine
end

section
/-! PROOFS. CLEAR_HALT. -/

namespace Sys2Proof.Machine

theorem State.Offers.exec_clearHalt {s : State} {n : Nat} (h : s.Offers .clearHalt n 0) :
    exec .clearHalt s = .next (publish s ((s.takeSlot n).1.orderClearHalt (s.takeSlot n).2)) := h.plainEvent State.orderClearHalt

/-! ## The tests (R148) -/

theorem State.settlingSide_a {s : State} (h : s.fpState .a = .settling) : s.settlingSide = some .a := by simp [State.settlingSide, h]

theorem State.settlingSide_b {s : State} (ha : s.fpState .a ≠ .settling) (h : s.fpState .b = .settling) : s.settlingSide = some .b := by
  simp [State.settlingSide, ha, h]

theorem State.settlingSide_none {s : State} (h : ∀ d, s.fpState d ≠ .settling) : s.settlingSide = none := by simp [State.settlingSide, h .a, h .b]

theorem State.flowing_none {s : State} (h : ∀ m : Meter, (s.meter m).quietAny = none) : s.flowing = none :=
  List.find?_eq_none.mpr fun m _ => by simp [h m]

/-- The meters stand in the order of their codes. -/
theorem allMeters_split (m : Meter) : ∃ before after, allMeters = before ++ m :: after ∧ ∀ x ∈ before, meterCode x < meterCode m := by
  obtain ⟨d, p⟩ := m
  cases d <;> cases p
  · exact ⟨[], _, rfl, nofun⟩
  · exact ⟨[⟨.a, .p1⟩], _, rfl, by decide⟩
  · exact ⟨[⟨.a, .p1⟩, ⟨.a, .p2⟩], _, rfl, by decide⟩
  · exact ⟨[⟨.a, .p1⟩, ⟨.a, .p2⟩, ⟨.a, .p3⟩], _, rfl, by decide⟩
  · exact ⟨[⟨.a, .p1⟩, ⟨.a, .p2⟩, ⟨.a, .p3⟩, ⟨.b, .p1⟩], _, rfl, by decide⟩
  · exact ⟨[⟨.a, .p1⟩, ⟨.a, .p2⟩, ⟨.a, .p3⟩, ⟨.b, .p1⟩, ⟨.b, .p2⟩], _, rfl, by decide⟩

/-- The first meter that is not quiet, in the order of the meter codes. -/
theorem State.flowing_first {s : State} {m : Meter} (hm : (s.meter m).quietAny.isSome = true)
    (hfirst : ∀ x : Meter, meterCode x < meterCode m → (s.meter x).quietAny = none) : s.flowing = some m := by
  obtain ⟨before, after, hsplit, hbefore⟩ := allMeters_split m
  exact List.find?_eq_some_iff_append.mpr ⟨hm, before, after, hsplit, fun x hx => by rw [hfirst x (hbefore x hx)]; rfl⟩

section halts
variable {s : State} {o : Order}

theorem State.orderClearHalt_notHalted (h : s.pw.state ≠ .halted) : s.orderClearHalt o = s.complete o.ref .wrongState (powerDetail s.pw.state) := by
  rw [State.orderClearHalt, if_pos h]

variable (hh : s.pw.state = .halted)
include hh

theorem State.orderClearHalt_settling {d : Side} (h : s.settlingSide = some d) :
    s.orderClearHalt o = s.complete o.ref .wrongState (sideStateDetail d .settling) := by
  rw [State.orderClearHalt, if_neg (by simp [hh]), h]

variable (hset : s.settlingSide = none)
include hset

theorem State.orderClearHalt_reload (h : s.halt.reload = true) : s.orderClearHalt o = s.complete o.ref .causePresent Reason.reload.code := by
  rw [State.orderClearHalt, if_neg (by simp [hh]), hset]
  exact if_pos h

variable (hr : s.halt.reload = false)
include hr

theorem State.orderClearHalt_flowing {m : Meter} (h : s.flowing = some m) : s.orderClearHalt o = s.complete o.ref .stillFlowing (meterCode m) := by
  rw [State.orderClearHalt, if_neg (by simp [hh]), hset]
  simp only [hr, h]
  rfl

theorem State.orderClearHalt_clears (h : s.flowing = none) :
    s.orderClearHalt o = s.clearHalt.complete o.ref .ok (optCode s.halt.code HaltCode.code) := by
  rw [State.orderClearHalt, if_neg (by simp [hh]), hset]
  simp only [hr, h]
  rfl

end halts

/-! ## The effect with nothing to do -/

theorem State.applyIfDue_none {s : State} (h : s.ret.pendingSet = none) (d : Side) : s.applyIfDue d = s := by
  unfold State.applyIfDue
  rw [h]

theorem State.finishPending_none {s : State} (h : s.ret.pendingSet = none) : s.finishPending = s := by
  unfold State.finishPending
  rw [h]

theorem State.applyBoth_none {s : State} (h : s.ret.pendingSet = none) : s.applyBoth = s := by
  rw [State.applyBoth, State.applyIfDue_none h, State.applyIfDue_none h, State.finishPending_none h]

theorem State.reviewFp_locked {s : State} {d : Side} (h : s.fpState d = .locked) : s.reviewFp d = s := by
  unfold State.reviewFp
  rw [h]

theorem State.reviewBoth_locked {s : State} (h : ∀ d, s.fpState d = .locked) : s.reviewBoth = s := by
  rw [State.reviewBoth, State.reviewFp_locked (h .a), State.reviewFp_locked (h .b)]

theorem State.requeueMotors_none {s : State} (h : ∀ m, (s.motor m).demand = ⟨false, false⟩) : s.requeueMotors = s := by
  have one (m : Product) : (if (s.motor m).state = .off ∧ demandCount (s.motor m).demand ≠ 0 then s.joinQueue m else s) = s :=
    if_neg fun hc => hc.2 (demandCount_eq_zero.mpr (h m))
  unfold State.requeueMotors
  simp only [one]

/-- CLEAR_HALT with both sides LOCKED, no demand and no pending set: the device is ACTIVE, and no more (R148). -/
theorem State.clearHalt_bare {s : State} (hd : ∀ d, s.fpState d = .locked) (hp : s.ret.pendingSet = none)
    (hm : ∀ m, (s.motor m).demand = ⟨false, false⟩) :
    s.clearHalt = { s with pw := { s.pw with state := .active }, halt := { s.halt with halted := false }
                           port := { s.port with attn := s.port.attn ||| Attn.halt.mask } } := by
  obtain ⟨x, hx⟩ : ∃ x, x = (s.updHalt (fun h => { h with halted := false })).updPower (fun p => { p with state := .active }) := ⟨_, rfl⟩
  have hq : x.requeueMotors = x := State.requeueMotors_none (by rw [hx]; exact hm)
  have hr : (x.attn .halt).reviewBoth = x.attn .halt := State.reviewBoth_locked (by rw [hx]; exact hd)
  have hb : (x.attn .halt).applyBoth = x.attn .halt := State.applyBoth_none (by rw [hx]; exact hp)
  unfold State.clearHalt
  dsimp only
  rw [← hx, hq, hr, hb, hx]
  rfl

/-- Settles O19: the tests in their order, and the bare return to ACTIVE. -/
theorem clearHaltTestsThenReturnsToActive : Obligations.ClearHaltTestsThenReturnsToActive := by
  intro s n h
  refine ⟨fun ha => ?_, fun hh hs => ?_, fun hh hs hb => ?_, fun hh hs hr => ?_, fun m hh hs hr hm hfirst => ?_, fun hh hd hr hq hp hm => ?_⟩
  · have ho := State.orderClearHalt_notHalted (s := (s.takeSlot n).1) (o := (s.takeSlot n).2) (by rw [State.takeSlot_pw, ha]; decide)
    rw [State.takeSlot_pw, ha] at ho
    exact h.turnedAway (ho ▸ h.exec_clearHalt)
  · have ho := State.orderClearHalt_settling (s := (s.takeSlot n).1) (o := (s.takeSlot n).2) hh (State.settlingSide_a hs)
    exact h.turnedAway (ho ▸ h.exec_clearHalt)
  · have ho := State.orderClearHalt_settling (s := (s.takeSlot n).1) (o := (s.takeSlot n).2) hh (State.settlingSide_b hs hb)
    exact h.turnedAway (ho ▸ h.exec_clearHalt)
  · have ho := State.orderClearHalt_reload (s := (s.takeSlot n).1) (o := (s.takeSlot n).2) hh (State.settlingSide_none hs) hr
    exact h.turnedAway (ho ▸ h.exec_clearHalt)
  · have ho := State.orderClearHalt_flowing (s := (s.takeSlot n).1) (o := (s.takeSlot n).2) hh (State.settlingSide_none hs) hr
      (State.flowing_first hm hfirst)
    exact h.turnedAway (ho ▸ h.exec_clearHalt)
  · have ho := State.orderClearHalt_clears (s := (s.takeSlot n).1) (o := (s.takeSlot n).2) hh
      (State.settlingSide_none fun d => by rw [State.takeSlot_fpState, hd]; decide) hr (State.flowing_none hq)
    have hc := State.clearHalt_bare (s := (s.takeSlot n).1) hd hp hm
    have he := ho ▸ h.exec_clearHalt
    rw [State.takeSlot_halt] at he
    have hans := h.answeredNow (u := (s.takeSlot n).1.clearHalt) s .ok (optCode s.halt.code HaltCode.code) [.halt] (by rw [hc])
      (by rw [hc, flagsOf_one]; rfl)
    refine ⟨_, he, ?_, ?_, ?_, ?_⟩
    · convert hans using 1
      cases s.halt.code <;> rfl
    · rw [publish_pw, State.complete_pw, hc]
      rfl
    · rw [publish_halt, State.complete_halt, hc]
      rfl
    · apply State.ext_fields <;> first | with_reducible rfl | (simp; rw [hc]; rfl)

end Sys2Proof.Machine
end

section
/-! PROOFS. Requests to the frame queue, the timers of the heads and SHOW_MESSAGE. -/

namespace Sys2Proof.Machine

/-! ## What a request asks for (R100) -/

section asked
variable {x y z : Display} {R Q : Role → FrameKind → Prop}

theorem Display.Asked.refl (x : Display) : x.Asked x (fun _ _ => False) :=
  ⟨rfl, List.prefix_refl _, fun _ _ h => h.elim, fun _ h => .inl h⟩

theorem Display.Asked.heads (h : x.Asked y R) : y.heads = x.heads := by rw [h.frame]

theorem Display.Asked.queued_mono (h : x.Asked y R) {r : Role} {k : FrameKind} (hq : x.queued r k = true) : y.queued r k = true := by
  obtain ⟨e, he, hk⟩ := List.any_eq_true.mp hq
  exact List.any_eq_true.mpr ⟨e, h.kept.subset he, hk⟩

/-- Requests one after another ask for what each asks for. -/
theorem Display.Asked.trans (h : x.Asked y R) (g : y.Asked z Q) : x.Asked z (fun r k => R r k ∨ Q r k) where
  frame := by rw [g.frame, h.frame]
  kept := h.kept.trans g.kept
  queued r k hr hs := hr.elim (fun hR => g.queued_mono (h.queued r k hR hs)) fun hQ => g.queued r k hQ (by rw [h.heads]; exact hs)
  only e he := (g.only e he).elim (fun hy => (h.only e hy).imp id (And.imp_left .inl)) fun hQ => .inr ⟨.inr hQ.1, hQ.2⟩

theorem Display.Asked.iff (h : x.Asked y R) (hR : ∀ r k, R r k ↔ Q r k) : x.Asked y Q where
  frame := h.frame
  kept := h.kept
  queued r k hq := h.queued r k ((hR r k).mpr hq)
  only e he := (h.only e he).imp id (And.imp_left (hR _ _).mp)

/-- A request for one head asks for its frame (R100). -/
theorem Display.request_asked (x : Display) (r : Role) (k : FrameKind) : x.Asked (x.request r k) (fun q l => q = r ∧ l = k) := by
  unfold Display.request Display.enqueue
  split
  · split
    · rename_i hq
      refine ⟨rfl, List.prefix_refl _, ?_, fun e he => .inl he⟩
      rintro q l ⟨rfl, rfl⟩ -
      exact hq
    · refine ⟨rfl, List.prefix_append _ _, ?_, fun e he => ?_⟩
      · rintro q l ⟨rfl, rfl⟩ -
        simp [Display.queued]
      · rcases List.mem_append.mp he with he | he
        · exact .inl he
        · rw [List.mem_singleton.mp he]
          exact .inr ⟨⟨rfl, rfl⟩, rfl⟩
  · rename_i hs
    refine ⟨rfl, List.prefix_refl _, ?_, fun e he => .inl he⟩
    rintro q l ⟨rfl, rfl⟩ hq
    exact absurd hq hs

theorem Display.requests_asked (x : Display) (rs : List Role) (k : FrameKind) :
    x.Asked (rs.foldl (fun x q => x.request q k) x) (fun q l => q ∈ rs ∧ l = k) := by
  induction rs generalizing x with
  | nil => exact (Display.Asked.refl x).iff (by simp)
  | cons r rest ih =>
    refine ((x.request_asked r k).trans (ih _)).iff fun q l => ?_
    simp only [List.mem_cons]
    tauto

theorem mem_allRoles (r : Role) : r ∈ allRoles := by cases r <;> decide

/-- A request for a fixed role asks for the frames of the head and of its mirrors (R91, R100). -/
theorem Display.requestAll_asked (x : Display) (r : Role) (k : FrameKind) :
    x.Asked (x.requestAll r k) (fun q l => l = k ∧ x.showsWith r q) := by
  refine (x.requests_asked (r :: x.mirrors r) k).iff fun q l => ?_
  have hm : q ∈ x.mirrors r ↔ (x.heads.get q).source = some r := by
    rw [Display.mirrors, List.mem_filter, decide_eq_true_eq]
    exact ⟨And.right, fun h => ⟨mem_allRoles q, h⟩⟩
  rw [List.mem_cons, hm]
  exact and_comm

end asked

/-! ## The timers of the heads and of the message lines (R103, R104, R108, R111) -/

theorem Display.enqueue_eq (x : Display) (r : Role) (k : FrameKind) : x.enqueue r k = { x with
    queue := if x.queued r k then x.queue else x.queue ++ [⟨r, k, x.nextAge, false⟩]
    nextAge := if x.queued r k then x.nextAge else x.nextAge + 1 } := by
  unfold Display.enqueue
  split <;> rfl

/-- Settles O38, timer by timer. -/
theorem headTimersAskForFrames : Obligations.HeadTimersAskForFrames := by
  intro s hs
  refine ⟨fun r hr => ?_, fun r hp hf => ?_, fun d ht => ?_, fun r => ?_⟩
  · have he : exec (.refreshTimerExpiry r) s = .next (publish s
        ((s.updHead r (fun h => { h with refresh := some 1000 })).updDisp (fun x => x.request r .refresh))) :=
      (event_steady hs).trans (by rw [if_pos hr])
    exact ⟨_, he, Display.request_asked _ r .refresh, rfl⟩
  · have he : exec (.probeTimerExpiry r) s = .next (publish s
        ((s.updHead r (fun h => { h with probe := some 2000 })).updDisp (fun x => x.enqueue r .probe))) :=
      (event_steady hs).trans (by rw [if_pos ⟨hp, hf⟩])
    exact ⟨_, he, Display.enqueue_eq _ r .probe, rfl⟩
  · have he : exec (.messageDurationExpiry d) s = .next (publish s ((s.updLine d (fun _ => .cleared)).requestMessage d)) :=
      (event_steady hs).trans (by rw [if_pos ht])
    exact ⟨_, he, Display.requestAll_asked _ _ _, rfl⟩
  · exact ⟨_, event_steady (f := fun x => x.updHead r (fun h => { h with spacing := none })) hs, rfl⟩

theorem or_flagsOf_nil (w : Word16) : w ||| flagsOf [] = w := BitVec.or_zero

/-! ## SHOW_MESSAGE (R110, R111) -/

theorem State.Offers.exec_showMessage {s : State} {n target : Nat} (h : s.Offers .showMessage n target) :
    exec .showMessage s = .next (publish s ((s.takeSlot n).1.orderShowMessage (s.takeSlot n).2)) := h.orderEvent State.orderShowMessage

section messages
variable {s : State} {o : Order} {d : Side} (ht : o.target = sideCode d)
include ht

theorem State.orderShowMessage_badField {field : Nat} (hf : s.messageField o.ref.slot = some field) :
    s.orderShowMessage o = s.complete o.ref .badOrder field := by
  unfold State.orderShowMessage
  rw [ht, sideOfTarget_code]
  simp only [hf]

variable (hf : s.messageField o.ref.slot = none)
include hf

theorem State.orderShowMessage_notReady (hr : (s.head (saleRole d)).state ≠ .ready) :
    s.orderShowMessage o = s.complete o.ref .unavailable (headDetail (s.head (saleRole d)).state) := by
  unfold State.orderShowMessage
  rw [ht, sideOfTarget_code]
  simp only [hf]
  exact if_neg (by simpa [State.meets] using hr)

theorem State.orderShowMessage_shows (hr : (s.head (saleRole d)).state = .ready) (ho : (s.disp.lines.get d).order = none) :
    s.orderShowMessage o = (s.updLine d (fun _ => { text := s.messageText o.ref.slot, order := some o.ref
                                                    duration := s.bodyField o.ref.slot 2 2, timer := none })).requestMessage d := by
  unfold State.orderShowMessage
  rw [ht, sideOfTarget_code]
  simp only [hf, ho]
  exact if_pos (by simpa [State.meets] using hr)

end messages

/-! ### The body of SHOW_MESSAGE -/

/-- The characters of a message (R98). -/
def allowedChar (b : Byte) : Prop := b.toNat = 0x20 ∨ (0x2D ≤ b.toNat ∧ b.toNat ≤ 0x3A) ∨ (0x41 ≤ b.toNat ∧ b.toNat ≤ 0x5A)

theorem messageChar_iff (b : Byte) : messageChar b = true ↔ allowedChar b := by simp [messageChar, allowedChar, or_assoc]

theorem Memory.all_readAll (m : Memory) (a n : Nat) (p : Byte → Bool) : (m.readAll a n).all p = true ↔ ∀ i, i < n → p (m.read (a + i)) = true := by
  induction n generalizing a with
  | zero => simp [Memory.readAll]
  | succ n ih =>
    rw [Memory.readAll, List.all_cons, Bool.and_eq_true, ih]
    constructor
    · rintro ⟨h0, hrest⟩ i hi
      cases i with
      | zero => exact h0
      | succ i => rw [Nat.add_comm i 1, ← Nat.add_assoc]; exact hrest i (by omega)
    · exact fun h => ⟨h 0 (by omega), fun i hi => by rw [Nat.add_assoc, Nat.add_comm 1 i]; exact h (i + 1) (by omega)⟩

section body
variable {s : State} {n : Nat}

theorem State.takeSlot_messageField : (s.takeSlot n).1.messageField n = s.messageField n := by
  simp only [State.messageField, State.takeSlot_bodyField, State.takeSlot_bodyBytes]

theorem State.takeSlot_messageText : (s.takeSlot n).1.messageText n = s.messageText n := by
  simp only [State.messageText, State.takeSlot_bodyField, State.takeSlot_bodyBytes]

theorem State.messageField_length (h : 16 < s.bodyField n 0 1) : s.messageField n = some 0 := if_pos h

variable (hlen : s.bodyField n 0 1 ≤ 16)
include hlen

theorem State.messageField_char {i : Nat} (hi : i < s.bodyField n 0 1) (hc : ¬ allowedChar (s.mem.read (slotAddr n + 20 + i))) :
    s.messageField n = some 4 := by
  refine (if_neg (Nat.not_lt.mpr hlen)).trans (if_neg fun hall => hc ?_)
  exact (messageChar_iff _).mp ((Memory.all_readAll _ _ _ _).mp hall i hi)

variable (hchars : ∀ i, i < s.bodyField n 0 1 → allowedChar (s.mem.read (slotAddr n + 20 + i)))
include hchars

omit hlen in
theorem State.messageChars_allowed : (s.bodyBytes n 4 (s.bodyField n 0 1)).all messageChar = true :=
  (Memory.all_readAll _ _ _ _).mpr fun i hi => (messageChar_iff _).mpr (hchars i hi)

theorem State.messageField_duration (h : 600 < s.bodyField n 2 2) : s.messageField n = some 2 :=
  (if_neg (Nat.not_lt.mpr hlen)).trans ((if_pos (State.messageChars_allowed hchars)).trans (if_pos h))

theorem State.messageField_none (h : s.bodyField n 2 2 ≤ 600) : s.messageField n = none :=
  (if_neg (Nat.not_lt.mpr hlen)).trans ((if_pos (State.messageChars_allowed hchars)).trans (if_neg (Nat.not_lt.mpr h)))

omit hchars in
theorem State.messageText_eq : s.messageText n = s.bodyBytes n 4 (s.bodyField n 0 1) ++ List.replicate (16 - s.bodyField n 0 1) 0x20 := by
  have hl : (s.bodyBytes n 4 (s.bodyField n 0 1)).length = s.bodyField n 0 1 := Memory.length_readAll _ _ _
  rw [State.messageText, blankText, List.take_append, List.take_of_length_le (by omega), hl, List.take_replicate, Nat.min_eq_left (by omega)]

end body

/-- Settles O30: the fields in their order, the head, and the line. -/
theorem messagesBecomeTheLine : Obligations.MessagesBecomeTheLine := by
  intro s n d h
  have bad {field : Nat} (hf : s.messageField n = some field) : ∃ t, exec .showMessage s = .next t ∧ s.Answered t n .badOrder field []
      ∧ t = { s with mem := t.mem, port := t.port, rev := t.rev } := by
    have ho := State.orderShowMessage_badField (s := (s.takeSlot n).1) (o := (s.takeSlot n).2) h.target (State.takeSlot_messageField.trans hf)
    exact h.turnedAway (ho ▸ h.exec_showMessage)
  refine ⟨fun hl => bad (State.messageField_length hl), fun i hl hi hc => bad (State.messageField_char hl hi hc),
    fun hl hc hd => bad (State.messageField_duration hl hc hd), fun hl hc hd => ⟨fun hr => ?_, fun hr hno => ?_⟩⟩
  · have ho := State.orderShowMessage_notReady (s := (s.takeSlot n).1) (o := (s.takeSlot n).2) h.target
      (State.takeSlot_messageField.trans (State.messageField_none hl hc hd)) hr
    exact h.turnedAway (ho ▸ h.exec_showMessage)
  · have ho := State.orderShowMessage_shows (s := (s.takeSlot n).1) (o := (s.takeSlot n).2) h.target
      (State.takeSlot_messageField.trans (State.messageField_none hl hc hd)) hr hno
    have he := ho ▸ h.exec_showMessage
    rw [State.takeSlot_ref, State.takeSlot_messageText, State.messageText_eq hl, State.takeSlot_bodyField] at he
    exact ⟨_, he, h.heldTaken [] rfl (by rw [or_flagsOf_nil]; rfl), Display.requestAll_asked _ _ _, rfl⟩

end Sys2Proof.Machine
end

section
/-! PROOFS. The fixing of a grade. -/

namespace Sys2Proof.Machine

/-! ## The close target (R46, R47) -/

theorem targetOf_rule (kind : PresetKind) (preset price limit : Nat) :
    CloseRule kind preset price limit (targetOf kind preset price limit).1 (targetOf kind preset price limit).2 := by
  cases kind
  case none => exact ⟨fun h => absurd rfl h.1, fun _ => ⟨rfl, rfl⟩⟩
  case volume =>
    refine ⟨fun h => ?_, fun h => ?_⟩
    · have hle : preset ≤ capTerm price limit := h.2
      simp only [targetOf, if_pos hle]
      exact ⟨rfl, trivial⟩
    · have hlt : capTerm price limit < preset := h.resolve_left nofun
      simp only [targetOf, if_neg (Nat.not_le.mpr hlt)]
      exact ⟨rfl, trivial⟩
  case amount =>
    refine ⟨fun h => ?_, fun h => ?_⟩
    · have hle : amountTerm preset price ≤ capTerm price limit := h.2
      simp only [targetOf, if_pos hle]
      exact ⟨rfl, trivial⟩
    · have hlt : capTerm price limit < amountTerm preset price := h.resolve_left nofun
      simp only [targetOf, if_neg (Nat.not_le.mpr hlt)]
      exact ⟨rfl, trivial⟩

/-! ## Demand raised on a product set (R67) -/

/-- Demand raised on one motor where the set draws on it. -/
def State.raiseOne (s : State) (d : Side) (m : Product) : State := if (s.sale d).drawn.get m then s.raiseDemand d m else s

theorem State.raiseAll_eq (s : State) (d : Side) : s.raiseAll d = ((s.raiseOne d .p1).raiseOne d .p2).raiseOne d .p3 := rfl

theorem State.raiseOne_frame (s : State) (d : Side) (m : Product) : s.raiseOne d m = { s with mot := (s.raiseOne d m).mot } := by
  unfold State.raiseOne
  split
  · apply State.ext_fields <;> simp
  · rfl

theorem State.raiseOne_demand (s : State) (d : Side) (m q : Product) :
    ((s.raiseOne d m).motor q).demand = if q = m ∧ (s.sale d).drawn.get m = true then (s.motor q).demand.set d true else (s.motor q).demand := by
  unfold State.raiseOne
  split
  · rename_i h
    rw [State.raiseDemand_demand]
    by_cases hq : q = m <;> simp [hq, h]
  · rename_i h
    rw [if_neg fun hc => h hc.2]

/-- Raising demand changes the motors and the start queue alone. -/
theorem State.raiseAll_frame (s : State) (d : Side) : s.raiseAll d = { s with mot := (s.raiseAll d).mot } := by
  obtain ⟨x, hx⟩ : ∃ x, x = s.raiseOne d .p1 := ⟨_, rfl⟩
  obtain ⟨y, hy⟩ : ∃ y, y = x.raiseOne d .p2 := ⟨_, rfl⟩
  rw [State.raiseAll_eq, ← hx, ← hy, State.raiseOne_frame y, hy, State.raiseOne_frame x, hx, State.raiseOne_frame s]

theorem State.raiseAll_demand (s : State) (d : Side) (q : Product) :
    ((s.raiseAll d).motor q).demand = if (s.sale d).drawn.get q then (s.motor q).demand.set d true else (s.motor q).demand := by
  have hsale (y : State) (m : Product) : (y.raiseOne d m).sale d = y.sale d := by rw [State.raiseOne_frame]; rfl
  rw [State.raiseAll_eq, State.raiseOne_demand, State.raiseOne_demand, State.raiseOne_demand, hsale, hsale]
  cases q <;> simp

/-! ## The fixing (R14) -/

theorem State.freshAccumulators_meter (s : State) (d : Side) (m : Meter) :
    (s.freshAccumulators d).meter m = if m.side = d then { s.meter m with saleAcc := 0, saleV := 0 } else s.meter m := by
  obtain ⟨e, p⟩ := m
  cases d <;> cases e <;> cases p <;> rfl

/-- The sale record as its grade is fixed under a price set. -/
def State.fixedSale (s : State) (d : Side) (g : Grade) (p : PriceSet) : Sale := (s.sale d).fixed g (s.gradeProducts d g) s.rtc p s.overrunLimit

/-- The fueling point as the grade is fixed. -/
def State.fixedFp (s : State) (d : Side) (g : Grade) (p : PriceSet) : FuelPoint :=
  { s.fp.get d with
    gate1 := true, closeReason := some (targetOf (s.sale d).presetKind (s.sale d).preset (p.price (s.sale d).level g) s.overrunLimit).2
    limit := s.overrunLimit, slowMargin := s.slowMarginSetting }

/-- The state with the sale record and the fueling point fixed, and the sale accumulators at 0. -/
def State.fixing (s : State) (d : Side) (g : Grade) (p : PriceSet) : State :=
  (((s.updSale d [.grade, .figures] (fun x => x.fixed g (s.gradeProducts d g) s.rtc p s.overrunLimit)).updFp d (fun f =>
    { f with gate1 := true
             closeReason := some (targetOf (s.sale d).presetKind (s.sale d).preset (p.price (s.sale d).level g) s.overrunLimit).2
             limit := s.overrunLimit, slowMargin := s.slowMarginSetting })).freshAccumulators d)

theorem State.fixGrade_eq (s : State) (d : Side) (g : Grade) (p : PriceSet) :
    s.fixGrade d g p = (((s.fixing d g p).requestZero d).requestSale d).raiseAll d := rfl

theorem State.fixing_frame (s : State) (d : Side) (g : Grade) (p : PriceSet) : s.fixing d g p = { s with
    ret := { s.ret with sides := s.ret.sides.set d { s.ret.sides.get d with sale := s.fixedSale d g p } }
    fp := s.fp.set d (s.fixedFp d g p), met := (s.fixing d g p).met, rev := (s.fixing d g p).rev } := rfl

/-- The state before demand is raised. -/
theorem State.fixing_asked (s : State) (d : Side) (g : Grade) (p : PriceSet) : ((s.fixing d g p).requestZero d).requestSale d = { s with
    ret := { s.ret with sides := s.ret.sides.set d { s.ret.sides.get d with sale := s.fixedSale d g p } }
    fp := s.fp.set d (s.fixedFp d g p), met := (s.fixing d g p).met
    disp := ((s.disp.request (saleRole d) .zero).requestAll (saleRole d) .sale), rev := (s.fixing d g p).rev } := by
  rw [State.requestSale, State.requestZero, State.fixing_frame]
  rfl

/-- What the fixing of a grade leaves alone, and what it gives the sale and the fueling point. -/
theorem State.fixGrade_frame (s : State) (d : Side) (g : Grade) (p : PriceSet) : s.fixGrade d g p = { s with
    ret := { s.ret with sides := s.ret.sides.set d { s.ret.sides.get d with sale := s.fixedSale d g p } }
    fp := s.fp.set d (s.fixedFp d g p), met := (s.fixing d g p).met, mot := (s.fixGrade d g p).mot
    disp := ((s.disp.request (saleRole d) .zero).requestAll (saleRole d) .sale), rev := (s.fixing d g p).rev } := by
  rw [State.fixGrade_eq, State.raiseAll_frame, State.fixing_asked]

theorem State.fixing_meter (s : State) (d : Side) (g : Grade) (p : PriceSet) (m : Meter) :
    (s.fixing d g p).meter m = if m.side = d then { s.meter m with saleAcc := 0, saleV := 0 } else s.meter m :=
  State.freshAccumulators_meter _ d m

theorem State.fixGrade_asked (s : State) (d : Side) (g : Grade) (p : PriceSet) :
    s.disp.Asked (s.fixGrade d g p).disp (fun q k => (k = .sale ∧ s.disp.showsWith (saleRole d) q) ∨ (k = .zero ∧ q = saleRole d)) := by
  rw [State.fixGrade_frame]
  have hz := s.disp.request_asked (saleRole d) .zero
  refine (hz.trans (Display.requestAll_asked _ (saleRole d) .sale)).iff fun q k => ?_
  have hs : (s.disp.request (saleRole d) .zero).showsWith (saleRole d) q ↔ s.disp.showsWith (saleRole d) q := by
    rw [Display.showsWith, Display.showsWith, hz.heads]
  rw [hs]
  tauto

/-! ## The evaluation of a side in STARTING whose grade is not fixed (R14, R15) -/

section evaluated
variable {s : State} {d : Side} {g : Grade} {p : PriceSet} (hst : s.fpState d = .starting) (ha : s.pw.state = .active)
  (hg2 : (s.fp.get d).gate2 = false)
include hst ha hg2

omit hg2 in
/-- With gate 2 not met the side goes on waiting in STARTING. -/
theorem State.evalStarting_gate2 (h : ((s.tryFix d).fp.get d).gate2 = false) : s.evalStarting d = (s.tryFix d).testGate3 d := by
  have hmet : (((s.tryFix d).testGate3 d).fp.get d).gatesMet = false := by
    rw [State.testGate3, State.updFp_fp, Sides.get_set_same]
    simp [FuelPoint.gatesMet, h]
  rw [State.evalStarting, if_pos ⟨hst, ha⟩]
  dsimp only
  rw [hmet]
  rfl

variable (hnone : (s.sale d).grade = none)
include hnone

/-- The grade that is offered is fixed. -/
theorem State.evalStarting_fixes (ho : s.offeredGrade d = some g) (hp : s.ret.applied.get d = some p) (hfix : s.gradeFixable d g = true) :
    s.evalStarting d = (s.fixGrade d g p).testGate3 d := by
  have htry : s.tryFix d = s.fixGrade d g p := by
    unfold State.tryFix
    rw [hnone, ho, hp]
    exact if_pos hfix
  have hgate : ((s.tryFix d).fp.get d).gate2 = false := by
    rw [htry, State.fixGrade_frame]
    simp only [Sides.get_set_same]
    exact hg2
  rw [State.evalStarting_gate2 hst ha hgate, htry]

/-- Nothing is fixed where no grade is offered, or none is fixable, or no price set is applied: gate 3 is tested and not met. -/
theorem State.evalStarting_waits (hno : (∀ g, ¬ (s.offeredGrade d = some g ∧ s.gradeFixable d g = true)) ∨ s.ret.applied.get d = none) :
    s.evalStarting d = s.updFp d (fun f => { f with gate3 := false }) := by
  have htry : s.tryFix d = s := by
    unfold State.tryFix
    split
    · rename_i g p _ ho hp
      refine if_neg fun hfix => ?_
      rcases hno with hno | hno
      · exact hno g ⟨ho, hfix⟩
      · rw [hno] at hp
        cases hp
    · rfl
  rw [State.evalStarting_gate2 hst ha (by rw [htry]; exact hg2), htry, State.testGate3, hnone]
  rfl

end evaluated

/-! ## The fixing in the words of the claims -/

section congruence
variable {s t u : State} {d : Side} {f : FuelPoint} {x : Sale} {g : Grade} {p : PriceSet}

theorem State.GradeFixed.congr (h : s.GradeFixed t d f x g p) (hfp : u.fp = t.fp) (hret : u.ret = t.ret) (hmot : u.mot = t.mot)
    (hmet : u.met = t.met) : s.GradeFixed u d f x g p := by
  have hsale : u.sale d = t.sale d := by rw [State.sale, hret]; rfl
  have hmotor (m : Product) : u.motor m = t.motor m := by rw [State.motor, hmot]; rfl
  have hrun (set : Three Bool) : u.runningAll set = t.runningAll set := by simp only [State.runningAll, hmotor]
  obtain ⟨reason, hrule, hf⟩ := h.close
  refine ⟨⟨reason, by rw [hsale]; exact hrule, by rw [hfp, hrun]; exact hf⟩, by rw [hret, hsale]; exact h.ret,
    fun m => by rw [hmotor]; exact h.demand m, fun l ha => ⟨by rw [hmot]; exact (h.motors l ha).queue, fun m => by rw [hmotor]; exact (h.motors l ha).motors m⟩,
    fun m hm hc => by rw [State.meter, hmet]; exact h.meters m hm hc, by rw [hmet]; exact h.otherMet⟩

end congruence

/-- The fixing of a grade at a state `y` of an event that began at `s`: the fueling point `f` and the sale `x` are as the fixing finds them, the
drives and the settings as they stood. -/
theorem State.gradeFixed {s y : State} {d : Side} {f : FuelPoint} {x : Sale} {g : Grade} {p : PriceSet} (hfp : y.fp = s.fp.set d f)
    (hret : y.ret = { s.ret with sides := s.ret.sides.set d { s.ret.sides.get d with sale := x } }) (hmot : y.mot = s.mot) (hpw : y.pw = s.pw)
    (hst : y.store = s.store) (hrtc : y.rtc = s.rtc)
    (hmet : ∀ m, m.side = d → (s.meter m).attr = .unassigned ∨ s.fpState d ≠ .starting → y.meter m = (s.meter m).under .unassigned)
    (hother : y.met.get d.other = s.met.get d.other) : s.GradeFixed ((y.fixGrade d g p).testGate3 d) d f x g p := by
  have hsale : y.sale d = x := by rw [State.sale, hret]; exact congrArg RetSide.sale (Sides.get_set_same _ _ _)
  have hset : y.gradeProducts d g = s.gradeProducts d g := by simp only [State.gradeProducts, State.gradeShare, State.copyField, hst]
  have hlimit : y.overrunLimit = s.overrunLimit := by simp only [State.overrunLimit, State.copyField, hst]
  have hmargin : y.slowMarginSetting = s.slowMarginSetting := by simp only [State.slowMarginSetting, State.copyField, hst]
  have hfixed : y.fixedSale d g p = x.fixed g (s.gradeProducts d g) s.rtc p s.overrunLimit := by
    rw [State.fixedSale, hsale, hset, hrtc, hlimit]
  obtain ⟨w, hw⟩ : ∃ w, w = y.fixGrade d g p := ⟨_, rfl⟩
  have hframe := hw.trans (State.fixGrade_frame y d g p)
  have hwsale : w.sale d = x.fixed g (s.gradeProducts d g) s.rtc p s.overrunLimit := by
    rw [← hfixed, State.sale, hframe]
    exact congrArg RetSide.sale (Sides.get_set_same _ _ _)
  have hgate : w.testGate3 d = w.updFp d (fun f => { f with gate3 := w.runningAll (s.gradeProducts d g) }) := by
    rw [State.testGate3, hwsale]
    rfl
  have hwret : w.ret = { s.ret with sides := s.ret.sides.set d { s.ret.sides.get d with
      sale := x.fixed g (s.gradeProducts d g) s.rtc p s.overrunLimit } } := by
    rw [hframe, ← hfixed, hret]
    simp
  obtain ⟨v, hvdef⟩ : ∃ v, v = ((y.fixing d g p).requestZero d).requestSale d := ⟨_, rfl⟩
  have hv : w = v.raiseAll d := by rw [hw, hvdef, State.fixGrade_eq]
  have hvframe := hvdef.trans (State.fixing_asked y d g p)
  have hvdrawn : (v.sale d).drawn = s.gradeProducts d g := by
    have hsale' : v.sale d = y.fixedSale d g p := by
      rw [hvframe, State.sale]
      exact congrArg RetSide.sale (Sides.get_set_same _ _ _)
    rw [hsale', hfixed]
    rfl
  have hvmot : v.mot = s.mot := by rw [hvframe, hmot]
  rw [← hw, hgate]
  refine ⟨⟨(targetOf x.presetKind x.preset (p.price x.level g) s.overrunLimit).2, ?_, ?_⟩, ?_, fun m => ?_, fun l ha => ?_, fun m hm hc => ?_, ?_⟩
  · rw [State.updFp_sale, hwsale]
    exact targetOf_rule _ _ _ _
  · rw [State.updFp_fp, hframe, hfp, State.fixedFp, hfp, hsale, hlimit, hmargin]
    simp
    rfl
  · rw [State.updFp_ret, hwret, State.updFp_sale, hwsale]
    rfl
  · rw [State.updFp_motor, hv, State.raiseAll_demand, hvdrawn, State.motor, hvmot]
    rfl
  · have hr := State.raiseAll_raised l ha d hvmot (by rw [hvframe, hpw]) (by rw [hvframe, hst])
    rw [hvdrawn, ← hv] at hr
    exact ⟨hr.queue, hr.motors⟩
  · have hm' : w.meter m = (y.fixing d g p).meter m := by rw [hframe]; rfl
    rw [State.updFp_meter, hm', State.fixing_meter, if_pos hm, hmet m hm hc]
  · have hmet' : w.met = (y.fixing d g p).met := by rw [hframe]
    have hfresh : (y.fixing d g p).met.get d.other = y.met.get d.other := by cases d <;> rfl
    rw [State.updFp_met, hmet', hfresh, hother]

end Sys2Proof.Machine
end

section
/-! PROOFS. PAUSE and RESUME. -/

namespace Sys2Proof.Machine

/-! ## PAUSE (R18) -/

theorem attributed_paused (x : Sale) (p : Product) : attributed .paused x p = x.claims p := attributed_settling x p

theorem State.orderPause_pauses {s : State} {o : Order} {d : Side} (ha : s.pw.state = .active) (hd : s.fpState d = .starting ∨ s.fpState d = .fueling) :
    s.orderPause o d = (s.pauseFp d).complete o.ref .ok 0 := by
  rw [State.orderPause, State.unlessHalted_active (by simp [ha]), if_pos hd]

section pauses
variable (s : State) (d : Side)

/-- A side that pauses, before its state changes (R18, R49, R63). -/
def State.pausing : State :=
  (((s.closeSide d).stopBlend d).dropAll d).updFp d (fun f =>
    { f with start := none, noFlow := none, pause := some 300000, base := some (s.sale d).volume, overrun := 0, overrunMade := false
             flowMade := false })

theorem State.pauseFp_eq : s.pauseFp d = (s.pausing d).setFpState d .paused := rfl

theorem State.pausing_frame : s.pausing d = { s with
    fp := s.fp.set d { s.fp.get d with
      start := none, noFlow := none, pause := some 300000, base := some (s.sale d).volume, overrun := 0, overrunMade := false, flowMade := false }
    vlv := s.vlv.set d (s.vlv.get d).halted, mot := (s.pausing d).mot } := by
  unfold State.pausing
  apply State.ext_fields <;> simp [State.closeSide, State.stopBlend, ValveSide.halted]

theorem State.pauseFp_frame : s.pauseFp d = { s with
    fp := s.fp.set d { s.fp.get d with
      state := .paused, start := none, noFlow := none, pause := some 300000, base := some (s.sale d).volume, overrun := 0, overrunMade := false
      flowMade := false }
    vlv := s.vlv.set d (s.vlv.get d).halted, mot := (s.pausing d).mot, met := (s.pauseFp d).met, port := (s.pauseFp d).port } := by
  rw [State.pauseFp_eq, State.pausing_frame]
  apply State.ext_fields <;> simp

theorem State.pausing_demand (m : Product) : ((s.pausing d).motor m).demand = (s.motor m).demand.set d false :=
  State.dropAll_demand ((s.closeSide d).stopBlend d) d m

theorem State.pausing_dropped (l : s.DriveLaw) : s.DemandDropped (s.pausing d) d :=
  (State.dropAll_dropped (t := (s.closeSide d).stopBlend d) l d rfl rfl).congr rfl

variable {s d} (hd : s.fpState d ≠ .paused)
include hd

theorem State.pausing_ne : (s.pausing d).fpState d ≠ .paused := by
  rw [State.pausing_frame, State.fpState, Sides.get_set_same]
  exact hd

theorem State.pauseFp_port : (s.pauseFp d).port = { s.port with attn := s.port.attn ||| (fpFlag d).mask } := by
  rw [State.pauseFp_eq, State.setFpState_port, if_neg (State.pausing_ne hd), State.pausing_frame]
  rfl

theorem State.pauseFp_meter (p : Product) : (s.pauseFp d).meter ⟨d, p⟩ = (s.meter ⟨d, p⟩).under ((s.sale d).claims p) := by
  rw [State.pauseFp_eq, State.setFpState_meter _ _ _ _ (State.pausing_ne hd), if_pos rfl, attributed_paused, Channel.under_eq_attribute,
    State.pausing_frame]
  rfl

omit hd in
theorem State.pauseFp_otherMet : (s.pauseFp d).met.get d.other = s.met.get d.other := by
  rw [State.pauseFp_eq, State.setFpState_met_other, State.pausing_frame]

end pauses

/-- PAUSE of a sale that waits or flows (R18). -/
theorem State.Offers.pauses {s : State} {n : Nat} {d : Side} (h : s.Offers .pause n (sideCode d)) (ha : s.pw.state = .active)
    (hd : s.fpState d = .starting ∨ s.fpState d = .fueling) :
    ∃ t, exec .pause s = .next t ∧ s.Answered t n .ok 0 [fpFlag d]
      ∧ t.fp = s.fp.set d { s.fp.get d with state := .paused, start := none, noFlow := none, pause := some 300000,
                                            base := some (s.sale d).volume, overrun := 0, overrunMade := false, flowMade := false }
      ∧ t.vlv = s.vlv.set d (s.vlv.get d).halted
      ∧ (∀ m, (t.motor m).demand = (s.motor m).demand.set d false) ∧ (s.DriveLaw → s.DemandDropped t d)
      ∧ (∀ p, t.meter ⟨d, p⟩ = (s.meter ⟨d, p⟩).under ((s.sale d).claims p)) ∧ t.met.get d.other = s.met.get d.other
      ∧ t = { s with fp := t.fp, vlv := t.vlv, mot := t.mot, met := t.met, mem := t.mem, port := t.port, rev := t.rev } := by
  have hne : s.fpState d ≠ .paused := by rcases hd with hd | hd <;> rw [hd] <;> decide
  have he : exec .pause s = .next (publish s ((s.takeSlot n).1.orderPause (s.takeSlot n).2 d)) := h.sideEvent State.orderPause
  rw [State.orderPause_pauses (s := (s.takeSlot n).1) ha hd] at he
  obtain ⟨u, hu⟩ : ∃ u, u = (s.takeSlot n).1.pauseFp d := ⟨_, rfl⟩
  have hframe := hu.trans (State.pauseFp_frame (s.takeSlot n).1 d)
  have hport := State.pauseFp_port (s := (s.takeSlot n).1) hne
  have hmeter := State.pauseFp_meter (s := (s.takeSlot n).1) hne
  have hother := State.pauseFp_otherMet (s := (s.takeSlot n).1) (d := d)
  rw [← hu] at he hport hmeter hother
  have hmot : u.mot = ((s.takeSlot n).1.pausing d).mot := by rw [hframe]
  refine ⟨_, he, h.answeredNow s .ok 0 [fpFlag d] (by rw [hframe]) (by rw [hport, flagsOf_one]; rfl), ?_, ?_, fun m => ?_, fun l => ?_,
    fun p => ?_, ?_, ?_⟩
  · rw [publish_fp, State.complete_fp, hframe]
    rfl
  · rw [publish_vlv, State.complete_vlv, hframe]
    rfl
  · rw [publish_motor, State.complete_motor, State.motor, hmot]
    exact State.pausing_demand (s.takeSlot n).1 d m
  · have hd' := State.pausing_dropped (s.takeSlot n).1 d (l.congr rfl rfl (fun _ => rfl) (fun _ => rfl) rfl)
    exact (hd'.congr (by rw [publish_mot, State.complete_mot, hmot])).from rfl rfl
  · rw [publish_meter, State.complete_meter]
    exact hmeter p
  · rw [publish_met, State.complete_met]
    exact hother
  · apply State.ext_fields <;> first | with_reducible rfl | (simp; rw [hframe]; rfl)

/-! ## The motors that a resumed sale finds running (R19, R67, R71) -/

/-- A motor that runs once a sale demands it: RUNNING, or running on without demand. -/
def MotorRec.runs (r : MotorRec) : Prop := r.state = .running ∨ (r.state = .runOn ∧ r.demand = ⟨false, false⟩)

theorem State.grant_motor (s : State) (m : Product) : s.grant.motor m = s.motor m ∨ (s.grant.motor m).state = .starting := by
  unfold State.grant
  split
  · split
    · exact .inl rfl
    · rename_i q rest _
      rw [State.motor_updMotor]
      split
      · exact .inr rfl
      · exact .inl rfl
  · exact .inl rfl

theorem MotorRec.not_runs_of_starting {r : MotorRec} (h : r.state = .starting) : ¬ r.runs := by
  rintro (hr | hr)
  · rw [h] at hr
    cases hr
  · rw [h] at hr
    cases hr.1

theorem demand_set_true (x : Sides Bool) (d : Side) : x.set d true ≠ ⟨false, false⟩ := by
  obtain ⟨a, b⟩ := x
  cases d <;> simp [Sides.set]

section running
variable {s : State} {d : Side}

/-- A motor that does not run is not made to run as demand is raised. -/
theorem State.raiseDemand_not_runs (q : Product) {m : Product} (h : ¬ (s.motor m).runs) : ¬ ((s.raiseDemand d q).motor m).runs := by
  have hset : ¬ ((s.updMotor q (fun r => { r with demand := r.demand.set d true })).motor m).runs := by
    rw [State.motor_updMotor]
    split
    · rename_i hm
      subst hm
      rintro (hr | hr)
      · exact h (.inl hr)
      · exact demand_set_true _ _ hr.2
    · exact h
  unfold State.raiseDemand
  dsimp only
  split
  · rename_i hzero
    split
    · split
      · unfold State.joinQueue
        rcases State.grant_motor (((s.updMotor q (fun r => { r with demand := r.demand.set d true })).updMotor q
          (fun r => { r with state := .queued })).setStartQueue
            ((s.updMotor q (fun r => { r with demand := r.demand.set d true })).mot.queue ++ [q])) m with hg | hg
        · rw [hg, State.setStartQueue_motor, State.motor_updMotor]
          split
          · rintro (hr | hr)
            · cases hr
            · cases hr.1
          · exact hset
        · exact MotorRec.not_runs_of_starting hg
      · exact hset
    · rename_i hst
      rw [State.motor_updMotor]
      split
      · rename_i hm
        subst hm
        exact absurd (.inr ⟨hst, demandCount_eq_zero.mp hzero⟩) h
      · exact hset
    · exact hset
  · exact hset

/-- A motor that runs is RUNNING once demand on it is raised; the other motors and the start queue stand. -/
theorem State.raiseDemand_runs {m : Product} (h : (s.motor m).runs) :
    ((s.raiseDemand d m).motor m).state = .running ∧ ∀ q, q ≠ m → (s.raiseDemand d m).motor q = s.motor q := by
  have hne {q : Product} (hq : q ≠ m) : (s.updMotor m (fun r => { r with demand := r.demand.set d true })).motor q = s.motor q :=
    State.updMotor_motor_ne s _ hq
  unfold State.raiseDemand
  dsimp only
  rcases h with h | h
  · rw [h]
    split
    · exact ⟨by rw [State.updMotor_motor]; exact h, fun q hq => hne hq⟩
    · exact ⟨by rw [State.updMotor_motor]; exact h, fun q hq => hne hq⟩
  · rw [if_pos (demandCount_eq_zero.mpr h.2), h.1]
    exact ⟨by rw [State.updMotor_motor], fun q hq => by rw [State.updMotor_motor_ne _ _ hq, hne hq]⟩

theorem State.raiseOne_not_runs (q : Product) {m : Product} (h : ¬ (s.motor m).runs) : ¬ ((s.raiseOne d q).motor m).runs := by
  unfold State.raiseOne
  split
  · exact State.raiseDemand_not_runs q h
  · exact h

/-- A motor of the product set that does not run is not RUNNING once demand is raised on the set. -/
theorem State.raiseAll_waits {m : Product} (hm : (s.sale d).drawn.get m = true) (h : ¬ (s.motor m).runs) :
    (s.raiseAll d).runningAll (s.sale d).drawn = false := by
  have hr : ¬ ((s.raiseAll d).motor m).runs := State.raiseOne_not_runs _ (State.raiseOne_not_runs _ (State.raiseOne_not_runs _ h))
  have hst : ((s.raiseAll d).motor m).state ≠ .running := fun hc => hr (.inl hc)
  refine Bool.eq_false_iff.mpr fun hall => ?_
  have hone := List.all_eq_true.mp hall m (by cases m <;> decide)
  rw [hm] at hone
  exact hst (by simpa using hone)

/-- Demand raised on a motor of a set that runs leaves every motor of the set running. -/
theorem State.raiseOne_runs (q : Product) (h : ∀ m, (s.sale d).drawn.get m = true → (s.motor m).runs) :
    (∀ m, (s.sale d).drawn.get m = true → ((s.raiseOne d q).motor m).runs)
      ∧ ∀ m, (s.sale d).drawn.get m = true → m = q ∨ (s.motor m).state = .running → ((s.raiseOne d q).motor m).state = .running := by
  unfold State.raiseOne
  split
  · rename_i hq
    obtain ⟨hrun, hrest⟩ := State.raiseDemand_runs (d := d) (h q hq)
    refine ⟨fun m hm => ?_, fun m hm hc => ?_⟩
    · by_cases hmq : m = q
      · subst hmq
        exact .inl hrun
      · rw [hrest m hmq]
        exact h m hm
    · by_cases hmq : m = q
      · subst hmq
        exact hrun
      · rw [hrest m hmq]
        exact hc.resolve_left hmq
  · rename_i hq
    exact ⟨h, fun m hm hc => hc.elim (fun he => absurd (he ▸ hm) hq) id⟩

theorem State.raiseAll_runs (h : ∀ m, (s.sale d).drawn.get m = true → (s.motor m).runs) :
    (s.raiseAll d).runningAll (s.sale d).drawn = true := by
  have hsale (y : State) (q : Product) : (y.raiseOne d q).sale d = y.sale d := by rw [State.raiseOne_frame]; rfl
  obtain ⟨h1, r1⟩ := State.raiseOne_runs (s := s) .p1 h
  obtain ⟨h2, r2⟩ := State.raiseOne_runs (s := s.raiseOne d .p1) .p2 (by rw [hsale]; exact h1)
  obtain ⟨h3, r3⟩ := State.raiseOne_runs (s := (s.raiseOne d .p1).raiseOne d .p2) .p3 (by rw [hsale]; exact h2)
  rw [hsale] at r2
  rw [hsale, hsale] at r3
  refine State.runningAll_of fun m hm => r3 m hm ?_
  cases m
  · exact .inr (r2 _ hm (.inr (r1 _ hm (.inl rfl))))
  · exact .inr (r2 _ hm (.inl rfl))
  · exact .inl rfl

end running

/-! ## RESUME (R19) -/

/-- The fueling point of a side that resumes, in STARTING (R7, R13, R19, R49). -/
def FuelPoint.resumed (f : FuelPoint) (h : Hose) : FuelPoint :=
  { f with state := .starting, pause := none, start := some 60000, base := none, overrun := 0, overrunMade := false, flowMade := false, gate3 := false
           button := if h = .h2 then none else f.button
           pressTimer := if h = .h2 then none else f.pressTimer
           pressSelects := decide (h = .h1) && f.pressTimer.isSome && f.button.isSome }

theorem State.orderResume_resumes {s : State} {o : Order} {d : Side} (ha : s.pw.state = .active) (hd : s.fpState d = .paused) :
    s.orderResume o d = (s.resumeFp d).complete o.ref .ok 0 := by
  rw [State.orderResume, State.unlessHalted_active (by simp [ha]), if_pos hd]

section resumes
variable (s : State) (d : Side)

/-- A side that resumes, as it enters STARTING. -/
def State.resuming : State :=
  (s.updFp d (fun f => { f with pause := none, base := none, overrun := 0, overrunMade := false, flowMade := false })).enterStarting d

theorem State.resuming_frame : s.resuming d = { s with
    fp := s.fp.set d ((s.fp.get d).resumed (s.sale d).hose), met := (s.resuming d).met, port := (s.resuming d).port } := by
  unfold State.resuming State.enterStarting
  apply State.ext_fields <;> simp [FuelPoint.resumed, FuelPoint.entering]

variable {s d}

theorem State.resuming_sale : (s.resuming d).sale d = s.sale d := by
  rw [State.resuming_frame]
  rfl

theorem State.resuming_otherMet : (s.resuming d).met.get d.other = s.met.get d.other := by
  unfold State.resuming State.enterStarting
  rw [State.setFpState_met_other]
  rfl

theorem State.resumeFp_fixed (hg : (s.sale d).grade.isSome = true) : s.resumeFp d = ((s.resuming d).raiseAll d).evalStarting d := by
  have hs : ((s.resuming d).sale d).grade.isSome = true := by rw [State.resuming_sale]; exact hg
  exact congrArg (fun x : State => x.evalStarting d) (if_pos hs)

theorem State.resumeFp_open (hg : (s.sale d).grade = none) : s.resumeFp d = (s.resuming d).evalStarting d := by
  have hs : ¬ ((s.resuming d).sale d).grade.isSome = true := by rw [State.resuming_sale, hg]; decide
  exact congrArg (fun x : State => x.evalStarting d) (if_neg hs)

variable (hd : s.fpState d = .paused)
include hd

theorem State.resuming_port : (s.resuming d).port = { s.port with attn := s.port.attn ||| (fpFlag d).mask } := by
  unfold State.resuming State.enterStarting
  rw [State.setFpState_port]
  simp [State.fpState_updFp, FuelPoint.entering, show (s.fp.get d).state = .paused from hd]

theorem State.resuming_meter (m : Meter) (hm : m.side = d) : (s.resuming d).meter m = (s.meter m).under .unassigned := by
  unfold State.resuming State.enterStarting
  rw [State.setFpState_meter, if_pos hm]
  · rfl
  · simp [State.fpState_updFp, FuelPoint.entering, show (s.fp.get d).state = .paused from hd]

end resumes

/-! ### The grade that is offered at an entry to STARTING (R7, R14) -/

/-- What the claims call an offer is what the entry to STARTING finds: the grade of the active hose, fixable under the authorization. -/
theorem State.offers_iff {s y : State} {d : Side} {a : AuthRecord} {h : Hose} (hsale : (y.sale d).hose = h) (hauth : (y.fp.get d).auth = some a)
    (hbutton : h = .h1 → (y.fp.get d).button = (s.fp.get d).button)
    (hsel : h = .h1 → (y.fp.get d).pressSelects = ((s.fp.get d).pressTimer.isSome && (s.fp.get d).button.isSome))
    (hst : y.store = s.store) (hmot : y.mot = s.mot) (g : Grade) :
    s.offers d h a g ↔ (y.offeredGrade d = some g ∧ y.gradeFixable d g = true) := by
  have hset : y.gradeProducts d g = s.gradeProducts d g := by simp only [State.gradeProducts, State.gradeShare, State.copyField, hst]
  have hen : y.gradeEnabled d g = s.gradeEnabled d g := by simp only [State.gradeEnabled, hst]
  have hmotor (m : Product) : y.motor m = s.motor m := by rw [State.motor, hmot]; rfl
  have hfault (set : Three Bool) : y.faultIn set = s.faultIn set := by simp only [State.faultIn, hmotor]
  have hfix : y.gradeFixable d g = true ↔ a.mask.get g = true ∧ s.gradeEnabled d g = true ∧ s.faultIn (s.gradeProducts d g) = false := by
    rw [State.gradeFixable, hauth, hen, hset, hfault]
    simp [and_assoc]
  rw [hfix]
  unfold State.offers
  refine and_congr_left fun _ => ?_
  rw [State.offeredGrade, hsale]
  cases h
  case h1 =>
    rw [hbutton rfl, hsel rfl]
    cases (s.fp.get d).button <;> cases (s.fp.get d).pressTimer <;> simp
  case h2 => simp [eq_comm]

/-! ### The order -/

/-- RESUME of a PAUSED sale: what is left to show of the state `u` that the owner leaves (R19). -/
theorem State.Offers.resumes {s u : State} {n : Nat} {d : Side} (h : s.Offers .resume n (sideCode d)) (ha : s.pw.state = .active)
    (hd : s.fpState d = .paused) (hu : (s.takeSlot n).1.resumeFp d = u) (hmem : u.mem = (s.takeSlot n).1.mem)
    (hport : u.port = ((s.takeSlot n).1.resuming d).port) (hother : u.met.get d.other = s.met.get d.other) :
    let t := publish s (u.complete (s.takeSlot n).2.ref .ok 0)
    exec .resume s = .next t ∧ s.Answered t n .ok 0 [fpFlag d] ∧ t.met.get d.other = s.met.get d.other := by
  have he : exec .resume s = .next (publish s ((s.takeSlot n).1.orderResume (s.takeSlot n).2 d)) := h.sideEvent State.orderResume
  rw [State.orderResume_resumes (s := (s.takeSlot n).1) ha hd, hu] at he
  refine ⟨he, h.answeredNow s .ok 0 [fpFlag d] hmem ?_, by rw [publish_met, State.complete_met, hother]⟩
  rw [hport, State.resuming_port (s := (s.takeSlot n).1) hd, flagsOf_one]
  rfl

/-- Settles O13. -/
theorem pauseAndResumeMoveTheSale : Obligations.PauseAndResumeMoveTheSale := by
  refine ⟨fun s n d h ha hd => h.pauses ha hd, fun s n d h ha hd => ?_⟩
  obtain ⟨y, hy⟩ : ∃ y, y = (s.takeSlot n).1.resuming d := ⟨_, rfl⟩
  have hframe : y = { (s.takeSlot n).1 with fp := s.fp.set d ((s.fp.get d).resumed (s.sale d).hose), met := y.met, port := y.port } := by
    rw [hy]
    exact State.resuming_frame (s.takeSlot n).1 d
  have hyfp : y.fp.get d = (s.fp.get d).resumed (s.sale d).hose := by rw [hframe]; exact Sides.get_set_same _ _ _
  have hysale : y.sale d = s.sale d := by rw [hframe]; rfl
  have hymot : y.mot = s.mot := by rw [hframe]; rfl
  have hypw : y.pw = s.pw := by rw [hframe]; rfl
  have hyst : y.store = s.store := by rw [hframe]; rfl
  have hyd : y.fpState d = .starting := by rw [State.fpState, hyfp]; rfl
  have hymotor (m : Product) : y.motor m = s.motor m := by rw [State.motor, hymot]; rfl
  have hymet : y.met.get d.other = s.met.get d.other := by
    rw [hy]
    exact State.resuming_otherMet
  have hymeter (m : Meter) (hm : m.side = d) : y.meter m = (s.meter m).under .unassigned := by
    rw [hy]
    exact State.resuming_meter (s := (s.takeSlot n).1) hd m hm
  obtain ⟨v, hv⟩ : ∃ v, v = y.raiseAll d := ⟨_, rfl⟩
  have hvframe : v = { y with mot := v.mot } := by rw [hv]; exact State.raiseAll_frame y d
  have hvsale : v.sale d = s.sale d := by rw [hvframe]; exact hysale
  have hdemand (m : Product) : (v.motor m).demand = if (s.sale d).drawn.get m then (s.motor m).demand.set d true else (s.motor m).demand := by
    rw [hv, State.raiseAll_demand, hysale, hymotor]
  have hraised (l : s.DriveLaw) : s.DemandRaised v d (s.sale d).drawn := by
    rw [hv, ← hysale]
    exact State.raiseAll_raised l ha d hymot hypw hyst
  refine ⟨fun hg hwait => ?_, fun g hg h1 h2 hrun hlt => ?_, fun a hg h2 hauth => ⟨fun hno => ?_, fun g p ho hp => ?_⟩⟩
  · have hvd : v.fpState d = .starting := by rw [hvframe]; exact hyd
    have hvg : ∃ g, (v.sale d).grade = some g := by rw [hvsale]; exact Option.isSome_iff_exists.mp hg
    obtain ⟨g, hvg⟩ := hvg
    obtain ⟨u, hudef⟩ : ∃ u, u = v.updFp d (fun f => { f with gate3 := v.runningAll (s.sale d).drawn }) := ⟨_, rfl⟩
    have hgate : v.testGate3 d = u := by
      rw [hudef, State.testGate3, hvg, hvsale]
      rfl
    have hmet : (u.fp.get d).gatesMet = false := by
      rw [hudef, State.updFp_fp, Sides.get_set_same]
      rcases hwait with h2 | ⟨m, hm, hno⟩
      · have hv2 : (v.fp.get d).gate2 = false := by rw [hvframe, hyfp]; exact h2
        simp [FuelPoint.gatesMet, hv2]
      · have hwaits := State.raiseAll_waits (s := y) (d := d) (m := m) (by rw [hysale]; exact hm) (by rw [hymotor]; exact hno)
        rw [hysale, ← hv] at hwaits
        simp [FuelPoint.gatesMet, hwaits]
    have hu : (s.takeSlot n).1.resumeFp d = u := by
      rw [State.resumeFp_fixed (s := (s.takeSlot n).1) hg, ← hy, ← hv, State.evalStarting, if_pos ⟨hvd, by rw [hvframe, hypw]; exact ha⟩, State.tryFix_fixed hvg]
      dsimp only
      rw [hgate, hmet]
      rfl
    have hres := h.resumes ha hd hu (by rw [hudef, hvframe, hframe]; rfl) (by rw [hudef, hvframe, hy]; rfl)
      (by rw [hudef, hvframe]; exact hymet)
    have humot : u.mot = v.mot := by rw [hudef]; rfl
    have humotor (m : Product) : u.motor m = v.motor m := by rw [State.motor, humot]; rfl
    refine ⟨_, hres, ⟨fun m => ?_, fun l => ?_⟩, fun p => ?_, ?_, ?_⟩
    · rw [publish_motor, State.complete_motor, humotor]
      exact hdemand m
    · have hr := hraised l
      refine ⟨?_, fun m => ?_⟩
      · rw [publish_mot, State.complete_mot, humot]
        exact hr.queue
      · rw [publish_motor, State.complete_motor, humotor]
        exact hr.motors m
    · rw [publish_meter, State.complete_meter, hudef, State.updFp_meter, hvframe]
      exact hymeter ⟨d, p⟩ rfl
    · have hrun : (publish s (u.complete (s.takeSlot n).2.ref .ok 0)).runningAll (s.sale d).drawn = v.runningAll (s.sale d).drawn := by
        simp only [State.runningAll, publish_motor, State.complete_motor, humotor]
      rw [hrun, publish_fp, State.complete_fp, hudef, State.updFp_fp, hvframe, hframe]
      simp only [Sides.get_set_same, Sides.set_set]
      cases (s.sale d).hose <;> rfl
    · apply State.ext_fields <;> first | with_reducible rfl | (simp; rw [hudef, hvframe, hframe]; rfl)
  · obtain ⟨w, hw⟩ : ∃ w, w = v.updFp d (fun f => { f with gate3 := true }) := ⟨_, rfl⟩
    have hwsale : w.sale d = s.sale d := by rw [hw]; exact hvsale
    have hwd : w.fpState d = .starting := by rw [hw, State.fpState_updFp, if_pos rfl, hvframe]; exact hyd
    have hvrun : v.runningAll (v.sale d).drawn = true := by
      have hall := State.raiseAll_runs (s := y) (d := d) fun m hm => by rw [hymotor]; exact hrun m (by rw [hysale] at hm; exact hm)
      rw [hvsale, hv, ← hysale]
      exact hall
    have hu : (s.takeSlot n).1.resumeFp d = w.enterFueling d := by
      rw [State.resumeFp_fixed (s := (s.takeSlot n).1) (by rw [State.takeSlot_sale, hg]; rfl), ← hy, ← hv, hw]
      exact State.evalStarting_enters (g := g) (by rw [hvsale]; exact hg) (by rw [hvframe]; exact hyd) (by rw [hvframe, hypw]; exact ha)
        (by rw [hvframe, hyfp]; exact h1) (by rw [hvframe, hyfp]; exact h2) hvrun
    have hwg : (w.sale d).grade = some g := by rw [hwsale]; exact hg
    have hwlt : (w.sale d).volume < (w.sale d).closeTarget := by rw [hwsale]; exact hlt
    obtain ⟨u, hudef⟩ : ∃ u, u = w.enterFueling d := ⟨_, rfl⟩
    have huframe := hudef.trans (State.enterFueling_frame hwg hwlt)
    have huport := State.enterFueling_port hwg hwlt hwd
    have humeter := State.enterFueling_meter hwg hwlt hwd
    have huother := State.enterFueling_otherMet hwg hwlt
    rw [← hudef] at hu huport humeter huother
    have hwframe : w = { (s.takeSlot n).1 with
        fp := s.fp.set d { (s.fp.get d).resumed (s.sale d).hose with gate3 := true }, mot := v.mot, met := y.met, port := y.port } := by
      rw [hw, hvframe, hframe, State.updFp]
      simp
    have hyport : y.port = { (s.takeSlot n).1.port with attn := s.port.attn ||| (fpFlag d).mask } := by
      rw [hy]
      exact State.resuming_port (s := (s.takeSlot n).1) hd
    have huport' : u.port = y.port := by
      rw [huport, hwframe, hyport]
      simp [BitVec.or_assoc]
    have hres := h.resumes ha hd hu (by rw [huframe, hwframe]) (by rw [huport', hy]) (by rw [huother, hwframe]; exact hymet)
    have humot : u.mot = v.mot := by rw [huframe, hwframe]
    have humotor (m : Product) : u.motor m = v.motor m := by rw [State.motor, humot]; rfl
    refine ⟨_, hres, ⟨fun m => ?_, fun l => ?_⟩, ?_, State.flowStarts ?_, fun p => ?_, ?_⟩
    · rw [publish_motor, State.complete_motor, humotor]
      exact hdemand m
    · have hr := hraised l
      refine ⟨?_, fun m => ?_⟩
      · rw [publish_mot, State.complete_mot, humot]
        exact hr.queue
      · rw [publish_motor, State.complete_motor, humotor]
        exact hr.motors m
    · rw [publish_fp, State.complete_fp, huframe, hwframe]
      simp only [Sides.get_set_same, Sides.set_set]
      cases (s.sale d).hose <;> rfl
    · rw [publish_vlv, State.complete_vlv, huframe, hwsale, hwframe]
      simp only [Sides.get_set_same]
      rfl
    · rw [publish_meter, State.complete_meter, humeter, hwsale, hwframe]
      exact congrArg (fun c : Channel => c.under ((s.sale d).claims p)) (hymeter ⟨d, p⟩ rfl)
    · apply State.ext_fields <;> first | with_reducible rfl | (simp; rw [huframe, hwframe]; rfl)
  · have hoff := State.offers_iff (s := s) (y := y) (d := d) (a := a) (h := (s.sale d).hose) (by rw [hysale]) (by rw [hyfp]; exact hauth)
      (fun h1 => by rw [hyfp, FuelPoint.resumed, h1]; rfl) (fun h1 => by rw [hyfp, FuelPoint.resumed, h1]; rfl) hyst hymot
    have hu : (s.takeSlot n).1.resumeFp d = y.updFp d (fun f => { f with gate3 := false }) := by
      rw [State.resumeFp_open (s := (s.takeSlot n).1) hg, ← hy]
      exact State.evalStarting_waits hyd (by rw [hypw]; exact ha) (by rw [hyfp]; exact h2) (by rw [hysale]; exact hg)
        (.inl fun g hc => hno g ((hoff g).mpr hc))
    have hres := h.resumes ha hd hu (by rw [hframe]; rfl) (by rw [hy]; rfl) hymet
    refine ⟨_, hres, fun p => ?_, ?_, ?_⟩
    · rw [publish_meter, State.complete_meter, State.updFp_meter]
      exact hymeter ⟨d, p⟩ rfl
    · rw [publish_fp, State.complete_fp, State.updFp_fp, hframe]
      simp only [Sides.get_set_same, Sides.set_set]
      cases (s.sale d).hose <;> rfl
    · apply State.ext_fields <;> first | with_reducible rfl | (simp; rw [hframe]; rfl)
  · have hoff := State.offers_iff (s := s) (y := y) (d := d) (a := a) (h := (s.sale d).hose) (by rw [hysale]) (by rw [hyfp]; exact hauth)
      (fun h1 => by rw [hyfp, FuelPoint.resumed, h1]; rfl) (fun h1 => by rw [hyfp, FuelPoint.resumed, h1]; rfl) hyst hymot
    obtain ⟨hoffered, hfix⟩ := (hoff g).mp ho
    obtain ⟨u, hudef⟩ : ∃ u, u = (y.fixGrade d g p).testGate3 d := ⟨_, rfl⟩
    have hu : (s.takeSlot n).1.resumeFp d = u := by
      rw [State.resumeFp_open (s := (s.takeSlot n).1) hg, ← hy, hudef]
      exact State.evalStarting_fixes hyd (by rw [hypw]; exact ha) (by rw [hyfp]; exact h2) (by rw [hysale]; exact hg) hoffered
        (by rw [hframe]; exact hp) hfix
    have hfixed : s.GradeFixed u d ((s.fp.get d).resumed (s.sale d).hose) (s.sale d) g p := by
      rw [hudef]
      refine State.gradeFixed (by rw [hframe]) ?_ hymot hypw hyst (by rw [hframe]; rfl) (fun m hm _ => hymeter m hm) hymet
      rw [hframe]
      cases d <;> rfl
    have hmid := State.fixGrade_frame y d g p
    have hasked := State.fixGrade_asked y d g p
    have huframe : u = { (y.fixGrade d g p) with fp := u.fp } := by rw [hudef]; rfl
    have hres := h.resumes ha hd hu (by rw [huframe, hmid, hframe]) (by rw [huframe, hmid, hy]) (by rw [hfixed.otherMet])
    refine ⟨_, hres, ?_, ?_, ?_⟩
    · have hfinal := hfixed.congr (u := publish s (u.complete (s.takeSlot n).2.ref .ok 0)) (by simp) (by simp) (by simp) (by simp)
      convert hfinal using 1
      cases (s.sale d).hose <;> rfl
    · rw [publish_disp, State.complete_disp, huframe]
      rw [show y.disp = s.disp by rw [hframe]; rfl] at hasked
      exact hasked
    · apply State.ext_fields <;> first | with_reducible rfl | (simp; rw [huframe, hmid, hframe]; rfl)

end Sys2Proof.Machine
end

section
/-! PROOFS. The CLOCK phase of a wake, and the takes that reach no owner. -/

namespace Sys2Proof.Machine

/-! ## The CLOCK phase (R154, R155) -/

theorem flagsOf_power : flagsOf [.power] = Attn.power.mask := flagsOf_one _

/-- The end of the CLOCK phase with the clock source INTERNAL (R151, R154). -/
theorem State.degrade_endClock (s : State) (why : ClockFail) : (s.degrade why).endClock = { s with
    pw := { s.pw with clock := .internal, clockFail := some why, pll := false, degraded := true, phase := .store
                      crystalWatch := none, lockWait := none }
    port := { s.port with attn := s.port.attn ||| Attn.power.mask } } := by
  have hor : s.port.attn ||| Attn.power.mask ||| Attn.power.mask = s.port.attn ||| Attn.power.mask := by
    rw [BitVec.or_assoc, BitVec.or_self]
  apply State.ext_fields <;> first | with_reducible rfl | rfl | skip
  exact congrArg (fun a => { s.port with attn := a }) hor

/-- What a crystal stop does to one side (R155): a sale in progress carries CLOCK_DEGRADED. -/
theorem State.degradeSale_frame (s : State) (d : Side) : s.degradeSale d = { s with
    ret := { s.ret with
      sides := s.ret.sides.set d
        (if s.inSale d then { s.ret.sides.get d with sale := { s.sale d with degraded := true } } else s.ret.sides.get d) }
    rev := (s.degradeSale d).rev } := by
  unfold State.degradeSale
  split
  · rfl
  · have hs : s.ret.sides.set d (s.ret.sides.get d) = s.ret.sides := by cases d <;> rfl
    rw [hs]

/-- Settles O50, event by event. -/
theorem theClockPhaseChoosesTheSource : Obligations.TheClockPhaseChoosesTheSource := by
  intro s hs
  dsimp only
  rw [flagsOf_power]
  have clock (hw : s.pw.state = .waking) (hp : s.pw.phase = .clock) : s.inClock = true := by simp [State.inClock, hw, hp]
  refine ⟨fun hw hp hc => ⟨?_, ?_⟩, fun hw hp hl => ⟨?_, fun hr => ?_, fun hr => ?_⟩, fun hoff => ?_, fun hpll hosc => ?_⟩
  · exact ⟨_, (event_steady hs).trans (by rw [if_pos ⟨clock hw hp, hc⟩]), rfl⟩
  · refine ⟨_, (event_steady hs).trans (by rw [if_pos ⟨clock hw hp, hc⟩]), ?_⟩
    rw [State.degrade_endClock]
    rfl
  · exact ⟨_, (event_steady hs).trans (by rw [if_pos ⟨clock hw hp, hl⟩]), rfl⟩
  · exact ⟨_, (event_steady hs).trans (by rw [if_pos ⟨clock hw hp, hl⟩, if_neg (by simp [hr])]), rfl⟩
  · refine ⟨_, (event_steady hs).trans (by rw [if_pos ⟨clock hw hp, hl⟩, if_pos hr]), ?_⟩
    rw [State.degrade_endClock]
    rfl
  · have hn : ¬ (s.pw.pll = true ∧ s.pw.osc = true) := by
      rintro ⟨h1, h2⟩
      simp [h1, h2] at hoff
    exact ⟨_, (event_steady hs).trans (by rw [if_neg hn]), rfl⟩
  · refine ⟨_, (event_steady hs).trans (by rw [if_pos ⟨hpll, hosc⟩]), ?_⟩
    rw [State.degradeSale_frame, State.degradeSale_frame]
    rfl

/-! ## Takes that reach no owner (R187, R188, R189) -/

/-- An event that rewrites the device status record raises its revision word by 2 (R185). -/
theorem publish_device {s t : State} (h : RecordId.device ∈ t.rev.force) : (publish s t).rev.device = (t.rev.device + 2) % 65536 := by
  simp [nextRevisions, h, bumpIf]

theorem kindNamesOrder_iff (k : Nat) : kindNamesOrder k = true ↔ ∃ x : OrderKind, k = x.code := by
  simp only [kindNamesOrder, List.any_eq_true, beq_iff_eq]
  constructor
  · rintro ⟨x, -, hx⟩
    exact ⟨x, hx.symm⟩
  · rintro ⟨x, rfl⟩
    exact ⟨x, by cases x <;> decide, rfl⟩

/-- The take of the slot at the head of the queue, answered in the same event, whoever answers it (R189, R190). -/
theorem State.takeAndAnswer_answered {s : State} {n : Nat} (b : State) (hp : s.PortLaw) (hn : n < 16) (code : ResultCode) (detail : Nat) :
    s.Answered (publish b (s.takeAndAnswer n code detail)) n code detail [] := by
  obtain ⟨h1, h2⟩ := State.just_taken (u := (s.takeSlot n).1) hp hn rfl rfl
  have hc := State.complete_taken (u := (s.takeSlot n).1) (r := (s.takeSlot n).2.ref) h1 h2 code detail
  have wf := Memory.writeHeader_wf hp.memory n 2 0 0 0 (some s.rtc)
  have tm : (publish b (s.takeAndAnswer n code detail)).mem =
      (s.takeSlot n).1.mem.writeHeader n 3 code.code (doneTime s.rtc s.rtc) detail none := by
    rw [State.takeAndAnswer, publish_mem, hc, State.attn_mem, State.setMem_mem]
    rfl
  have trtc : (publish b (s.takeAndAnswer n code detail)).rtc = s.rtc := by simp [State.takeAndAnswer]
  refine ⟨?_, ?_, ?_, ?_, ?_, ?_, fun a ha => ?_⟩
  · rw [State.takeAndAnswer, publish_port, hc, flagsOf_one]
    rfl
  · simp only [State.slotState, tm]
    exact Memory.writeHeader_state wf _ _ _ _ _ _
  · rw [tm]
    exact Memory.writeHeader_code wf _ _ _ _ _ _
  · rw [tm, trtc]
    exact Memory.writeHeader_done wf _ _ _ _ _ _
  · rw [tm]
    exact Memory.writeHeader_detail wf _ _ _ _ _ _
  · rw [tm, Memory.writeHeader_keeps_take, State.takeSlot_mem]
    exact Memory.writeHeader_take hp.memory _ _ _ _ _ _
  · rw [tm, Memory.writeHeader_kept _ _ _ _ _ _ _ _ ha, State.takeSlot_mem]
    exact Memory.writeHeader_kept _ _ _ _ _ _ _ _ ha

theorem State.takeAndAnswer_frame (s : State) (n : Nat) (code : ResultCode) (detail : Nat) : s.takeAndAnswer n code detail = { s with
    mem := (s.takeAndAnswer n code detail).mem, port := (s.takeAndAnswer n code detail).port } := by
  unfold State.takeAndAnswer
  apply State.ext_fields <;> simp

section takes
variable {s : State} {n : Nat} (hhead : s.port.posts.head? = some n) (hst : s.pw.state = .active ∨ s.pw.state = .halted ∨ s.pw.state = .standby)
include hhead hst

/-- The dispatcher takes the head of the queue in ACTIVE, HALTED and STANDBY (R188). -/
theorem State.takeHead_eq (act : State → Nat → State) : s.takeHead act = act s n := by
  have hm : takesMade s.pw.state = true := by
    rcases hst with h | h | h <;> rw [h] <;> rfl
  unfold State.takeHead
  obtain ⟨rest, hr⟩ : ∃ rest, s.port.posts = n :: rest := by
    cases hq : s.port.posts with
    | nil => simp [hq] at hhead
    | cons m rest => exact ⟨rest, by rw [hq, List.head?_cons, Option.some_inj] at hhead; rw [hhead]⟩
  rw [hr]
  exact if_pos hm

end takes

/-- Settles O60, take by take. -/
theorem takesThatReachNoOwner : Obligations.TakesThatReachNoOwner := by
  intro s n hs hp hhead hst
  have hn : n < 16 := hp.slots n (List.mem_of_head? hhead)
  have answered {c : Instr} {code : ResultCode} {detail : Nat} (he : exec c s = .next (publish s (s.takeAndAnswer n code detail))) :
      ∃ t, exec c s = .next t ∧ s.Answered t n code detail [] ∧ t = { s with mem := t.mem, port := t.port, rev := t.rev } := by
    refine ⟨_, he, State.takeAndAnswer_answered s hp hn code detail, ?_⟩
    rw [State.takeAndAnswer_frame]
    rfl
  refine ⟨fun hpost hk => ?_, fun hpost hk hsb h41 h42 => ?_, fun hpost => ?_⟩
  · have hk' : kindNamesOrder (s.slotKind n) = false := Bool.eq_false_iff.mpr fun h => hk ((kindNamesOrder_iff _).mp h)
    refine answered (code := .badOrder) (detail := 0xFFFE) ?_
    change execTakeUnknownKind s = _
    rw [execTakeUnknownKind, event_steady hs, State.takeHead_eq hhead hst, if_pos ⟨by simp [State.slotPosted, hpost], hk'⟩]
    rfl
  · refine answered (code := .notActive) (detail := 0) ?_
    change execNotActiveTake s = _
    rw [execNotActiveTake, event_steady hs, State.takeHead_eq hhead hst,
      if_pos ⟨hsb, by simp [State.slotPosted, hpost], (kindNamesOrder_iff _).mpr hk, h41, h42⟩]
  · have he : exec .takeWithdrawn s = .next (publish s ((s.updPort (fun p => { p with posts := p.posts.tail })).ignorePost n .withdrawn)) := by
      change execTakeWithdrawn s = _
      rw [execTakeWithdrawn, event_steady hs, State.takeHead_eq hhead hst, if_neg (by simpa [State.slotPosted] using hpost)]
    refine ⟨_, he, publish_device (by simp [State.ignorePost, State.rewrite]), ?_⟩
    rw [flagsOf_one]
    rfl

end Sys2Proof.Machine
end

section
/-! PROOFS. The registers, and READ, WRITE and invalid transactions on the host port. -/

namespace Sys2Proof.Machine

/-! ## Bytes of words (R196) -/

theorem append_eq_ofNat (h l : Byte) : h ++ l = BitVec.ofNat 16 (h.toNat * 256 + l.toNat) := by
  apply BitVec.eq_of_toNat_eq
  have hh := h.isLt
  have hl := l.isLt
  rw [BitVec.toNat_append, Nat.shiftLeft_eq, BitVec.toNat_ofNat, Nat.mod_eq_of_lt (by omega), ← Nat.shiftLeft_eq,
    ← Nat.shiftLeft_add_eq_or_of_lt hl, Nat.shiftLeft_eq]

/-- The two bytes of a word replaced one after the other. -/
theorem replaceByte_both (w : Word16) (h l : Byte) : replaceByte (replaceByte w true h) false l = h ++ l := by
  rw [append_eq_ofNat]
  have hh := h.isLt
  have hl := l.isLt
  have hw := w.isLt
  apply BitVec.eq_of_toNat_eq
  simp only [replaceByte, if_true, Bool.false_eq_true, if_false, BitVec.toNat_ofNat, Nat.reducePow]
  omega

/-! ## What a READ sends (R182) -/

/-- Bytes of exchange memory. -/
theorem State.sentByte_exchange (s : State) {start i : Nat} (h : start + i < 0x4000) : s.sentByte start i = s.exchangeByte (start + i) := by
  rw [State.sentByte, if_pos (by omega), if_pos h]

theorem State.sent_exchange (s : State) {start count : Nat} (h : start + count ≤ 0x4000) :
    (List.range count).map (s.sentByte start) = (List.range count).map (fun i => s.exchangeByte (start + i)) :=
  List.map_congr_left fun i hi => s.sentByte_exchange (by have := List.mem_range.mp hi; omega)

/-- The registers from ID to PORT_CONTROL (file 11, REGISTERS). -/
theorem State.sent_registers (s : State) : (List.range 12).map (s.sentByte 0x4000) =
    [0xD4, 0x01] ++ bytesBE 2 s.port.attn.toNat ++ bytesBE 2 s.port.enable.toNat ++ [0, 0] ++ bytesBE 2 s.port.posts.length
      ++ [0, BitVec.ofNat 8 (bit s.pw.devReset + 2 * bit s.port.awake)] := by
  have hc : BitVec.ofNat 8 ((bit s.pw.devReset + 2 * bit s.port.awake) / 256) = 0 := by
    cases s.pw.devReset <;> cases s.port.awake <;> rfl
  simp [List.range_succ, State.sentByte, State.readRegister, bytesBE, hc]

/-! ## What a WRITE reaches (R182, R184) -/

/-- A write to the order slots and scratch. -/
theorem State.hostBytes_memory (s : State) (a : Nat) (bs : List Byte) (h : 0x2000 ≤ a) (hb : a + bs.length ≤ 0x4000) :
    s.hostBytes a bs = s.setMem (s.mem.writeAll a bs) := by
  induction bs generalizing s a with
  | nil => rfl
  | cons b rest ih =>
    rw [List.length_cons] at hb
    have hbyte : s.hostByte a b = s.setMem (s.mem.write a b) := by
      unfold State.hostByte
      rw [if_neg (by omega), if_neg (by omega), if_neg (by omega), if_neg (by omega), if_pos (by omega)]
    rw [State.hostBytes, hbyte, ih _ (a + 1) (by omega) (by omega)]
    rfl

/-- A write to the records below the mail cells, or between the mail cells and the order slots, changes nothing. -/
theorem State.hostBytes_record (s : State) (a : Nat) (bs : List Byte) (h : a + bs.length ≤ 0x1000 ∨ (0x1800 ≤ a ∧ a + bs.length ≤ 0x2000)) :
    s.hostBytes a bs = s := by
  induction bs generalizing a with
  | nil => rfl
  | cons b rest ih =>
    rw [List.length_cons] at h
    have hbyte : s.hostByte a b = s := by
      unfold State.hostByte
      rcases h with h | ⟨h1, h2⟩
      · rw [if_pos (by omega)]
      · rw [if_neg (by omega), if_neg (by omega), if_neg (by omega), if_pos (by omega)]
    rw [State.hostBytes, hbyte]
    exact ih (a + 1) (by omega)

/-- The state word of a mail cell of reader A. -/
theorem State.hostBytes_cell (s : State) {n : Nat} (hn : n < 8) (h l : Byte) : s.hostBytes (0x1002 + 80 * n) [h, l] =
    { s with
      rdr := s.rdr.set .a
        { s.rdr.get .a with cells := (s.rdr.get .a).cells.modify n (fun c => { c with stateWord := h ++ l }) } } := by
  have byte (u : State) (i : Nat) (hi : i < 2) (b : Byte) : u.hostByte (0x1002 + 80 * n + i) b =
      u.updReader .a (fun r => { r with cells := r.cells.modify n (fun c => { c with stateWord := replaceByte c.stateWord (i = 0) b }) }) := by
    have hoff : (0x1002 + 80 * n + i - 0x1000) % 80 = 2 + i := by omega
    have hdiv : (0x1002 + 80 * n + i - 0x1000) / 80 = n := by omega
    unfold State.hostByte writeCell
    rw [if_neg (by omega), if_pos (by omega), hoff, hdiv]
    have h0 : 2 + i = 2 ∨ 2 + i = 3 := by omega
    simp only [if_pos h0]
    have h2 : (decide (2 + i = 2)) = decide (i = 0) := by simp
    simp only [h2]
  have h0 := byte s 0 (by omega) h
  have h1 := byte (s.hostByte (0x1002 + 80 * n) h) 1 (by omega) l
  rw [State.hostBytes, State.hostBytes, State.hostBytes, h1]
  rw [Nat.add_zero] at h0
  rw [h0]
  have hcells (cs : List MailCell) : (cs.modify n (fun c => { c with stateWord := replaceByte c.stateWord true h })).modify n
      (fun c => { c with stateWord := replaceByte c.stateWord false l }) = cs.modify n (fun c => { c with stateWord := h ++ l }) := by
    rw [List.modify_modify_eq]
    congr 1
    funext c
    simp only [Function.comp, replaceByte_both]
  exact congrArg (fun cs : List MailCell => { s with rdr := s.rdr.set .a { s.rdr.get .a with cells := cs } }) (hcells _)

/-! ## Posts (R187) -/

/-- A post that a test turns away rewrites the device status record (R185, R187). -/
theorem State.post_ignored_force (s : State) {value : Word16} (h : 15 < value.toNat ∨ s.slotState value.toNat ≠ 1 ∨ value.toNat ∈ s.port.posts) :
    RecordId.device ∈ (s.post value).rev.force ∧ (s.post value).rev.device = s.rev.device := by
  obtain ⟨why, hw⟩ : ∃ why, s.post value = s.ignorePost value.toNat why := by
    by_cases hr : 15 < value.toNat
    · exact ⟨_, State.post_range rfl hr⟩
    · by_cases hp : s.slotState value.toNat = 1
      · exact ⟨_, State.post_queued rfl (Nat.not_lt.mp hr) hp ((h.resolve_left hr).resolve_left fun hn => hn hp)⟩
      · exact ⟨_, State.post_notPosted rfl (Nat.not_lt.mp hr) hp⟩
  rw [hw]
  exact ⟨List.mem_cons_self, rfl⟩

/-! ## What the port answers and what it does not (R182) -/

section port
variable {s : State} (hs : s.steady)
include hs

theorem event_onPort (hp : s.portAnswers = true) (act : State → State) : event s (fun s => s.onPort act) = .next (publish s (act s)) := by
  rw [event_steady hs, State.onPort, if_pos hp]

theorem event_offPort (hp : s.portAnswers = false) (act : State → State) : event s (fun s => s.onPort act) = .next (publish s s) := by
  rw [event_steady hs, State.onPort, if_neg (by simp [hp])]

theorem exec_read (hp : s.portAnswers = true) (addr : Word16) (count : Nat) : exec (.read (some addr) count) s =
    .next (publish s (s.updPort (fun p => { p with hsdo := some ((List.range count).map (s.sentByte addr.toNat)) }))) := by
  change execRead (some addr) count s = _
  rw [execRead, event_steady hs, if_pos hp]

theorem exec_read_silent (hp : s.portAnswers = false) (addr : Option Word16) (count : Nat) :
    exec (.read addr count) s = .next (publish s (s.updPort (fun p => { p with hsdo := none }))) := by
  change execRead addr count s = _
  rw [execRead, event_steady hs, if_neg (by simp [hp])]

theorem exec_write_bytes (hp : s.portAnswers = true) {addr : Word16} (ha : addr.toNat < 0x4000) (data : List Byte) :
    exec (.write (some addr) data) s = .next (publish s (s.hostBytes addr.toNat data)) :=
  (event_onPort hs hp _).trans (by dsimp only; rw [if_pos ha])

theorem exec_write_registers (hp : s.portAnswers = true) {addr : Word16} (ha : 0x4000 ≤ addr.toNat) (data : List Byte) :
    exec (.write (some addr) data) s = .next (publish s (s.hostRegisters addr.toNat data)) :=
  (event_onPort hs hp _).trans (by dsimp only; rw [if_neg (Nat.not_lt.mpr ha)])

theorem exec_invalidCommand (hp : s.portAnswers = true) {command : Byte} (h2 : command ≠ 0x02) (h3 : command ≠ 0x03) (count : Nat) :
    exec (.invalidCommand command count) s = .next (publish s (s.updPort (fun p => { p with hsdo := some (List.replicate count 0) }))) := by
  change execInvalidCommand command count s = _
  rw [execInvalidCommand, event_steady hs, if_neg (not_or.mpr ⟨h2, h3⟩), if_pos hp]

end port

/-- Settles O59, write by write and transaction by transaction. -/
theorem registersAndTransactionsAct : Obligations.RegistersAndTransactionsAct := by
  intro s hs
  refine ⟨fun hp => ⟨fun mask => ?_, fun mask => ?_, fun value => ?_, ?_, fun addr value _ => ?_, fun value hv => ?_, fun addr count hc => ?_, ?_,
    fun addr data ha hb => ?_, fun addr data ha => ?_, fun n h l hn => ?_, fun h l => ?_, fun command count h2 h3 => ?_⟩,
    fun hp => ⟨fun addr count => ?_, fun addr data => ?_, fun value => ?_⟩⟩
  · exact ⟨_, event_onPort hs hp _, rfl⟩
  · exact ⟨_, event_onPort hs hp _, rfl⟩
  · refine ⟨_, event_onPort hs hp _, ?_⟩
    have hasleep : (s.port.asleep || (decide (s.pw.state = .standby) && !value)) =
        if s.pw.state = .standby ∧ value = false then true else s.port.asleep := by
      cases s.port.asleep <;> cases value <;> simp
    rw [← hasleep]
    rfl
  · exact ⟨_, event_onPort hs hp _, rfl⟩
  · exact ⟨_, event_steady hs, rfl⟩
  · obtain ⟨hf, hd⟩ := s.post_ignored_force hv
    exact ⟨_, event_onPort hs hp _, (publish_device hf).trans (by rw [hd])⟩
  · refine ⟨_, exec_read hs hp addr count, ?_⟩
    rw [← s.sent_exchange hc]
    rfl
  · refine ⟨_, exec_read hs hp 0x4000 12, ?_⟩
    rw [← s.sent_registers]
    rfl
  · rcases Nat.lt_or_ge addr.toNat 0x4000 with hlt | hge
    · refine ⟨_, exec_write_bytes hs hp hlt data, ?_⟩
      rw [s.hostBytes_memory _ _ ha hb]
      rfl
    · obtain rfl : data = [] := List.eq_nil_of_length_eq_zero (by omega)
      exact ⟨_, exec_write_registers hs hp hge [], rfl⟩
  · refine ⟨_, exec_write_bytes hs hp (by omega) data, ?_⟩
    rw [s.hostBytes_record _ _ ha]
    rfl
  · have haddr : (BitVec.ofNat 16 (0x1002 + 80 * n)).toNat = 0x1002 + 80 * n := by
      rw [BitVec.toNat_ofNat]
      omega
    refine ⟨_, exec_write_bytes hs hp (by omega) [h, l], ?_⟩
    rw [haddr, s.hostBytes_cell hn]
    rfl
  · refine ⟨_, exec_write_registers hs hp (by decide) [h, l], ?_⟩
    rw [append_eq_ofNat]
    rfl
  · exact ⟨_, exec_invalidCommand hs hp h2 h3 count, rfl⟩
  · exact ⟨_, exec_read_silent hs hp addr count, rfl⟩
  · exact ⟨_, event_offPort hs hp _, rfl⟩
  · exact ⟨_, event_offPort hs hp _, rfl⟩

end Sys2Proof.Machine
end

section
/-! PROOFS. Completions beside flags, the start of a wake, its sources, WAKE and SET_CLOCK. -/

namespace Sys2Proof.Machine

/-! ## Completions, and the flags set beside them (R190) -/

/-- Slots, counter and port of `x` are those of `y`, with the flags `w` set beside. -/
structure State.Told (x y : State) (w : Word16) : Prop where
  mem : x.mem = y.mem
  rtc : x.rtc = y.rtc
  port : x.port = { y.port with attn := y.port.attn ||| w }

section told
variable {x y z : State} {w : Word16}

theorem State.Told.refl (x : State) : x.Told x 0 := ⟨rfl, rfl, by simp⟩

/-- What touches neither slots nor port keeps the relation. -/
theorem State.Told.congr (h : x.Told y w) (hm : z.mem = x.mem) (hr : z.rtc = x.rtc) (hp : z.port = x.port) : z.Told y w :=
  ⟨hm.trans h.mem, hr.trans h.rtc, hp.trans h.port⟩

theorem State.Told.attn (h : x.Told y w) (f : Attn) : (x.attn f).Told y (w ||| f.mask) where
  mem := h.mem
  rtc := h.rtc
  port := by
    rw [State.attn_port, h.port]
    simp [BitVec.or_assoc]

theorem or_or_swap (a b c : Word16) : a ||| b ||| c = a ||| c ||| b := by rw [BitVec.or_assoc, BitVec.or_comm b, BitVec.or_assoc]

/-- The same completion on both sides. -/
theorem State.Told.complete (h : x.Told y w) (r : OrderRef) (c : ResultCode) (n : Nat) : (x.complete r c n).Told (y.complete r c n) w := by
  have ht : x.slotTaken r.slot = y.slotTaken r.slot := by rw [State.slotTaken, State.slotState, h.mem]; rfl
  have hn : x.takeNumber r.slot = y.takeNumber r.slot := by simp only [State.takeNumber, h.port]
  unfold State.complete
  rw [ht, hn]
  split
  · refine ⟨?_, h.rtc, ?_⟩
    · simp only [State.attn_mem, State.setMem_mem, h.mem, h.rtc]
    · simp only [State.attn_port, State.setMem_port, h.port, or_or_swap]
  · exact h

theorem State.Told.completeOpt (h : x.Told y w) (r : Option OrderRef) (c : ResultCode) (n : Nat) :
    (x.completeOpt r c n).Told (y.completeOpt r c n) w := by
  cases r with
  | none => exact h
  | some r => exact h.complete r c n

theorem State.Told.foldl {α : Type} (h : x.Told y w) (f : State → α → State) (xs : List α)
    (hf : ∀ {x y : State} (a : α), x.Told y w → (f x a).Told (f y a) w) : (xs.foldl f x).Told (xs.foldl f y) w := by
  induction xs generalizing x y with
  | nil => exact h
  | cons a rest ih => exact ih (hf a h)

end told

/-- Between two states orders completed, and nothing else happened: slots and flags alone may differ. -/
structure State.OnlyTold (s t : State) : Prop where
  frame : t = { s with mem := t.mem, port := { s.port with attn := t.port.attn } }
  flags : ∃ w, t.port.attn = s.port.attn ||| w

section onlyTold
variable {s t u : State}

theorem State.OnlyTold.refl (s : State) : s.OnlyTold s := ⟨rfl, 0, by simp⟩

theorem State.OnlyTold.trans (h : s.OnlyTold t) (g : t.OnlyTold u) : s.OnlyTold u where
  frame := by
    rw [g.frame, h.frame]
  flags := by
    obtain ⟨v, hv⟩ := h.flags
    obtain ⟨w, hw⟩ := g.flags
    exact ⟨v ||| w, by rw [hw, hv, BitVec.or_assoc]⟩

theorem State.complete_onlyTold (s : State) (r : OrderRef) (c : ResultCode) (n : Nat) : s.OnlyTold (s.complete r c n) := by
  unfold State.complete
  split
  · exact ⟨rfl, Attn.order.mask, rfl⟩
  · exact .refl s

theorem State.completeOpt_onlyTold (s : State) (r : Option OrderRef) (c : ResultCode) (n : Nat) : s.OnlyTold (s.completeOpt r c n) := by
  cases r with
  | none => exact .refl s
  | some r => exact s.complete_onlyTold r c n

theorem State.foldl_onlyTold {α : Type} (s : State) (f : State → α → State) (xs : List α) (hf : ∀ x a, State.OnlyTold x (f x a)) :
    s.OnlyTold (xs.foldl f s) := by
  induction xs generalizing s with
  | nil => exact .refl s
  | cons a rest ih => exact (hf s a).trans (ih _)

/-- No order completes in memory that is zeroed: no slot reads TAKEN (R190, R195). -/
theorem State.complete_blank {s : State} (h : s.mem = []) (r : OrderRef) (c : ResultCode) (n : Nat) : s.complete r c n = s := by
  have ht : s.slotTaken r.slot = false := by rw [State.slotTaken, State.slotState, h]; rfl
  rw [State.complete, ht]
  rfl

theorem State.completeOpt_blank {s : State} (h : s.mem = []) (r : Option OrderRef) (c : ResultCode) (n : Nat) : s.completeOpt r c n = s := by
  cases r with
  | none => rfl
  | some r => exact State.complete_blank h r c n

theorem State.messagesDropped_onlyTold (s : State) : s.OnlyTold s.messagesDropped :=
  (s.completeOpt_onlyTold _ _ _).trans (State.completeOpt_onlyTold _ _ _ _)

end onlyTold

/-! ## The start of a wake (R112, R153, R171, R181) -/

/-- The store-write list dropped: its orders complete, and the store stands at a wake's first event. -/
theorem State.dropStoreList_eq (s : State) : ∃ u, s.OnlyTold u ∧ (s.store.list = [] ∨ s.mem = [] → u = s)
    ∧ s.dropStoreList = { u with
        store := { s.store with
          list := [], write := none, copy := none, rewriteAll := false, check := none, reloadDue := false, reloading := false } } := by
  have h := s.foldl_onlyTold (fun (s : State) (o : StoreOrder) => s.complete o.ref .unavailable Reason.notWritten.code) s.store.list
    (fun x o => x.complete_onlyTold _ _ _)
  refine ⟨_, h, fun hl => ?_, ?_⟩
  · rcases hl with hl | hm
    · rw [hl, List.foldl_nil]
    · exact List.foldlRecOn _ _ (motive := (· = s)) rfl fun x hx o _ => by rw [hx, State.complete_blank hm]
  rw [State.dropStoreList]
  have hst : (s.store.list.foldl (fun (s : State) (o : StoreOrder) => s.complete o.ref .unavailable Reason.notWritten.code) s).store = s.store := by
    rw [h.frame]
  generalize s.store.list.foldl _ s = u at hst ⊢
  rw [← hst]
  rfl

/-- The power sequencer, the wake time and the port as a wake begins, before the orders in flight complete. -/
def State.waking (s : State) (c : WakeCause) : State := { s with
  pw := { s.pw with state := .waking }.waking c
  port := { s.port with attn := s.port.attn ||| Attn.power.mask, asleep := false }
  ret := { s.ret with wakeTime := 0 }
  rev := s.rev.wroteTo [.wakeTime] }

theorem State.waking_eq (s : State) (c : WakeCause) :
    (((((s.setPowerState .waking).updPower (fun p => p.waking c)).attn .power).setWakeTime 0).updPort (fun p => { p with asleep := false })) =
      s.waking c := by
  unfold State.setPowerState
  split
  · rename_i hw
    have hp : s.pw = { s.pw with state := .waking } := by rw [← hw]
    exact congrArg (fun p : Power => ({ s.waking c with pw := p.waking c } : State)) hp
  · have hor : s.port.attn ||| Attn.power.mask ||| Attn.power.mask = s.port.attn ||| Attn.power.mask := by rw [BitVec.or_assoc, BitVec.or_self]
    exact congrArg (fun a => ({ s.waking c with port := { s.port with attn := a, asleep := false } } : State)) hor

/-- A wake begins (R153): orders in flight complete, and every unit stands as at the wake's first event. -/
theorem State.wakeStart_eq (s : State) (c : WakeCause) : ∃ u, (s.waking c).OnlyTold u
    ∧ ((s.store.list = [] ∧ ∀ d, (s.disp.lines.get d).order = none) ∨ s.mem = [] → u = s.waking c)
    ∧ s.wakeStart c = ({ u with
        disp := { s.disp with lines := ⟨.cleared, .cleared⟩ }.wakeReset
        store := { s.store with
          list := [], write := none, copy := none, rewriteAll := false, check := none, reloadDue := false, reloading := false } } : State).stopDecoding := by
  have hdrop := (s.waking c).messagesDropped_onlyTold
  obtain ⟨u, hu, hlist, hstore⟩ :=
    ({ (s.waking c).messagesDropped with disp := { s.disp with lines := ⟨.cleared, .cleared⟩ }.wakeReset } : State).dropStoreList_eq
  have hframe := hu.frame
  rw [hdrop.frame] at hframe
  refine ⟨{ s.waking c with mem := u.mem, port := { (s.waking c).port with attn := u.port.attn } }, ⟨rfl, ?_⟩, fun hq => ?_, ?_⟩
  · obtain ⟨v, hv⟩ := hdrop.flags
    obtain ⟨w, hw⟩ := hu.flags
    exact ⟨v ||| w, by rw [hw, ← BitVec.or_assoc, ← hv]⟩
  · have hv : (s.waking c).messagesDropped = s.waking c := by
      rcases hq with ⟨-, ho⟩ | hm
      · have ho' (d : Side) : ((s.waking c).disp.lines.get d).order = none := ho d
        simp only [State.messagesDropped, ho', State.completeOpt]
      · have hw : (s.waking c).mem = [] := hm
        simp only [State.messagesDropped, State.completeOpt_blank hw]
    rw [hlist (by rw [hv]; exact hq.imp And.left id), hv]
  · rw [State.wakeStart]
    dsimp only
    rw [State.waking_eq, State.dropMessages_eq]
    have hst : (s.waking c).messagesDropped.store = s.store := by rw [hdrop.frame]; rfl
    refine congrArg State.stopDecoding (hstore.trans ?_)
    dsimp only
    rw [hst]
    conv_lhs => rw [hframe]

theorem State.wakeStart_begins (b s : State) (c : WakeCause) : s.WakeBegins (publish b (s.wakeStart c)) c := by
  obtain ⟨u, hu, -, heq⟩ := s.wakeStart_eq c
  have hframe := hu.frame
  obtain ⟨w, hw⟩ := hu.flags
  rw [heq]
  refine ⟨?_, ?_, ?_, ?_, fun m => ?_, fun d => ?_, ?_, ?_, ?_⟩
  · rw [hframe]
    rfl
  · rw [hframe]
    rfl
  · rfl
  · rfl
  · rw [hframe]
    obtain ⟨d, p⟩ := m
    cases d <;> cases p <;> rfl
  · rw [hframe]
    cases d <;> rfl
  · have hp : (s.waking c).port.attn = s.port.attn ||| Attn.power.mask := rfl
    change u.port.attn ||| Attn.power.mask = u.port.attn
    rw [hw, hp, or_or_swap, BitVec.or_assoc s.port.attn, BitVec.or_self]
  · rw [hframe]
    rfl
  · apply State.ext_fields <;> first | with_reducible rfl | (rw [hframe]; rfl)

/-- A wake that finds no order in flight touches no slot. -/
theorem State.wakeStart_quiet {s : State} (hq : (s.store.list = [] ∧ ∀ d, (s.disp.lines.get d).order = none) ∨ s.mem = []) (c : WakeCause) :
    (s.wakeStart c).mem = s.mem ∧ (s.wakeStart c).port = { s.port with attn := s.port.attn ||| Attn.power.mask, asleep := false }
      ∧ (s.wakeStart c).rtc = s.rtc := by
  obtain ⟨u, -, hu, heq⟩ := s.wakeStart_eq c
  rw [heq, hu hq]
  exact ⟨rfl, rfl, rfl⟩

/-- A wake begins in a state that differs in slots, port and revision words alone from another: it begins in the other too. -/
theorem State.WakeBegins.from {s x t : State} {c : WakeCause} (h : x.WakeBegins t c)
    (hx : x = { s with mem := x.mem, port := x.port, rev := x.rev }) : s.WakeBegins t c := by
  rw [hx] at h
  exact ⟨h.pw, h.ret, h.disp, h.store, h.met, h.fp, h.power, h.awake, h.others⟩

/-- An order taken in this event, answered OK, after which a wake begins at once: it finds no other order in flight. -/
theorem State.Offers.answeredWaking {s x : State} {k : OrderKind} {n target : Nat} (h : s.Offers k n target) {detail : Nat} {c : WakeCause}
    (hx : x = ({ (s.takeSlot n).1 with rtc := x.rtc, mem := x.mem, port := x.port, rev := x.rev } : State))
    (hc : x.mem = (({ (s.takeSlot n).1 with rtc := x.rtc } : State).complete (s.takeSlot n).2.ref .ok detail).mem)
    (hp : x.port = (({ (s.takeSlot n).1 with rtc := x.rtc } : State).complete (s.takeSlot n).2.ref .ok detail).port)
    (hl : s.store.list = []) (ho : ∀ d, (s.disp.lines.get d).order = none) (ha : s.port.asleep = false) :
    s.Answered (publish s (x.wakeStart c)) n .ok detail [.power] := by
  obtain ⟨hmem, hport, hrtc⟩ := State.wakeStart_quiet (s := x) (.inl (by rw [hx]; exact ⟨hl, ho⟩)) c
  have hans := h.answered_port (u := ({ (s.takeSlot n).1 with rtc := x.rtc } : State)) .ok detail rfl rfl
  have hxport : x.port = { (s.takeSlot n).1.port with attn := s.port.attn ||| Attn.order.mask } := by
    rw [hp, hans]
    rfl
  have hasleep : (s.takeSlot n).1.port.asleep = false := ha
  have hput : { (s.takeSlot n).1.port with asleep := false } = (s.takeSlot n).1.port := by rw [← hasleep]
  refine h.answered (u := ({ (s.takeSlot n).1 with rtc := x.rtc } : State)) .ok detail [.power] rfl rfl (hmem.trans hc) hrtc ?_ ?_
  · rw [publish_port, hport, hxport]
    exact congrArg (fun p : Port => { p with attn := s.port.attn ||| Attn.order.mask ||| Attn.power.mask }) hput
  · rw [publish_port, hport, hxport]
    simp [BitVec.or_assoc]

/-! ## Wake sources (R161) -/

theorem State.wakeTimePassed_iff (s : State) : s.wakeTimePassed = true ↔ s.ret.wakeTime ≠ 0 ∧ s.ret.wakeTime.toNat ≤ s.rtc.toNat := by
  simp [State.wakeTimePassed]

theorem State.checkWakeTime_standby {s : State} (hp : s.wakeTimePassed = true) (hst : s.pw.state = .standby) :
    s.checkWakeTime = s.wakeStart .wakeTime := by
  rw [State.checkWakeTime, if_pos hp, hst]

theorem exec_wakePin_standby {s : State} (hs : s.steady) (hst : s.pw.state = .standby) :
    exec .wakePin s = .next (publish s (s.wakeStart .wakePin)) := by
  change execWakePin s = _
  rw [execWakePin, event_steady hs]
  simp only [hst]

theorem exec_wakePin_shuttingDown {s : State} (hs : s.steady) (hst : s.pw.state = .shuttingDown) : exec .wakePin s =
    .next (publish s (s.updPower (fun p => { p with wakeRequest := some (p.wakeRequest.getD .wakePin) }))) := by
  change execWakePin s = _
  rw [execWakePin, event_steady hs]
  simp only [hst]

theorem State.orderWake_awake {s : State} (o : Order) (h : s.pw.state ≠ .standby) :
    s.orderWake o = s.complete o.ref .ok (powerDetail s.pw.state) := if_neg h

theorem State.orderWake_standby {s : State} (o : Order) (h : s.pw.state = .standby) :
    s.orderWake o = (s.complete o.ref .ok 0x501).wakeStart .wakeOrder := by
  have hd : powerDetail s.pw.state = 0x501 := by rw [h]; rfl
  rw [State.orderWake, if_pos h, hd]

/-- Settles O53, source by source. -/
theorem wakeSourcesBeginAWake : Obligations.WakeSourcesBeginAWake := by
  intro s
  refine ⟨fun hs hst => ⟨?_, fun hpass => ?_⟩, fun hs hst => ⟨?_, fun hpass => ?_⟩, fun n h => ⟨fun hst => ?_, fun hst hl ho ha => ?_⟩⟩
  · exact ⟨_, exec_wakePin_standby hs hst, State.wakeStart_begins _ _ _⟩
  · refine ⟨_, event_steady hs, ?_⟩
    rw [State.checkWakeTime_standby ((s.wakeTimePassed_iff).mpr hpass) hst]
    exact State.wakeStart_begins _ _ _
  · exact ⟨_, exec_wakePin_shuttingDown hs hst, rfl⟩
  · refine ⟨_, event_steady hs, ?_⟩
    rw [State.checkWakeTime, if_pos ((s.wakeTimePassed_iff).mpr hpass), hst]
    rfl
  · have he : exec .wake s = .next (publish s ((s.takeSlot n).1.orderWake (s.takeSlot n).2)) := h.plainEvent State.orderWake
    have hne : (s.takeSlot n).1.pw.state ≠ .standby := by
      rcases hst with hst | hst <;> rw [State.takeSlot_pw, hst] <;> nofun
    exact h.turnedAway (State.orderWake_awake _ hne ▸ he)
  · have he : exec .wake s = .next (publish s ((s.takeSlot n).1.orderWake (s.takeSlot n).2)) := h.plainEvent State.orderWake
    rw [State.orderWake_standby (s := (s.takeSlot n).1) _ hst] at he
    have hframe := State.complete_eq (s.takeSlot n).1 (s.takeSlot n).2.ref .ok 0x501
    refine ⟨_, he, h.answeredWaking ?_ ?_ ?_ hl ho ha, (State.wakeStart_begins _ _ _).from ?_⟩
    · rw [hframe]
    · rw [State.complete_rtc]
    · rw [State.complete_rtc]
    · rw [hframe]
      rfl

/-! ## SET_CLOCK (R163) -/

theorem State.wakeStart_rev (s : State) (c : WakeCause) : (s.wakeStart c).rev = s.rev.wroteTo [.wakeTime] := by
  obtain ⟨u, hu, -, heq⟩ := s.wakeStart_eq c
  rw [heq, hu.frame]
  rfl

/-- An order whose target must be none, with another one (R188). -/
theorem State.Offers.withPlainOrder_target {s : State} {k : OrderKind} {n target : Nat} (h : s.Offers k n target) (ht : target ≠ 0)
    (owner : State → Order → State) :
    s.withPlainOrder k owner = (s.takeSlot n).1.complete (s.takeSlot n).2.ref .badOrder targetDetail := by
  rw [State.withPlainOrder, h.withOrder]
  exact if_neg (by rw [← h.target] at ht; exact ht)

theorem State.Offers.plainEvent_target {s : State} {k : OrderKind} {n target : Nat} (h : s.Offers k n target) (ht : target ≠ 0)
    (owner : State → Order → State) : event s (fun s => s.withPlainOrder k owner) =
      .next (publish s ((s.takeSlot n).1.complete (s.takeSlot n).2.ref .badOrder targetDetail)) := by
  rw [event_steady h.steady, h.withPlainOrder_target ht]

section clock
variable {s : State}

/-- The counter set and the order completed, before the wake time is looked at. -/
def State.clockSet (s : State) (o : Order) (value : Word32) : State :=
  (({ s with rtc := value } : State).complete o.ref .ok s.rtc.toNat).rewrite .device

theorem State.orderSetClock_halted (o : Order) (h : s.pw.state = .halted) : s.orderSetClock o = s.complete o.ref .wrongState Reason.halted.code :=
  if_pos h

theorem State.orderSetClock_sets (o : Order) (h : s.pw.state = .active) :
    s.orderSetClock o = s.clockSet o (BitVec.ofNat 32 (s.bodyField o.ref.slot 0 4)) := by
  rw [State.orderSetClock, if_neg (by rw [h]; nofun)]
  dsimp only
  rw [if_neg (by rw [State.rewrite_pw, State.complete_pw, h]; nofun)]
  rfl

theorem State.orderSetClock_standby (o : Order) (h : s.pw.state = .standby) :
    s.orderSetClock o = (s.clockSet o (BitVec.ofNat 32 (s.bodyField o.ref.slot 0 4))).checkWakeTime := by
  rw [State.orderSetClock, if_neg (by rw [h]; nofun)]
  dsimp only
  rw [if_pos (by rw [State.rewrite_pw, State.complete_pw, h])]
  rfl

theorem State.clockSet_frame (o : Order) (value : Word32) : s.clockSet o value = { s with
    rtc := value, mem := (s.clockSet o value).mem, port := (s.clockSet o value).port, rev := (s.clockSet o value).rev } := by
  have hframe := State.complete_eq ({ s with rtc := value } : State) o.ref .ok s.rtc.toNat
  rw [State.clockSet, hframe]
  rfl

theorem State.clockSet_rev (o : Order) (value : Word32) : (s.clockSet o value).rev = { s.rev with force := .device :: s.rev.force } := by
  rw [State.clockSet, State.rewrite, State.complete_rev]

theorem State.clockSet_mem (o : Order) (value : Word32) :
    (s.clockSet o value).mem = (({ s with rtc := value } : State).complete o.ref .ok s.rtc.toNat).mem := rfl

theorem State.clockSet_port (o : Order) (value : Word32) :
    (s.clockSet o value).port = (({ s with rtc := value } : State).complete o.ref .ok s.rtc.toNat).port := rfl

theorem State.clockSet_rtc (o : Order) (value : Word32) : (s.clockSet o value).rtc = value := by rw [State.clockSet_frame]

theorem State.clockSet_passed (o : Order) (value : Word32) : (s.clockSet o value).wakeTimePassed = true ↔
    s.ret.wakeTime ≠ 0 ∧ s.ret.wakeTime.toNat ≤ value.toNat := by
  rw [State.wakeTimePassed_iff, State.clockSet_frame]

end clock

theorem State.Offers.clockSet_port {n target : Nat} {s : State} (h : s.Offers .setClock n target) (value : Word32) :
    ((s.takeSlot n).1.clockSet (s.takeSlot n).2 value).port = { (s.takeSlot n).1.port with attn := s.port.attn ||| Attn.order.mask } := by
  rw [State.clockSet_port, h.answered_port (u := { (s.takeSlot n).1 with rtc := value }) .ok _ rfl rfl]
  rfl

/-- What stands in the slot after SET_CLOCK in ACTIVE, and in STANDBY with no wake time passed. -/
theorem State.Offers.clockSet_answered {n target : Nat} {s : State} (h : s.Offers .setClock n target) (value : Word32) :
    s.Answered (publish s ((s.takeSlot n).1.clockSet (s.takeSlot n).2 value)) n .ok s.rtc.toNat [] := by
  refine h.answered (u := { (s.takeSlot n).1 with rtc := value }) .ok s.rtc.toNat [] rfl rfl ?_ ?_ ?_ ?_
  · rw [publish_mem, State.clockSet_mem, State.takeSlot_rtc]
  · rw [publish_rtc, State.clockSet_rtc]
  · rw [publish_port, h.clockSet_port]
  · rw [publish_port, h.clockSet_port, flagsOf_one]

/-- Settles O54. -/
theorem setClockSetsTheCounter : Obligations.SetClockSetsTheCounter := by
  intro s n target h value passed answered
  refine ⟨fun ht => ?_, fun ht hst => ?_, fun ht hst => ?_, fun ht hst hpass hl ho ha => ?_⟩
  · exact h.turnedAway (h.plainEvent_target ht State.orderSetClock)
  all_goals
    subst ht
    have he : exec .setClock s = .next (publish s ((s.takeSlot n).1.orderSetClock (s.takeSlot n).2)) := h.plainEvent State.orderSetClock
  · exact h.turnedAway (State.orderSetClock_halted (s := (s.takeSlot n).1) _ hst ▸ he)
  all_goals
    have hbody : BitVec.ofNat 32 ((s.takeSlot n).1.bodyField (s.takeSlot n).2.ref.slot 0 4) = value := by
      rw [State.takeSlot_ref, State.takeSlot_bodyField]
    clear_value value
    have hframe := State.clockSet_frame (s := (s.takeSlot n).1) (s.takeSlot n).2 value
    have hrev := State.clockSet_rev (s := (s.takeSlot n).1) (s.takeSlot n).2 value
    have hpassed := State.clockSet_passed (s := (s.takeSlot n).1) (s.takeSlot n).2 value
  · have hord : (s.takeSlot n).1.orderSetClock (s.takeSlot n).2 = (s.takeSlot n).1.clockSet (s.takeSlot n).2 value := by
      rcases hst with hst | ⟨hst, hpass⟩
      · rw [State.orderSetClock_sets (s := (s.takeSlot n).1) _ hst, hbody]
      · rw [State.orderSetClock_standby (s := (s.takeSlot n).1) _ hst, hbody, State.checkWakeTime, if_neg (fun hw => hpass (hpassed.mp hw))]
    rw [hord] at he
    refine ⟨_, he, h.clockSet_answered value, ?_, ?_⟩
    · exact (publish_device (by rw [hrev]; exact List.mem_cons_self)).trans (by rw [hrev]; rfl)
    · generalize (s.takeSlot n).1.clockSet (s.takeSlot n).2 value = x at *
      rw [publish, hframe]
      rfl
  · rw [State.orderSetClock_standby (s := (s.takeSlot n).1) _ hst, hbody] at he
    have hmem := State.clockSet_mem (s := (s.takeSlot n).1) (s.takeSlot n).2 value
    have hport := State.clockSet_port (s := (s.takeSlot n).1) (s.takeSlot n).2 value
    have hrtc := State.clockSet_rtc (s := (s.takeSlot n).1) (s.takeSlot n).2 value
    generalize (s.takeSlot n).1.clockSet (s.takeSlot n).2 value = x at *
    rw [State.checkWakeTime_standby (hpassed.mpr hpass) (by rw [hframe]; exact hst)] at he
    refine ⟨_, he, h.answeredWaking ?_ ?_ ?_ hl ho ha, ?_, (State.wakeStart_begins _ _ _).from ?_⟩
    · rw [hrtc]
      exact hframe
    · rw [hrtc, hmem, State.takeSlot_rtc]
    · rw [hrtc, hport, State.takeSlot_rtc]
    · refine (publish_device ?_).trans ?_
      · rw [State.wakeStart_rev, hrev]
        exact List.mem_cons_self
      · rw [State.wakeStart_rev, hrev]
        rfl
    · exact hframe

end Sys2Proof.Machine
end

section
/-! PROOFS. Seconds, the supply, and the zeroing of exchange memory before a wake. -/

namespace Sys2Proof.Machine

/-! ## Seconds (R162, R185) -/

theorem bytesBE_four_inj {v w : Nat} (hv : v < 2 ^ 32) (hw : w < 2 ^ 32) (h : bytesBE 4 v = bytesBE 4 w) : v = w := by
  simp only [bytesBE, List.cons.injEq, and_true] at h
  obtain ⟨h3, h2, h1, h0⟩ := h
  have key {a b : Nat} (hab : BitVec.ofNat 8 a = BitVec.ofNat 8 b) : a % 256 = b % 256 := by
    have := congrArg BitVec.toNat hab
    simpa using this
  have h3 := key h3
  have h2 := key h2
  have h1 := key h1
  have h0 := key h0
  norm_num at h3 h2 h1 h0 hv hw
  omega

/-- A second that passes shows in the device status record. -/
theorem State.deviceImage_second (s : State) : s.deviceImage ≠ ({ s with rtc := s.rtc + 1 } : State).deviceImage := by
  intro h
  have hf : ({ s with rtc := s.rtc + 1 } : State).deviceFlags = s.deviceFlags := rfl
  simp only [State.deviceImage, hf, List.append_assoc, List.append_cancel_left_eq] at h
  have hr := bytesBE_four_inj s.rtc.isLt (s.rtc + 1).isLt (List.append_inj h (by rw [bytesBE_length, bytesBE_length])).1
  have hne : s.rtc ≠ s.rtc + 1 := by
    intro he
    bv_omega
  exact hne (BitVec.eq_of_toNat_eq hr)

theorem publish_device_changed {s t : State} (h : s.deviceImage ≠ t.deviceImage) : (publish s t).rev.device = (t.rev.device + 2) % 65536 := by
  simp [nextRevisions, h, bumpIf]

theorem exec_rtcSecond {s : State} (hm : s.pw.mains = true) (hw : s.rev.wrote = []) :
    exec .rtcSecond s = .next (publish s { s with rtc := s.rtc + 1 }) := by
  change execRtcSecond s = _
  rw [execRtcSecond, if_pos hm, commit_eq]
  rw [hw]
  rfl

/-! ## The power-good hold and the reset hold (R152, R165, R166, R167) -/

/-- The close of an event whose base differs in the log mirror alone. -/
theorem commit_steady {s b t : State} (hs : s.steady) (h1 : b.readBack = s.readBack) (h2 : b.rev = s.rev) : commit b t = publish b t := by
  refine commit_eq (List.all_eq_true.mpr fun p _ => ?_)
  have hr : b.readsGood p = s.readsGood p := by simp only [State.readsGood, h1, h2]
  rw [hr]
  exact hs.2 p

theorem exec_powerGoodHoldEnd {s : State} (hs : s.steady) (hst : s.pw.state = .powerFail) (hw : s.pw.warning = false)
    (hh : s.pw.hold.isSome = true) : exec .powerGoodHoldEnd s = .next (publish (if s.pw.cold then s.mirrorCleared else s) s.powerGood) := by
  have hends : s.holdEnds = true := by simp [State.holdEnds, hst, hw, hh]
  change execPowerGoodHoldEnd s = _
  rw [execPowerGoodHoldEnd, if_pos ⟨hs.1, hends⟩]
  congr 1
  split
  · exact commit_steady hs rfl rfl
  · exact commit_steady hs rfl rfl

theorem exec_resetHoldEnd {s : State} (hs : s.steady) (hst : s.pw.state = .powerFail) (hh : s.pw.resetHold.isSome = true) :
    exec .resetHoldEnd s = .next (publish s.mirrorCleared s.resetHoldEnd) := by
  change execResetHoldEnd s = _
  rw [execResetHoldEnd, if_pos ⟨hs.1, hst, hh⟩]
  exact congrArg _ (commit_steady hs rfl rfl)

/-- A hold ends in no power phase that a wake does not write over. -/
theorem State.powerGood_warm {s : State} (hc : s.pw.cold = false) (hr : s.pw.resetHold = none) : s.powerGood =
    (s.updPower (fun p => { p with hold := none, cold := false })).wakeStart (if s.pw.resetPending then s.pw.lastWake else .warningRelease) := by
  rw [State.powerGood, hc, hr]
  rfl

theorem State.powerGood_cold {s : State} (hc : s.pw.cold = true) (hr : s.pw.resetHold = none) (hp : s.pw.resetPending = false) : s.powerGood =
    (s.updPower (fun p => { p with hold := none, cold := false })).zeroExchange.wakeStart .mains := by
  rw [State.powerGood, hc, hr, State.failWakeCause, hp]
  rfl

theorem State.resetHoldEnd_wakes {s : State} (hw : s.pw.warning = false) (hh : s.pw.hold = none) : s.resetHoldEnd =
    (s.zeroExchange.updPower (fun p => { p with resetHold := none, resetMax := none })).wakeStart s.pw.lastWake := by
  rw [State.resetHoldEnd]
  exact if_neg (by simp [hw, hh])

/-- Settles O56, event by event. -/
theorem theSupplyFallsAndReturns : Obligations.TheSupplyFallsAndReturns := by
  intro s
  refine ⟨fun hm hw => ?_, fun hm => ?_, fun hs hst hw => ?_, fun hs hst hw hh hr hc => ?_, fun hm => ?_, fun warning hm => ?_, fun hm => ?_⟩
  · exact ⟨_, exec_rtcSecond hm hw, publish_device_changed s.deviceImage_second, rfl⟩
  · change execRtcSecond s = _
    rw [execRtcSecond, hm]
    rfl
  · exact ⟨_, (event_steady hs).trans (by rw [if_pos ⟨hst, hw⟩]), rfl⟩
  · have he := exec_powerGoodHoldEnd hs hst hw hh
    rw [State.powerGood_warm hc hr] at he
    have hb := State.wakeStart_begins (if s.pw.cold then s.mirrorCleared else s) (s.updPower (fun p => { p with hold := none, cold := false }))
      (if s.pw.resetPending then s.pw.lastWake else .warningRelease)
    exact ⟨_, he, hb.pw, hb.ret, hb.disp, hb.store, hb.met, hb.fp, hb.power, hb.awake, hb.others⟩
  · have he : exec .mainsLoss s = .next s.mainsLost := by
      change execMainsLoss s = _
      rw [execMainsLoss, if_pos hm]
    refine ⟨_, he, rfl, rfl, rfl, rfl, rfl, rfl, rfl, rfl, rfl, rfl, rfl, rfl, rfl, rfl, rfl, fun d => ?_⟩
    cases d <;> exact ⟨rfl, rfl⟩
  · change execMainsReturn warning s = _
    rw [execMainsReturn, hm]
    rfl
  · have he : exec .retentionSupplyLow s = .next { s with
        ret := { Config.lostRetention s.free with intact := false }, rtc := Config.lostCounter s.free, free := s.free + 1 } := by
      change execRetentionSupplyLow s = _
      rw [execRetentionSupplyLow, hm]
      rfl
    exact ⟨_, he, rfl, rfl⟩

/-! ## The zeroing (R195) -/

/-- Settles O57: both holds end in the zeroing and the start of a wake. -/
theorem zeroingPrecedesTheWake : Obligations.ZeroingPrecedesTheWake := by
  intro s c cause hs hst hw hc
  obtain ⟨x, he, hx⟩ : ∃ x : State, exec c s = .next (publish s.mirrorCleared (x.wakeStart cause))
      ∧ x = ({ s.zeroExchange with pw := x.pw } : State) := by
    rcases hc with ⟨rfl, hr, hh, rfl⟩ | ⟨rfl, hcold, hh, hr, hp, rfl⟩
    · exact ⟨_, by rw [exec_resetHoldEnd hs hst hr, State.resetHoldEnd_wakes hw hh], rfl⟩
    · exact ⟨_, by rw [exec_powerGoodHoldEnd hs hst hw hh, if_pos hcold, State.powerGood_cold hcold hr hp], rfl⟩
  have hb := State.wakeStart_begins s.mirrorCleared x cause
  obtain ⟨hm, hp, -⟩ := State.wakeStart_quiet (s := x) (.inr (by rw [hx]; rfl)) cause
  have hmem : (publish s.mirrorCleared (x.wakeStart cause)).mem = [] := hm.trans (by rw [hx]; rfl)
  have hport : (publish s.mirrorCleared (x.wakeStart cause)).port = State.reset.port := by
    have hpower : (0 : Word16) ||| Attn.power.mask = 0x1000 := by decide
    rw [publish_port, hp, hx]
    exact congrArg (fun a => { Port.zeroed with attn := a }) hpower
  generalize publish s.mirrorCleared (x.wakeStart cause) = t at *
  have hothers := hb.others
  have hfp (d : Side) : x.fp.get d = (s.fp.get d).rewritten (s.ret.sides.get d).locked := by
    rw [hx]
    cases d <;> rfl
  refine ⟨t, he, hmem, hport, ?_, ?_, ?_, ?_, ?_, ?_, ?_, ?_, fun d => ⟨?_, ?_, ?_, ?_⟩, fun v => ?_, fun d => ?_, fun r => ?_, ?_, ?_, ?_⟩
  · rw [hothers, hx]
    rfl
  · rw [hb.pw]
  · rw [hb.pw]
  · rw [hb.pw]
  · rw [hb.pw]
  · rw [hb.pw]
  · rw [hb.ret, hx]
    rfl
  · rw [hothers, hx]
    rfl
  · rw [hb.fp, hfp]
    rfl
  · rw [hb.fp, hfp]
    rfl
  · rw [hb.fp, hfp]
    rfl
  · rw [State.fpState, hb.fp, hfp]
    rfl
  · rw [hothers, hx]
    obtain ⟨d, p⟩ := v
    cases d <;> cases p <;> rfl
  · rw [hothers, hx]
    cases d <;> exact ⟨rfl, rfl⟩
  · rw [State.head, hb.disp, Eight.get_ofFun]
    rfl
  · rw [hb.store]
  · rw [hb.store]
  · apply State.ext_fields <;> first | with_reducible rfl | (rw [hothers, hx]; rfl)

end Sys2Proof.Machine
end

section
/-! PROOFS. The display bus: how it becomes busy and free, and failed attempts. -/

namespace Sys2Proof.Machine

/-! ## Heads side by side -/

theorem Eight.ext_get {α : Type} {x y : Eight α} (h : ∀ r, x.get r = y.get r) : x = y := by
  cases x
  cases y
  simp only [Eight.mk.injEq]
  exact ⟨h .saleA, h .saleB, h .priceA, h .priceB, h .mirror1, h .mirror2, h .mirror3, h .mirror4⟩

theorem Eight.set_set {α : Type} (x : Eight α) (r : Role) (v w : α) : (x.set r v).set r w = x.set r w := by cases r <;> rfl

theorem Eight.set_get {α : Type} (x : Eight α) (r : Role) : x.set r (x.get r) = x := by cases r <;> rfl

/-! ## The bus (R93, R95, R97) -/

theorem Display.tryCall_none {x : Display} (h : x.call = none) : x.tryCall = x := by
  rw [Display.tryCall, h]

/-- The bus seen free, no general call being asked for. -/
def Display.freed (x : Display) : Display := { x with bus := .free, awaitHigh := false, abandoned := false }

theorem Display.freeBus_quiet {x : Display} (h : x.call = none) : x.freeBus = x.freed := Display.tryCall_none (x := x.freed) h

/-- Settles O35, event by event. -/
theorem theBusIsWatched : Obligations.TheBusIsWatched := by
  intro s hs hc
  refine ⟨fun hr hb => ?_, fun hr hb => ?_, fun hr hf ha hb => ?_, fun hb ha => ⟨?_, ?_⟩, fun hr ha hb => ?_, fun ha => ?_⟩
  · exact ⟨_, (event_steady hs).trans (by rw [if_pos ⟨hr, hb⟩]), rfl⟩
  · exact ⟨_, (event_steady hs).trans (by rw [if_pos ⟨hr, hb⟩, State.updDisp, Display.freeBus_quiet hc]), rfl⟩
  · have hin : s.disp.inFlight = false := by
      simp only [Display.inFlight, Display.calling, hc, ha, hf]
      rfl
    have hcl : s.disp.clearing = false := by
      rcases hb with hb | hb
      · simp [Display.clearing, hb]
      · simp [Display.clearing, hb]
    exact ⟨_, (event_steady hs).trans (by rw [if_pos ⟨hr, hin, hcl⟩]), rfl⟩
  · have hcl : s.disp.clearing = true := by simp [Display.clearing, hb, ha]
    exact ⟨_, (event_steady hs).trans (by rw [if_pos hcl, if_pos rfl, State.updDisp, Display.freeBus_quiet hc]), rfl⟩
  · have hcl : s.disp.clearing = true := by simp [Display.clearing, hb, ha]
    exact ⟨_, (event_steady hs).trans (by rw [if_pos hcl, if_neg Bool.false_ne_true]), rfl⟩
  · exact ⟨_, (event_steady hs).trans (by rw [if_pos ⟨hr, ha, hb⟩, State.updDisp, Display.freeBus_quiet hc]), rfl⟩
  · exact ⟨_, (event_steady hs).trans (by rw [if_pos ha, State.updDisp, Display.freeBus_quiet hc]), rfl⟩

/-! ## Attempts that fail (R101) -/

theorem State.checkProbing_idle {s : State} (h : s.disp.step ≠ .probing) : s.checkProbing = s := if_neg fun hp => h hp.1

/-- A head after a failed attempt of an entry for it. -/
def Head.missed (h : Head) (e : Entry) (why : FailReason) : Head :=
  { h with fails := h.fails + 1, reason := some why, spacing := if e.kind = .sale ∨ e.kind = .zero then some 100 else h.spacing }

section failed
variable {s : State} {e : Entry} (hk : e.kind ≠ .probe) (why : FailReason)

/-- The count, the reason and the spacing of a failed attempt. -/
theorem State.startSpacing_missed : (s.updHead e.role (fun h => { h with fails := h.fails + 1, reason := some why })).startSpacing e =
    s.updHead e.role (fun h => h.missed e why) := by
  unfold State.startSpacing Head.missed
  split <;> simp only [State.updHead, State.updDisp, Eight.get_set_same, Eight.set_set]

include hk

theorem State.attemptFailed_retried (hf : (s.head e.role).fails < 2) : s.attemptFailed e why =
    (s.updHead e.role (fun h => h.missed e why)).updDisp (fun x => x.putBack { e with retry := true }) := by
  unfold State.attemptFailed
  dsimp only
  rw [if_neg hk, if_neg (by omega), State.startSpacing_missed]

theorem State.attemptFailed_third (hf : (s.head e.role).fails = 2) : s.attemptFailed e why =
    (s.updHead e.role (fun h => h.missed e why)).headFailed e.role why := by
  unfold State.attemptFailed
  dsimp only
  rw [if_neg hk, if_pos (by omega), State.startSpacing_missed]

end failed

/-- The controller's frame off a bus that is free again. -/
def State.offBus (s : State) : State := s.updDisp (fun x => ({ x with flight := none } : Display).freed)

/-- The controller's frame abandoned, its stop still owed (R95). -/
def State.abandon (s : State) : State := s.updDisp (fun x => { x with flight := none, bus := .own, abandoned := true })

theorem State.endFlight_quiet {s : State} (h : s.disp.call = none) : s.endFlight = s.offBus :=
  congrArg (fun x => ({ s with disp := x } : State)) (Display.freeBus_quiet (x := { s.disp with flight := none }) h)

section flights
variable {s : State} {f : Flight} (hf : s.disp.flight = some f) (hb : f.onBus = true)
include hf hb

theorem State.onFlight_eq (act : State → Flight → State) : s.onFlight act = act s f := by
  rw [State.onFlight, hf]
  exact if_pos hb

variable (hs : s.steady)
include hs

theorem exec_displayFrameNack (hd : f.dropped = false) (hc : s.disp.call = none) :
    exec .displayFrameNack s = .next (publish s
      (s.offBus.attemptFailed f.entry .noAck).checkProbing) := by
  change execDisplayFrameNack s = _
  rw [execDisplayFrameNack, event_steady hs, State.onFlight_eq hf hb, State.flightFailed, if_neg (by simp [hd]), State.endFlight_quiet hc]

theorem exec_clockStretchTimeout (hd : f.dropped = false) (hc : s.disp.call = none) :
    exec .clockStretchTimeout s = .next (publish s
      (s.abandon.attemptFailed f.entry .stretch).checkProbing) := by
  have hcall : s.disp.calling = false := by rw [Display.calling, hc]
  change execClockStretchTimeout s = _
  rw [execClockStretchTimeout, event_steady hs, State.stretched, hcall, if_neg Bool.false_ne_true, State.onFlight_eq hf hb, State.flightFailed,
    if_neg (by simp [hd])]
  rfl

theorem exec_arbitrationLost (hd : f.dropped = false) (hc : s.disp.call = none) :
    exec .arbitrationLost s = .next (publish s (s.updDisp (fun x => ({ x with flight := none, bus := .other } : Display).putBack f.entry))) := by
  have hcall : s.disp.calling = false := by rw [Display.calling, hc]
  change execArbitrationLost s = _
  rw [execArbitrationLost, event_steady hs, State.loseBus, hcall, if_neg Bool.false_ne_true, State.onFlight_eq hf hb]
  simp only [hd, Bool.false_eq_true, if_false]

end flights

/-! ## A head that becomes FAILED (R102, R103) -/

theorem Display.purge_quiet {x : Display} (h : x.flight = none) (r : Role) (gone : FrameKind → Bool) :
    x.purge r gone = { x with queue := x.queue.filter (fun e => !(decide (e.role = r) && gone e.kind)) } := by
  unfold Display.purge
  rw [h]

/-- A head as it becomes FAILED from another state. -/
def Head.down (h : Head) (why : FailReason) : Head :=
  { h with state := .failed, reason := some why, refresh := none, stale := none, spacing := none, probe := some 2000 }

theorem State.headFailed_eq {s : State} {r : Role} (h : (s.head r).state ≠ .failed) (why : FailReason) : s.headFailed r why =
    ((s.updHead r (fun h => h.down why)).updDisp (fun x => x.purge r (fun _ => true))).headChanged r (s.head r).state := by
  simp only [State.headFailed, Head.down, if_neg h]

/-- A head's entries leave the queue. -/
theorem Display.purge_all {x : Display} (h : x.flight = none) (r : Role) :
    x.purge r (fun _ => true) = { x with queue := x.queue.filter (fun e => decide (e.role ≠ r)) } := by
  rw [Display.purge_quiet h]
  congr 2
  funext e
  simp

/-- A head as it becomes FAILED, no frame of the controller being in flight, before its owner hears of it. -/
def State.headLost (s : State) (r : Role) (why : FailReason) : State := s.updDisp (fun x => { x with
  heads := x.heads.set r ((x.heads.get r).down why), queue := x.queue.filter (fun e => decide (e.role ≠ r)) })

theorem State.headFailed_quiet {s : State} {r : Role} (h : (s.head r).state ≠ .failed) (hf : s.disp.flight = none) (why : FailReason) :
    s.headFailed r why = (s.headLost r why).headChanged r (s.head r).state := by
  rw [State.headFailed_eq h]
  congr 1
  exact congrArg (fun x => ({ s with disp := x } : State))
    (Display.purge_all (x := { s.disp with heads := s.disp.heads.set r ((s.disp.heads.get r).down why) }) hf r)

/-- A change of state of a head that shows no sale. -/
theorem State.headChanged_plain {s : State} {r : Role} {old : HeadState} (h : (s.head r).state ≠ old) (hr : sideOfSale r = none) :
    s.headChanged r old = s.attn .display := by
  rw [State.headChanged, if_neg h, hr]

theorem sideOfSale_none {r : Role} (ha : r ≠ .saleA) (hb : r ≠ .saleB) : sideOfSale r = none := by
  unfold sideOfSale
  split <;> first | contradiction | rfl

theorem HeadState.ne_failed {st : HeadState} (h : st.shows = true) : st ≠ .failed := by
  rintro rfl
  cases h

/-- The third failed attempt of a head, its frame off the bus. -/
theorem State.thirdMiss_eq (s : State) (e : Entry) (why : FailReason) :
    (s.offBus.updHead e.role (fun h => h.missed e why)).headLost e.role why = { s with disp := { s.disp with
      heads := s.disp.heads.set e.role (((s.head e.role).missed e why).down why)
      queue := s.disp.queue.filter (fun q => decide (q.role ≠ e.role)), flight := none
      bus := .free, awaitHigh := false, abandoned := false } } := by
  have hheads : ((s.disp.heads.set e.role ((s.head e.role).missed e why)).set e.role
      (((s.disp.heads.set e.role ((s.head e.role).missed e why)).get e.role).down why)) =
      s.disp.heads.set e.role (((s.head e.role).missed e why).down why) := by rw [Eight.set_set, Eight.get_set_same]
  rw [← hheads]
  rfl

/-- A head that shows fields and misses its third frame is FAILED, and its owner hears of it. -/
theorem State.offBus_third {s : State} {e : Entry} (hk : e.kind ≠ .probe) (hf : (s.head e.role).fails = 2)
    (hs : (s.head e.role).state.shows = true) (why : FailReason) : s.offBus.attemptFailed e why =
    ((s.offBus.updHead e.role (fun h => h.missed e why)).headLost e.role why).headChanged e.role (s.head e.role).state := by
  have hst : ((s.offBus.updHead e.role (fun h => h.missed e why)).head e.role).state = (s.head e.role).state := by
    rw [State.updHead_head]
    rfl
  rw [State.attemptFailed_third (s := s.offBus) hk _ hf, State.headFailed_quiet (hst ▸ HeadState.ne_failed hs) rfl, hst]

/-- Settles O33. -/
theorem failedAttemptsAreRetried : Obligations.FailedAttemptsAreRetried := by
  intro s f hs hf hb hd hc hp
  refine ⟨fun hk hfails => ⟨?_, ?_⟩, ?_, fun hk hfails hshows ha hb' => ?_⟩
  · refine ⟨_, exec_displayFrameNack hf hb hs hd hc, ?_⟩
    rw [State.attemptFailed_retried (s := s.offBus) hk _ hfails, State.checkProbing_idle]
    · rfl
    · exact hp
  · refine ⟨_, exec_clockStretchTimeout hf hb hs hd hc, ?_⟩
    rw [State.attemptFailed_retried (s := s.abandon) hk _ hfails, State.checkProbing_idle]
    · rfl
    · exact hp
  · exact ⟨_, exec_arbitrationLost hf hb hs hd hc, rfl⟩
  · have he := exec_displayFrameNack hf hb hs hd hc
    have hdown : ((s.head f.entry.role).missed f.entry .noAck).down .noAck = { s.head f.entry.role with
        state := .failed, fails := 3, reason := some .noAck, refresh := none, stale := none, spacing := none, probe := some 2000 } := by
      simp only [Head.missed, Head.down, hfails]
    rw [State.offBus_third hk hfails hshows, State.thirdMiss_eq, hdown, State.headChanged_plain ?_ (sideOfSale_none ha hb'),
      State.checkProbing_idle ?_] at he
    · exact ⟨_, he, rfl, by rw [flagsOf_one]; rfl, rfl⟩
    · exact hp
    · rw [State.head, Eight.get_set_same]
      exact (HeadState.ne_failed hshows).symm

end Sys2Proof.Machine
end

section
/-! PROOFS. A sale head that becomes FAILED (R105, R106). -/

namespace Sys2Proof.Machine

theorem sideOfSale_saleRole (d : Side) : sideOfSale (saleRole d) = some d := by cases d <;> rfl

theorem State.messageDown_none {s : State} {d : Side} (h : (s.disp.lines.get d).order = none) (r : Role) : s.messageDown d r = s := by
  have hl : s.disp.lines.set d { s.disp.lines.get d with order := none } = s.disp.lines := by
    rw [← h]
    cases d <;> rfl
  rw [State.messageDown, h]
  exact congrArg (fun l => ({ s with disp := { s.disp with lines := l } } : State)) hl

/-- A sale head that leaves READY, no message of its side being in flight: the fueling point hears of it. -/
theorem State.headChanged_ready {s : State} {d : Side} (h : (s.head (saleRole d)).state = .failed) (hl : (s.disp.lines.get d).order = none) :
    s.headChanged (saleRole d) .ready = (s.attn .display).headReport d := by
  rw [State.headChanged, if_neg (by rw [h]; nofun), sideOfSale_saleRole]
  dsimp only
  rw [if_pos rfl, State.messageDown_none (s := s.attn .display) hl]

theorem State.meets_display_failed {s : State} {d : Side} (h : (s.head (saleRole d)).state = .failed) : s.meets d .display = false := by
  simp [State.meets, h]

/-- A sale in STARTING, FUELING or PAUSED ends with the failure of its head (R106). -/
theorem State.headReport_ends {s : State} {d : Side} (h : (s.head (saleRole d)).state = .failed) (hd : (s.fpState d).endable = true) :
    s.headReport d = s.endSale d .displayFail := by
  rw [State.headReport, if_pos hd, State.meets_display_failed h, if_neg Bool.false_ne_true, State.takeCause_ends hd rfl]

/-- A fueling point without a sale loses a prerequisite with its head (R3, R4, R12). -/
theorem State.headReport_unavailable {s : State} {d : Side} (h : (s.head (saleRole d)).state = .failed)
    (hd : s.fpState d = .idle ∨ s.fpState d = .calling ∨ s.fpState d = .finished) : s.headReport d = s.setFpState d .unavailable := by
  have hf : s.fuelable d = false := by simp [State.fuelable, State.meets_display_failed h]
  rw [State.headReport, State.reviewFp, hf]
  rcases hd with hd | hd | hd <;> rw [hd] <;> rfl

theorem State.headReport_withdraws {s : State} {d : Side} (h : (s.head (saleRole d)).state = .failed) (hd : s.fpState d = .authorized) :
    s.headReport d = (s.endAuth d .authWithdrawn).setFpState d .unavailable := by
  have hf : s.fuelable d = false := by simp [State.fuelable, State.meets_display_failed h]
  rw [State.headReport, State.reviewFp, hf, hd]
  rfl

theorem Display.tryCall_frame (x : Display) : x.tryCall = { x with call := x.tryCall.call, bus := x.tryCall.bus, wire := x.tryCall.wire } := by
  unfold Display.tryCall
  split
  · split <;> rfl
  · rfl

/-- What a purge of all entries of a head leaves alone. -/
theorem Display.purge_frame (x : Display) (r : Role) (gone : FrameKind → Bool) : x.purge r gone = { x with
    queue := x.queue.filter (fun e => !(decide (e.role = r) && gone e.kind)), flight := (x.purge r gone).flight
    call := (x.purge r gone).call, bus := (x.purge r gone).bus, wire := (x.purge r gone).wire } := by
  unfold Display.purge
  dsimp only
  split
  · split
    · split
      · rfl
      · rw [Display.tryCall_frame]
    · rfl
  · rfl

/-- What a change of a fueling point's state leaves alone. -/
theorem State.setFpState_frame (s : State) (d : Side) (st : FpState) : s.setFpState d st = { s with
    fp := s.fp.set d { s.fp.get d with state := st }, met := (s.setFpState d st).met, port := (s.setFpState d st).port } := by
  apply State.ext_fields <;> simp

/-- A fueling point that becomes UNAVAILABLE from another state: its flag is set, and its meters are UNASSIGNED (R4, R36). -/
theorem State.unavailable_port {s : State} {d : Side} (h : s.fpState d ≠ .unavailable) :
    (s.setFpState d .unavailable).port = { s.port with attn := s.port.attn ||| (fpFlag d).mask } := by
  rw [State.setFpState_port, if_neg h]
  rfl

theorem State.unavailable_meter {s : State} {d : Side} (h : s.fpState d ≠ .unavailable) (p : Product) :
    (s.setFpState d .unavailable).meter ⟨d, p⟩ = (s.meter ⟨d, p⟩).under .unassigned := by
  rw [State.setFpState_meter _ _ _ _ h, if_pos rfl]
  rfl

theorem State.endAuth_frame (s : State) (d : Side) (c : Cause) : s.endAuth d c = { s with
    fp := s.fp.set d { s.fp.get d with
      auth := none, refused := none, expiry := none, lastEnd := some { kind := .authEnded, cause := c, number := 0, time := s.rtc } }
    port := { s.port with attn := s.port.attn ||| (fpFlag d).mask } } := rfl

/-- The display of a sale head that has just become FAILED. -/
structure State.HeadDown (s x : State) (r : Role) (why : FailReason) : Prop where
  frame : x = { s with disp := x.disp }
  lines : x.disp.lines = s.disp.lines
  step : x.disp.step = s.disp.step
  head : (x.head r).state = .failed ∧ (x.head r).reason = some why ∧ (x.head r).probe = some 2000
  queue : ∀ e ∈ x.disp.queue, e.role ≠ r
  others : ∀ q, q ≠ r → x.head q = s.head q

theorem State.headDown_stale (s : State) (r : Role) (why : FailReason) :
    s.HeadDown ((s.updHead r (fun h => h.down why)).updDisp (fun x => x.purge r (fun _ => true))) r why := by
  have hframe := (s.updHead r (fun h => h.down why)).disp.purge_frame r (fun _ => true)
  have hhead (q : Role) : ((s.updHead r (fun h => h.down why)).updDisp (fun x => x.purge r (fun _ => true))).head q =
      (s.updHead r (fun h => h.down why)).head q := by
    rw [State.head, State.updDisp, hframe]
    rfl
  refine ⟨rfl, ?_, ?_, ?_, fun e he => ?_, fun q hq => ?_⟩
  · rw [State.updDisp, hframe]
    rfl
  · rw [State.updDisp, hframe]
    rfl
  · rw [hhead, State.updHead_head]
    exact ⟨rfl, rfl, rfl⟩
  · rw [State.updDisp, hframe, List.mem_filter] at he
    simpa using he.2
  · rw [hhead, State.updHead_head_ne _ _ hq]

theorem State.headDown_third (s : State) (e : Entry) (why : FailReason) :
    s.HeadDown ((s.offBus.updHead e.role (fun h => h.missed e why)).headLost e.role why) e.role why := by
  rw [State.thirdMiss_eq]
  refine ⟨rfl, rfl, rfl, ?_, fun e he => ?_, fun q hq => ?_⟩
  · rw [State.head, Eight.get_set_same]
    exact ⟨rfl, rfl, rfl⟩
  · simpa using (List.mem_filter.mp he).2
  · rw [State.head, Eight.get_set_ne _ _ hq]
    rfl

/-- Settles O34: both ways a READY sale head becomes FAILED lead to one report to the fueling point. -/
theorem aFailedSaleHeadEndsTheSale : Obligations.AFailedSaleHeadEndsTheSale := by
  intro s d c why hs hl hp hr hc
  obtain ⟨x, hx, he⟩ : ∃ x, s.HeadDown x (saleRole d) why
      ∧ ∀ u, (x.attn .display).headReport d = u → u.disp = x.disp → exec c s = .next (publish s u) := by
    rcases hc with ⟨rfl, rfl, ht⟩ | ⟨rfl, rfl, hfails, hcall, f, hf, hb, hd, hrole, hk⟩
    · refine ⟨_, s.headDown_stale (saleRole d) .stale, fun u hu _ => ?_⟩
      have hx := s.headDown_stale (saleRole d) .stale
      refine (event_steady hs).trans ?_
      rw [if_pos ⟨ht, by rw [hr]; rfl⟩, State.headFailed_eq (by rw [hr]; nofun), hr, State.headChanged_ready hx.head.1 (by rw [hx.lines, hl]), hu]
    · rw [← hrole] at hr hfails
      have hx := s.headDown_third f.entry .noAck
      rw [hrole] at hx
      refine ⟨_, hx, fun u hu hdisp => ?_⟩
      have hthird := State.offBus_third hk hfails (by rw [hr]; rfl) .noAck
      rw [hrole] at hr hthird
      rw [hr, State.headChanged_ready hx.head.1 (by rw [hx.lines, hl]), hu] at hthird
      rw [exec_displayFrameNack hf hb hs hd hcall, hthird, State.checkProbing_idle (by rw [hdisp, hx.step]; exact hp)]
  have hfailed : ((x.attn .display).head (saleRole d)).state = .failed := hx.head.1
  have hstate : (x.attn .display).fpState d = s.fpState d := by rw [hx.frame]; rfl
  have down {u : State} (hu : (x.attn .display).headReport d = u) (hdisp : u.disp = x.disp) (hport : u.port =
      { s.port with attn := s.port.attn ||| flagsOf [.display, fpFlag d] }) : exec c s = .next (publish s u)
      ∧ ((publish s u).head (saleRole d)).state = .failed ∧ ((publish s u).head (saleRole d)).reason = some why
      ∧ ((publish s u).head (saleRole d)).probe = some 2000 ∧ (∀ e ∈ (publish s u).disp.queue, e.role ≠ saleRole d)
      ∧ (∀ q, q ≠ saleRole d → (publish s u).head q = s.head q)
      ∧ (publish s u).port = { s.port with attn := s.port.attn ||| flagsOf [.display, fpFlag d] } := by
    have hh (q : Role) : (publish s u).head q = x.head q := by rw [publish_head, State.head, hdisp]; rfl
    refine ⟨he u hu hdisp, ?_, ?_, ?_, ?_, fun q hq => ?_, hport⟩
    · rw [hh]
      exact hx.head.1
    · rw [hh]
      exact hx.head.2.1
    · rw [hh]
      exact hx.head.2.2
    · rw [publish_disp, hdisp]
      exact hx.queue
    · rw [hh]
      exact hx.others q hq
  have hport : (x.attn .display).port = { s.port with attn := s.port.attn ||| Attn.display.mask } := by rw [State.attn_port, hx.frame]
  have hflags : flagsOf [.display, fpFlag d] = Attn.display.mask ||| (fpFlag d).mask := by rw [flagsOf_cons, flagsOf_one]
  generalize hy : x.attn .display = y at *
  have hyx : y = { s with disp := y.disp, port := y.port } := by
    rw [← hy, hx.frame]
    rfl
  have hdisp : y.disp = x.disp := by rw [← hy]; rfl
  refine ⟨fun hd => ?_, fun hd => ?_⟩
  · have hends := State.headReport_ends hfailed (hstate ▸ hd)
    have hns : y.fpState d ≠ .settling := FpState.endable_ne_settling (hstate ▸ hd)
    refine ⟨_, down hends (by rw [State.endSale_disp, hdisp]) ?_, ?_, ?_⟩
    · rw [State.endSale_port y d _ hns, hport, hflags, BitVec.or_assoc]
    · have hsale := (State.endSale_ends y d .displayFail hns).publish s
      have hf : y.fp.get d = s.fp.get d := by rw [hyx]
      rw [hf] at hsale
      exact hsale.from (by rw [hyx]) (by rw [hyx]) (by rw [hyx]) (by rw [hyx]) (by rw [hyx]) (by rw [hyx]) (by rw [hyx])
    · rw [State.endSale_frame, hyx]
      rfl
  · obtain ⟨z, hz, hzx, hzst, hzfp, hzport⟩ : ∃ z : State, y.headReport d = z.setFpState d .unavailable
        ∧ z = { y with fp := z.fp, port := { y.port with attn := z.port.attn } }
        ∧ z.fpState d ≠ .unavailable
        ∧ z.fp.set d { z.fp.get d with state := .unavailable } =
          s.fp.set d (if s.fpState d = .authorized then { (s.fp.get d).withdrawn s.rtc with state := .unavailable }
            else { s.fp.get d with state := .unavailable })
        ∧ z.port.attn ||| (fpFlag d).mask = y.port.attn ||| (fpFlag d).mask := by
      by_cases ha : s.fpState d = .authorized
      · refine ⟨_, State.headReport_withdraws hfailed (hstate.trans ha), rfl, ?_, ?_, ?_⟩
        · rw [State.endAuth_fpState, hstate, ha]
          nofun
        · rw [if_pos ha, State.endAuth_frame, hyx]
          simp only [Sides.get_set_same, Sides.set_set]
          rfl
        · rw [State.endAuth_frame]
          exact (BitVec.or_assoc _ _ _).trans (by rw [BitVec.or_self])
      · have hd' : s.fpState d = .idle ∨ s.fpState d = .calling ∨ s.fpState d = .finished := by tauto
        refine ⟨y, State.headReport_unavailable hfailed (by rw [hstate]; exact hd'), rfl, ?_, ?_, rfl⟩
        · rw [hstate]
          rcases hd' with h | h | h <;> rw [h] <;> nofun
        · rw [if_neg ha, hyx]
    refine ⟨_, down hz (by rw [State.setFpState_disp, hzx, hdisp]) ?_, ?_, fun p => ?_, ?_, ?_⟩
    · rw [State.unavailable_port hzst, hzport, hzx, hport, hflags, BitVec.or_assoc]
    · rw [publish_fp, State.setFpState_fp, hzfp]
    · rw [publish_meter, State.unavailable_meter hzst, hzx, hyx]
      rfl
    · rw [publish_met, State.setFpState_met_other, hzx, hyx]
    · rw [State.setFpState_frame, hzx, hyx]
      rfl

end Sys2Proof.Machine
end

section
/-! PROOFS. Which frame starts, and what it puts on the bus. -/

namespace Sys2Proof.Machine

/-! ## The order of the queue (R100) -/

/-- An entry is taken no later than another: by class, then by age. -/
def Entry.notAfter (e q : Entry) : Prop := e.kind.cls < q.kind.cls ∨ (e.kind.cls = q.kind.cls ∧ e.age ≤ q.age)

theorem Entry.notAfter_refl (e : Entry) : e.notAfter e := .inr ⟨rfl, Nat.le_refl _⟩

theorem Entry.notAfter_trans {e q r : Entry} (h : e.notAfter q) (g : q.notAfter r) : e.notAfter r := by
  unfold Entry.notAfter at *
  omega

theorem Entry.before_notAfter {e q : Entry} (h : e.before q = true) : e.notAfter q := by
  simp only [Entry.before, Bool.or_eq_true, Bool.and_eq_true, decide_eq_true_eq] at h
  unfold Entry.notAfter
  omega

theorem Entry.notBefore_notAfter {e q : Entry} (h : e.before q = false) : q.notAfter e := by
  simp only [Entry.before, Bool.or_eq_false_iff, Bool.and_eq_false_iff, decide_eq_false_iff_not] at h
  unfold Entry.notAfter
  omega

/-- One step of the choice of the next entry. -/
def Entry.better (best : Option Entry) (e : Entry) : Option Entry :=
  match best with
  | some b => if e.before b then some e else some b
  | none => some e

theorem Display.pick_eq (x : Display) : x.pick = (x.queue.filter x.due).foldl Entry.better none := rfl

/-- The choice among a list, from a best so far: it is one of them, and none goes before it. -/
theorem Entry.better_spec (xs : List Entry) (b : Entry) :
    ∃ e, xs.foldl Entry.better (some b) = some e ∧ (e = b ∨ e ∈ xs) ∧ e.notAfter b ∧ ∀ q ∈ xs, e.notAfter q := by
  induction xs generalizing b with
  | nil => exact ⟨b, rfl, .inl rfl, b.notAfter_refl, nofun⟩
  | cons x rest ih =>
    cases hx : x.before b
    · obtain ⟨e, he, hmem, hb, hrest⟩ := ih b
      refine ⟨e, by rw [List.foldl_cons, Entry.better, hx]; exact he, hmem.imp_right (List.mem_cons_of_mem _), hb, fun q hq => ?_⟩
      rcases List.mem_cons.mp hq with rfl | hq
      · exact Entry.notAfter_trans hb (Entry.notBefore_notAfter hx)
      · exact hrest q hq
    · obtain ⟨e, he, hmem, hb, hrest⟩ := ih x
      refine ⟨e, by rw [List.foldl_cons, Entry.better, hx]; exact he, ?_, Entry.notAfter_trans hb (Entry.before_notAfter hx), fun q hq => ?_⟩
      · rcases hmem with rfl | hmem
        · exact .inr List.mem_cons_self
        · exact .inr (List.mem_cons_of_mem _ hmem)
      · rcases List.mem_cons.mp hq with rfl | hq
        · exact hb
        · exact hrest q hq

theorem Display.pick_none {x : Display} (h : ∀ e ∈ x.queue, x.due e = false) : x.pick = none := by
  have hnil : x.queue.filter x.due = [] := List.filter_eq_nil_iff.mpr fun e he => by simp [h e he]
  rw [Display.pick_eq, hnil]
  rfl

theorem Display.pick_some {x : Display} (h : ∃ e ∈ x.queue, x.due e = true) :
    ∃ e, x.pick = some e ∧ e ∈ x.queue ∧ x.due e = true ∧ ∀ q ∈ x.queue, x.due q = true → e.notAfter q := by
  obtain ⟨e0, he0, hd0⟩ := h
  rw [Display.pick_eq]
  cases hl : x.queue.filter x.due with
  | nil => exact absurd (List.mem_filter.mpr ⟨he0, hd0⟩) (by rw [hl]; nofun)
  | cons b rest =>
    obtain ⟨e, he, hmem, hb, hrest⟩ := Entry.better_spec rest b
    have hin : e ∈ x.queue.filter x.due := by
      rw [hl]
      exact List.mem_cons.mpr hmem
    obtain ⟨hq, hd⟩ := List.mem_filter.mp hin
    refine ⟨e, he, hq, hd, fun q hq hdq => ?_⟩
    have hm : q ∈ b :: rest := hl ▸ List.mem_filter.mpr ⟨hq, hdq⟩
    rcases List.mem_cons.mp hm with rfl | hm
    · exact hb
    · exact hrest q hm

theorem Display.due_iff (x : Display) (e : Entry) :
    x.due e = true ↔ e.kind ≠ .sale ∨ e.retry = true ∨ (x.heads.get e.role).spacing = none := by
  unfold Display.due
  split
  · rename_i h
    simp [h]
  · rename_i h
    exact ⟨fun _ => .inl h, fun _ => rfl⟩

/-! ## The frame that starts (R94, R98, R100) -/

theorem State.transfers_ne_nil (s : State) (e : Entry) : s.transfers e ≠ [] := by
  intro h
  unfold State.transfers at h
  split at h
  case h_6 => split at h <;> cases h
  all_goals cases h

/-- What a frame that starts puts on the bus. -/
theorem State.launch_wire (s : State) (e : Entry) :
    ((s.putOnBus (s.launch e)).updDisp (fun x => { x with queue := x.queue.filter (fun q => decide (q ≠ e)) })).disp.wire =
      (s.launch e).now.wire (s.head e.role).addr (s.launch e).bytes := rfl

section start
variable {s : State} (hr : s.disp.ready = true) (hf : s.disp.flight = none) (hh : s.disp.holds = false)
include hr hf hh

theorem State.startFrame_nothing (hp : s.disp.pick = none) : s.startFrame = s := by
  rw [State.startFrame, if_pos hr, hf]
  dsimp only
  rw [if_neg (by simp [hh]), hp]

theorem State.startFrame_pick {e : Entry} (hp : s.disp.pick = some e) : s.startFrame =
    (s.putOnBus (s.launch e)).updDisp (fun x => { x with queue := x.queue.filter (fun q => decide (q ≠ e)) }) := by
  rw [State.startFrame, if_pos hr, hf]
  dsimp only
  rw [if_neg (by simp [hh]), hp]

end start

/-- Settles O31. -/
theorem framesStartByClassAndAge : Obligations.FramesStartByClassAndAge := by
  intro s hs hrail hbus hhigh haband hflight hcall htest hblank due
  have hready : s.disp.ready = true := by simp [Display.ready, hrail, hbus, hhigh, haband]
  have hholds : s.disp.holds = false := by simp [Display.holds, hcall, htest, hblank]
  have hdue (e : Entry) : s.disp.due e = true ↔ due e := s.disp.due_iff e
  refine ⟨fun hnone => ?_, fun hsome => ?_⟩
  · have hp := Display.pick_none (x := s.disp) fun e he => Bool.eq_false_iff.mpr fun h => hnone e he ((hdue e).mp h)
    exact ⟨_, (event_steady hs).trans (by rw [State.startFrame_nothing hready hflight hholds hp]), rfl⟩
  · obtain ⟨e, hp, hq, hd, hfirst⟩ := Display.pick_some (x := s.disp) (hsome.imp fun e he => ⟨he.1, (hdue e).mpr he.2⟩)
    obtain ⟨now, rest, hts⟩ := List.exists_cons_of_ne_nil (s.transfers_ne_nil e)
    have hnow : (s.launch e).now = now := by rw [State.launch, hts]; rfl
    have hbytes : (s.launch e).bytes = s.transferBytes e.role now := by rw [State.launch, hts]; rfl
    refine ⟨_, e, s.launch e, (event_steady hs).trans (by rw [State.startFrame_pick hready hflight hholds hp]), hq, (hdue e).mp hd,
      fun q hq hdq => hfirst q hq ((hdue q).mpr hdq), rfl, rfl, rfl, ?_, fun field hfield => ?_, fun hstatus => ?_, fun d hk hrole => ?_, rfl⟩
    · rw [State.launch, hts]
      rfl
    · have hwire := State.launch_wire s e
      rw [hfield] at hwire
      refine ⟨by rw [hbytes, ← hnow, hfield]; rfl, hwire.trans ?_⟩
      cases field <;> rfl
    · have hwire := State.launch_wire s e
      rw [hstatus] at hwire
      exact hwire
    · rw [State.launch, hk, hrole, sideOfSale_saleRole]

end Sys2Proof.Machine
end

section
/-! PROOFS. What a completed frame does. -/

namespace Sys2Proof.Machine

theorem State.updHead_updHead (s : State) (r : Role) (f g : Head → Head) : (s.updHead r f).updHead r g = s.updHead r (fun h => g (f h)) := by
  simp only [State.updHead, State.updDisp, Eight.get_set_same, Eight.set_set]

/-! ## A field that is acknowledged (R99, R101) -/

/-- A head that shows new bytes in a field. -/
def Head.showing (h : Head) (f : Field) (bytes : List Byte) : Head :=
  match f with
  | .sale => { h with sale := bytes }
  | .message => { h with message := bytes }
  | .board => { h with board := bytes }

theorem State.showAcked_field {s : State} {r : Role} {f : Field} (h : f ≠ .message) (bytes : List Byte) :
    s.showAcked r f bytes = s.updHead r (fun h => h.showing f bytes) := by
  cases f
  · rfl
  · exact absurd rfl h
  · rfl

theorem State.showAcked_message {s : State} {r : Role} {d : Side} (h : r = saleRole d) (bytes : List Byte) :
    s.showAcked r .message bytes = (s.updHead r (fun h => h.showing .message bytes)).messageShown d bytes := by
  subst h
  cases d <;> rfl

/-- A head whose frame completed (R101). -/
def Head.served (h : Head) (now : Word32) : Head := { h with fails := 0, lastDone := now, stale := h.stale.map (fun _ => 2500) }

section done
variable {s : State} {f : Flight} {b check : Byte} (hf : s.disp.flight = some f) (hb : f.onBus = true) (hs : s.steady)
include hf hb hs

theorem exec_displayFrameComplete : exec (.displayFrameComplete b check) s = .next (publish s (s.transferDone f b check)) := by
  change execDisplayFrameComplete b check s = _
  rw [execDisplayFrameComplete, event_steady hs, State.onFlight_eq hf hb]

end done

section transfer
variable {s : State} {f : Flight} {b check : Byte} (hd : f.dropped = false) (hc : s.disp.call = none)
include hd hc

theorem State.transferDone_last {fld : Field} (hn : f.now = .shows fld) (hr : f.rest = []) : s.transferDone f b check =
    (((s.offBus.showAcked f.entry.role fld f.bytes).frameDone f.entry.role).startSpacing f.entry).zeroAcked f := by
  rw [State.transferDone]
  dsimp only
  rw [if_neg (by simp [hd]), hn, hr, State.endFlight_quiet hc]

theorem State.transferDone_status (hn : f.now = .status) : s.transferDone f b check =
    (if f.entry.kind = .probe then s.offBus.probeAnswer f.entry b else s.offBus.refreshAnswer f.entry b check).checkProbing := by
  rw [State.transferDone]
  dsimp only
  rw [if_neg (by simp [hd]), hn, State.endFlight_quiet hc]

omit hc in
theorem State.transferDone_next {fld : Field} {next : Transfer} {rest : List Transfer} (hn : f.now = .shows fld) (hr : f.rest = next :: rest) :
    s.transferDone f b check = (s.showAcked f.entry.role fld f.bytes).updDisp (fun x =>
      ({ x with flight := some { f with now := next, rest := rest, onBus := false, bytes := [] } } : Display).freeBus) := by
  rw [State.transferDone]
  dsimp only
  rw [if_neg (by simp [hd]), hn, hr]

end transfer

theorem State.zeroAcked_other {s : State} {f : Flight} (h : f.entry.kind ≠ .zero) : s.zeroAcked f = s := by
  unfold State.zeroAcked
  split
  · rename_i hk _
    exact absurd hk h
  · rfl

theorem State.startSpacing_none {s : State} {e : Entry} (h1 : e.kind ≠ .sale) (h2 : e.kind ≠ .zero) : s.startSpacing e = s :=
  if_neg (not_or.mpr ⟨h1, h2⟩)

theorem State.startSpacing_sale {s : State} {e : Entry} (h : e.kind = .sale ∨ e.kind = .zero) :
    s.startSpacing e = s.updHead e.role (fun h => { h with spacing := some 100 }) := if_pos h

/-- The display once a SALE or ZERO frame to a head is acknowledged in full. -/
def State.saleShown (s : State) (e : Entry) (bytes : List Byte) : Display := { s.disp with
  heads := s.disp.heads.set e.role { s.head e.role with
    sale := bytes, fails := 0, lastDone := s.rtc, stale := (s.head e.role).stale.map (fun _ => 2500), spacing := some 100 }
  flight := none, bus := .free, awaitHigh := false, abandoned := false }

theorem State.saleShown_eq (s : State) {e : Entry} (h : e.kind = .sale ∨ e.kind = .zero) (bytes : List Byte) :
    ((s.offBus.showAcked e.role .sale bytes).frameDone e.role).startSpacing e = { s with disp := s.saleShown e bytes } := by
  rw [State.showAcked_field (f := .sale) nofun, State.frameDone, State.startSpacing_sale h, State.updHead_updHead, State.updHead_updHead]
  rfl

/-! ## A MESSAGE frame (R111) -/

/-- What an acknowledged MESSAGE field does to the line of its side. -/
theorem State.messageShown_eq (s : State) (x : Display) (d : Side) (bytes : List Byte) :
    let line := x.lines.get d
    let hit := decide (bytes = line.text)
    let told := if hit then s.completeOpt line.order .ok 0 else s
    let line' : MessageLine := if hit then { line with
      order := none, timer := if line.timer = none ∧ 0 < line.duration then some (1000 * line.duration) else line.timer } else line
    ({ s with disp := x } : State).messageShown d bytes =
      { s with mem := told.mem, port := told.port, disp := { x with lines := x.lines.set d line' } } := by
  dsimp only
  unfold State.messageShown
  dsimp only
  split
  · rename_i h
    rw [decide_eq_true h, if_pos rfl, if_pos rfl, State.completeOpt_withDisp]
    have hframe := (s.completeOpt_onlyTold (x.lines.get d).order .ok 0).frame
    generalize s.completeOpt (x.lines.get d).order .ok 0 = u at hframe ⊢
    have hport : u.port = { s.port with attn := u.port.attn } := by rw [hframe]
    rw [hport, hframe]
    rfl
  · rename_i h
    have hl : x.lines.set d (x.lines.get d) = x.lines := by cases d <;> rfl
    simp only [decide_eq_false h, Bool.false_eq_true, if_false, hl]

/-- A completed MESSAGE frame to a sale head. -/
theorem State.messageFrame_eq (s : State) (d : Side) (bytes : List Byte) :
    let line := s.disp.lines.get d
    let hit := decide (bytes = line.text)
    let told := if hit then s.completeOpt line.order .ok 0 else s
    let line' : MessageLine := if hit then { line with
      order := none, timer := if line.timer = none ∧ 0 < line.duration then some (1000 * line.duration) else line.timer } else line
    (s.offBus.showAcked (saleRole d) .message bytes).frameDone (saleRole d) = { s with
      mem := told.mem, port := told.port
      disp := { s.disp with
        heads := s.disp.heads.set (saleRole d) { s.head (saleRole d) with
          message := bytes, fails := 0, lastDone := s.rtc, stale := (s.head (saleRole d)).stale.map (fun _ => 2500) }
        lines := s.disp.lines.set d line', flight := none, bus := .free, awaitHigh := false, abandoned := false } } := by
  dsimp only
  have hx : s.offBus.updHead (saleRole d) (fun h => h.showing .message bytes) =
      { s with disp := (s.offBus.updHead (saleRole d) (fun h => h.showing .message bytes)).disp } := rfl
  have hheads (v : Head) : s.disp.heads.set (saleRole d) v =
      (s.disp.heads.set (saleRole d) ((s.head (saleRole d)).showing .message bytes)).set (saleRole d) v := (Eight.set_set _ _ _ _).symm
  rw [hheads, State.showAcked_message rfl, State.frameDone, hx, State.messageShown_eq]
  simp only [State.updHead, State.updDisp, Eight.get_set_same]
  rfl

/-! ## A STATUS read (R99, R102, R197) -/

theorem foldl_add_toNat (bs : List Byte) (n : Nat) : bs.foldl (fun acc b => acc + b.toNat) n = n + (bs.map BitVec.toNat).sum := by
  induction bs generalizing n with
  | nil => rfl
  | cons b rest ih => rw [List.foldl_cons, ih, List.map_cons, List.sum_cons, Nat.add_assoc]

theorem Head.expected_eq (h : Head) : h.expected = ((h.sale ++ h.message ++ h.board).map BitVec.toNat).sum % 256 := by
  rw [Head.expected, foldl_add_toNat, Nat.zero_add]

theorem statusState_named {b : Byte} {st : HeadState} (h : (b = 1 ∧ st = .ready) ∨ (b = 2 ∧ st = .heating)) : statusState b = some st := by
  rcases h with ⟨rfl, rfl⟩ | ⟨rfl, rfl⟩ <;> rfl

/-- A head that moves between READY and HEATING, its state not changing or the head showing no sale (R102). -/
theorem State.headShift_eq {s : State} {r : Role} {st : HeadState} (h : (s.head r).state = st ∨ sideOfSale r = none) :
    s.headShift r st = { s.updHead r (fun h => { h with state := st }) with
      port := { s.port with attn := s.port.attn ||| flagsOf (if st = (s.head r).state then [] else [.display]) } } := by
  rw [State.headShift, State.headChanged, State.updHead_head]
  dsimp only
  by_cases he : st = (s.head r).state
  · rw [if_pos he, if_pos he, or_flagsOf_nil]
    rfl
  · rw [if_neg he, if_neg he, h.resolve_left (Ne.symm he), flagsOf_one]
    rfl

section answers
variable {s : State} {e : Entry} {b check : Byte} {st : HeadState} (hst : statusState b = some st)
  (hr : (s.head e.role).state = st ∨ sideOfSale e.role = none)
include hst hr

theorem State.refreshAnswer_agrees (hc : check.toNat = (s.head e.role).expected) : s.refreshAnswer e b check = { s with
    disp := { s.disp with heads := s.disp.heads.set e.role { s.head e.role with
      state := st, fails := 0, lastDone := s.rtc, stale := (s.head e.role).stale.map (fun _ => 2500) } }
    port := { s.port with attn := s.port.attn ||| flagsOf (if st = (s.head e.role).state then [] else [.display]) } } := by
  have hh : ((s.frameDone e.role).head e.role).state = (s.head e.role).state := by
    rw [State.frameDone, State.updHead_head]
  unfold State.refreshAnswer
  rw [hst]
  dsimp only
  rw [if_pos hc, State.headShift_eq (by rw [hh]; exact hr), hh, State.frameDone, State.updHead_updHead]
  rfl

theorem State.refreshAnswer_differs (hk : e.kind = .refresh) (hc : check.toNat ≠ (s.head e.role).expected) (hf : (s.head e.role).fails < 2) :
    s.refreshAnswer e b check = { s with
      disp := { s.disp with
        heads := s.disp.heads.set e.role { s.head e.role with state := st, fails := (s.head e.role).fails + 1, reason := some .check }
        queue := s.disp.queue.filter (fun q => !(decide (q.role = e.role) && decide (q.kind = e.kind))) ++ [{ e with retry := true }] }
      port := { s.port with attn := s.port.attn ||| flagsOf (if st = (s.head e.role).state then [] else [.display]) } } := by
  unfold State.refreshAnswer
  rw [hst]
  dsimp only
  have hnone : ¬ (e.kind = .sale ∨ e.kind = .zero) := by rw [hk]; nofun
  have hfails : ((s.headShift e.role st).head e.role).fails < 2 := by
    rw [State.headShift_eq hr]
    change ((s.updHead e.role (fun h => { h with state := st })).head e.role).fails < 2
    rw [State.updHead_head]
    exact hf
  rw [if_neg hc, State.attemptFailed_retried (by rw [hk]; nofun) .check hfails, State.headShift_eq hr]
  simp only [State.updHead, State.updDisp, Display.putBack, Head.missed, if_neg hnone, Eight.get_set_same, Eight.set_set]
  rfl

end answers

/-- A REFRESH stands in the queue whether or not the PROBE entries of its head leave it. -/
theorem Display.queued_filter (x : Display) (r : Role) :
    ({ x with queue := x.queue.filter (fun q => !(decide (q.role = r) && decide (q.kind = .probe))) } : Display).queued r .refresh =
      x.queued r .refresh := by
  rw [Display.queued, Display.queued, List.any_filter]
  congr 1
  funext e
  by_cases hr : e.role = r
  · cases e.kind <;> simp [hr]
  · simp [hr]

/-- A head that shows no sale answers its probe READY or HEATING (R102, R104). -/
theorem State.probeAnswer_up {s : State} {e : Entry} {b : Byte} {st : HeadState} (hst : statusState b = some st) (hr : sideOfSale e.role = none)
    (hf : s.disp.flight = none) (hne : (s.head e.role).state ≠ st) (hs : st.shows = true) :
    let kept := s.disp.queue.filter (fun q => !(decide (q.role = e.role) && decide (q.kind = .probe)))
    s.probeAnswer e b = { s with
      port := { s.port with attn := s.port.attn ||| Attn.display.mask }
      disp := { s.disp with
        heads := s.disp.heads.set e.role { s.head e.role with
          state := st, fails := 0, lastDone := s.rtc, refresh := some 1000, probe := none, spacing := none, stale := none }
        queue := if s.disp.queued e.role .refresh then kept else kept ++ [⟨e.role, .refresh, s.disp.nextAge, false⟩]
        nextAge := if s.disp.queued e.role .refresh then s.disp.nextAge else s.disp.nextAge + 1 } } := by
  intro kept
  unfold State.probeAnswer State.headUp
  rw [hst]
  dsimp only
  have hold : ((s.frameDone e.role).head e.role).state = (s.head e.role).state := by
    rw [State.frameDone, State.updHead_head]
  have hreq (x : Display) (h : (x.heads.get e.role).state.shows = true) : x.request e.role .refresh = x.enqueue e.role .refresh := if_pos h
  rw [hr, hold, State.frameDone, State.updHead_updHead, State.updDisp, Display.purge_quiet (by exact hf), hreq _ ?_, Display.enqueue_eq]
  · rw [State.headChanged_plain ?_ hr]
    · rw [← s.disp.queued_filter]
      rfl
    · change ((s.disp.heads.set _ _).get e.role).state ≠ _
      rw [Eight.get_set_same]
      exact hne.symm
  · rw [State.updHead_disp, Eight.get_set_same]
    exact hs

/-! ## A ZERO frame (R15, R109) -/

theorem State.zeroAcked_serves {s : State} {f : Flight} {d : Side} (hk : f.entry.kind = .zero) (hr : f.entry.role = saleRole d)
    (hd : s.fpState d = .starting) (hs : f.serial = some (s.fp.get d).saleSerial) :
    s.zeroAcked f = (s.updFp d (fun p => { p with gate2 := true })).evalStarting d := by
  rw [State.zeroAcked, hk, hr, sideOfSale_saleRole]
  exact if_pos ⟨hd, hs⟩

/-- A sale in STARTING whose grade is fixed and whose motors do not all run goes on waiting (R15). -/
theorem State.evalStarting_motors {s : State} {d : Side} {g : Grade} (hd : s.fpState d = .starting) (ha : s.pw.state = .active)
    (hg : (s.sale d).grade = some g) (hr : s.runningAll (s.sale d).drawn = false) :
    s.evalStarting d = s.updFp d (fun f => { f with gate3 := false }) := by
  have ht : (s.tryFix d).testGate3 d = s.updFp d (fun f => { f with gate3 := false }) := by
    rw [State.tryFix_fixed hg, State.testGate3, hr, Bool.and_false]
  rw [State.evalStarting, if_pos ⟨hd, ha⟩]
  dsimp only
  rw [ht, if_neg]
  simp [FuelPoint.gatesMet]

/-- Settles O32, frame by frame. -/
theorem completedFramesAct : Obligations.CompletedFramesAct := by
  intro s f b check hs hf hb hd hc hp
  have he := exec_displayFrameComplete (b := b) (check := check) hf hb hs
  refine ⟨fun hk hn hr => ?_, fun d hk hn hr hrole => ?_, fun field next rest hn hr hne => ?_, fun st hk hn hsame hst hag => ?_,
    fun d hk hn hr hrole hfp hser ha hg hrun => ?_, fun st hk hn hna hnb hold hst => ?_⟩
  · rw [State.transferDone_last hd hc hn hr, State.saleShown_eq s (.inl hk), State.zeroAcked_other (by rw [hk]; nofun)] at he
    exact ⟨_, he, rfl⟩
  · rw [State.transferDone_last hd hc hn hr, State.startSpacing_none (by rw [hk]; nofun) (by rw [hk]; nofun),
      State.zeroAcked_other (by rw [hk]; nofun)] at he
    have hm := s.messageFrame_eq d f.bytes
    rw [← hrole] at hm
    rw [hm] at he
    exact ⟨_, he, rfl⟩
  · rw [State.transferDone_next hd hn hr, State.showAcked_field hne, State.updDisp, Display.freeBus_quiet (by exact hc)] at he
    refine ⟨_, he, ?_⟩
    cases field
    · rfl
    · exact absurd rfl hne
    · rfl
  · have hr : (s.offBus.head f.entry.role).state = st ∨ sideOfSale f.entry.role = none :=
      hsame.imp id fun h => sideOfSale_none h.1 h.2
    have hexp := (s.head f.entry.role).expected_eq
    rw [State.transferDone_status hd hc hn, if_neg (by rw [hk]; nofun)] at he
    rw [← hexp]
    rw [← hexp] at hag
    by_cases hagree : check.toNat = (s.head f.entry.role).expected
    · rw [State.refreshAnswer_agrees (s := s.offBus) (statusState_named hst) hr hagree, State.checkProbing_idle (by exact hp)] at he
      refine ⟨_, he, ?_⟩
      rw [decide_eq_true hagree]
      rfl
    · have hfails : (s.head f.entry.role).fails < 2 := by
        simpa [hagree] using hag
      have hkind : (fun q : Entry => !(decide (q.role = f.entry.role) && decide (q.kind = f.entry.kind))) =
          fun q => !(decide (q.role = f.entry.role) && decide (q.kind = .refresh)) := by rw [hk]
      rw [State.refreshAnswer_differs (s := s.offBus) (statusState_named hst) hr hk hagree hfails, State.checkProbing_idle (by exact hp), hkind] at he
      refine ⟨_, he, ?_⟩
      rw [decide_eq_false hagree]
      rfl
  · obtain ⟨g, hg⟩ := Option.isSome_iff_exists.mp hg
    rw [State.transferDone_last hd hc hn hr, State.saleShown_eq s (.inr hk), State.zeroAcked_serves (s := { s with disp := s.saleShown f.entry f.bytes }) hk hrole hfp hser] at he
    have heval := State.evalStarting_motors (d := d)
      (s := ({ s with disp := s.saleShown f.entry f.bytes } : State).updFp d (fun p => { p with gate2 := true }))
      (by simpa [State.fpState] using hfp) ha hg hrun
    rw [heval] at he
    refine ⟨_, he, ?_⟩
    rw [State.updFp, State.updFp_fp, Sides.get_set_same, Sides.set_set]
    rfl
  · have hshows : st.shows = true := by rcases hst with ⟨-, rfl⟩ | ⟨-, rfl⟩ <;> rfl
    have hne : (s.head f.entry.role).state ≠ st := by
      rcases hst with ⟨-, rfl⟩ | ⟨-, rfl⟩ <;> rcases hold with h | h <;> rw [h] <;> nofun
    rw [State.transferDone_status hd hc hn, if_pos hk,
      State.probeAnswer_up (s := s.offBus) (statusState_named hst) (sideOfSale_none hna hnb) rfl hne hshows, State.checkProbing_idle (by exact hp)] at he
    exact ⟨_, he, rfl, by rw [flagsOf_one]; rfl, rfl⟩

end Sys2Proof.Machine
end

section
/-! PROOFS. The DISPLAY phase of a wake up to the end of the segment test. -/

namespace Sys2Proof.Machine

/-! ## The general calls (R98, R112) -/

theorem exec_generalCallComplete {s : State} {c : GeneralCall} (hs : s.steady) (hc : s.disp.call = some c) (hb : c.onBus = true) :
    exec .generalCallComplete s = .next (publish s (s.callDone c)) := by
  change execGeneralCallComplete s = _
  rw [execGeneralCallComplete, event_steady hs]
  simp only [hc, hb, if_true]

/-- The general call off the bus. -/
theorem State.callSent_eq (s : State) : s.callSent = s.updDisp (fun x => ({ x with call := none } : Display).freed) :=
  congrArg (fun x => ({ s with disp := x } : State)) (Display.freeBus_quiet (x := { s.disp with call := none }) rfl)

theorem State.callDone_test {s : State} (hw : s.pw.state = .waking) (hp : s.disp.step = .probing) (b : Bool) :
    s.callDone ⟨.test, b⟩ = s.callSent.testSent := if_pos ⟨hw, hp⟩

/-- A general call that is asked for with the bus free and no frame in flight starts at once (log 14). -/
theorem Display.tryCall_starts {x : Display} {c : GeneralCall} (hc : x.call = some c) (hb : x.bus = .free) (hh : x.awaitHigh = false)
    (ha : x.abandoned = false) (hf : x.flight = none) (ho : c.onBus = false) :
    x.tryCall = { x with call := some { c with onBus := true }, bus := .own, wire := c.kind.wire } := by
  rw [Display.tryCall, hc]
  exact if_pos ⟨hb, hh, ha, hf, ho⟩

theorem State.askCall_starts {s : State} (k : CallKind) (hb : s.disp.bus = .free) (hh : s.disp.awaitHigh = false)
    (ha : s.disp.abandoned = false) (hf : s.disp.flight = none) :
    s.askCall k = { s with disp := { s.disp with call := some ⟨k, true⟩, bus := .own, wire := k.wire } } :=
  congrArg (fun x => ({ s with disp := x } : State))
    (Display.tryCall_starts (x := { s.disp with call := some ⟨k, false⟩ }) (c := ⟨k, false⟩) rfl hb hh ha hf rfl)

/-! ## The map (R91) -/

/-- A configured head as the map's reading leaves it. -/
def State.mapped (s : State) (r : Role) : Head :=
  { Head.unconfigured (s.head r).lastDone with addr := (s.mapEntry r).1, source := (s.mapEntry r).2, state := .probing }

/-- The map was read for the roles `seen`, from `s` to `t`, every head of `s` being ABSENT and the queue empty. -/
structure State.MapRead (s t : State) (seen : List Role) : Prop where
  frame : t = { s with disp := { s.disp with heads := t.disp.heads, queue := t.disp.queue, nextAge := t.disp.nextAge }
                       port := { s.port with attn := t.port.attn } }
  attn : t.port.attn ||| Attn.display.mask = s.port.attn ||| Attn.display.mask
  head : ∀ r, t.head r = if r ∈ seen ∧ s.mapConfigures r = true then s.mapped r else s.head r
  queued : ∀ r k, t.disp.queued r k = (decide (r ∈ seen) && s.mapConfigures r && decide (k = .probe))

theorem State.MapRead.start {s : State} (hq : s.disp.queue = []) : s.MapRead s [] where
  frame := rfl
  attn := rfl
  head r := by simp
  queued r k := by simp [Display.queued, hq]

/-- No fueling point becomes ready while the device wakes (R1, R4). -/
theorem State.headReport_waking {s : State} {d : Side} (hw : s.pw.state = .waking) (hd : s.fpState d = .unavailable ∨ s.fpState d = .locked) :
    s.headReport d = s := by
  have hf : s.fuelable d = false := by simp [State.fuelable, State.meets, hw]
  rw [State.headReport, State.reviewFp, hf]
  rcases hd with hd | hd <;> rw [hd] <;> rfl

/-- A head that is newly configured while the device wakes: DISPLAY is set, and no fueling point changes (R102). -/
theorem State.headChanged_waking {s : State} {r : Role} (h : (s.head r).state ≠ .absent) (hw : s.pw.state = .waking)
    (hd : ∀ d, s.fpState d = .unavailable ∨ s.fpState d = .locked) : s.headChanged r .absent = s.attn .display := by
  rw [State.headChanged, if_neg h]
  cases sideOfSale r with
  | none => rfl
  | some d =>
    dsimp only
    rw [if_neg nofun, State.headReport_waking (s := s.attn .display) hw (hd d)]

/-- A PROBE entry for a head that has no entry, all its other entries having left the queue. -/
theorem Display.purge_enqueue {x : Display} {r : Role} (hf : x.flight = none) (hq : ∀ k, x.queued r k = false) :
    (x.purge r FrameKind.content).enqueue r .probe =
      { x with queue := x.queue ++ [⟨r, .probe, x.nextAge, false⟩], nextAge := x.nextAge + 1 } := by
  have hkept : x.queue.filter (fun e => !(decide (e.role = r) && e.kind.content)) = x.queue := by
    refine List.filter_eq_self.mpr fun e he => ?_
    have hne : e.role ≠ r := by
      rintro rfl
      have := hq e.kind
      rw [Display.queued, List.any_eq_false] at this
      exact this e he (by simp)
    simp [hne]
  rw [Display.purge_quiet hf, hkept, Display.enqueue, if_neg]
  exact Bool.eq_false_iff.mp (hq .probe)

section reading
variable {s t : State} {seen : List Role} {r : Role} (h : s.MapRead t seen) (hr : r ∉ seen)
include h hr

theorem State.MapRead.head_unseen : t.head r = s.head r := by
  rw [h.head, if_neg fun hs => hr hs.1]

theorem State.MapRead.queued_unseen (k : FrameKind) : t.disp.queued r k = false := by
  rw [h.queued, decide_eq_false hr]
  rfl

variable (ha : (s.head r).state = .absent) (hf : s.disp.flight = none) (hw : s.pw.state = .waking)
  (hd : ∀ d, s.fpState d = .unavailable ∨ s.fpState d = .locked)
include ha hf hw hd

theorem State.MapRead.configures (hc : s.mapConfigures r = true) : s.MapRead (t.configureHead r) (r :: seen) := by
  have hhead := h.head_unseen hr
  have hqueue := Display.purge_enqueue (x := (t.updHead r (fun _ => s.mapped r)).disp) (r := r) (by rw [h.frame]; exact hf) (h.queued_unseen hr)
  have hmap : t.mapEntry r = s.mapEntry r := by rw [h.frame]; rfl
  have hupd : t.updHead r (fun h => { Head.unconfigured h.lastDone with addr := (t.mapEntry r).1, source := (t.mapEntry r).2, state := .probing }) =
      t.updHead r (fun _ => s.mapped r) := by
    rw [State.updHead, State.updHead, hmap]
    exact congrArg (fun q => t.updDisp (fun x => { x with heads := x.heads.set r q })) (by rw [State.mapped, ← hhead]; rfl)
  have hcfg : t.configureHead r = ({ t with disp := { t.disp with
      heads := t.disp.heads.set r (s.mapped r), queue := t.disp.queue ++ [⟨r, .probe, t.disp.nextAge, false⟩]
      nextAge := t.disp.nextAge + 1 } } : State).attn .display := by
    unfold State.configureHead
    dsimp only
    rw [hupd, State.updDisp, hqueue, hhead, ha, State.headChanged_waking]
    · rfl
    · change ((t.disp.heads.set r (s.mapped r)).get r).state ≠ _
      rw [Eight.get_set_same]
      nofun
    · rw [h.frame]
      exact hw
    · rw [h.frame]
      exact hd
  rw [hcfg]
  refine ⟨?_, ?_, fun q => ?_, fun q k => ?_⟩
  · rw [h.frame]
    rfl
  · exact (BitVec.or_assoc _ _ _).trans (by rw [BitVec.or_self]; exact h.attn)
  · by_cases hq : q = r
    · subst hq
      rw [State.head, State.attn_disp, Eight.get_set_same, if_pos ⟨List.mem_cons_self, hc⟩]
    · rw [State.head, State.attn_disp, Eight.get_set_ne _ _ hq]
      refine (h.head q).trans ?_
      simp [hq]
  · have hold := h.queued q k
    rw [Display.queued] at hold ⊢
    rw [State.attn_disp, List.any_append, hold]
    by_cases hq : q = r
    · subst hq
      cases k <;> simp [hc, hr]
    · simp [hq, Ne.symm hq]

theorem State.MapRead.reads : s.MapRead (t.mapHead r) (r :: seen) := by
  have hhead := h.head_unseen hr
  have hconf : t.mapConfigures r = s.mapConfigures r := by rw [h.frame]; rfl
  unfold State.mapHead
  dsimp only
  rw [hconf]
  by_cases hc : s.mapConfigures r = true
  · rw [if_pos hc, hhead, if_neg (by rw [ha]; exact fun hn => hn.1 rfl)]
    exact h.configures hr ha hf hw hd hc
  · rw [if_neg hc, hhead, if_pos ha]
    refine ⟨h.frame, h.attn, fun q => ?_, fun q k => ?_⟩
    · rw [h.head q]
      by_cases hq : q = r
      · rw [if_neg (fun hn => hr (hq ▸ hn.1)), if_neg (fun hn => hc (hq ▸ hn.2))]
      · simp [hq]
    · rw [h.queued q k]
      by_cases hq : q = r
      · simp [hq, hr, hc]
      · simp [hq]

end reading

/-- The map read for a list of roles. -/
theorem State.MapRead.fold {s : State} (ha : ∀ r, (s.head r).state = .absent) (hf : s.disp.flight = none) (hw : s.pw.state = .waking)
    (hd : ∀ d, s.fpState d = .unavailable ∨ s.fpState d = .locked) (l seen : List Role) (t : State) (h : s.MapRead t seen)
    (hl : l.Nodup) (hdis : ∀ r ∈ l, r ∉ seen) : ∃ all, s.MapRead (l.foldl State.mapHead t) all ∧ ∀ r, r ∈ all ↔ r ∈ l ∨ r ∈ seen := by
  induction l generalizing seen t with
  | nil => exact ⟨seen, h, by simp⟩
  | cons r l ih =>
    obtain ⟨hr, hl⟩ := List.nodup_cons.mp hl
    have hstep := h.reads (hdis r List.mem_cons_self) (ha r) hf hw hd
    obtain ⟨all, hall, hmem⟩ := ih (r :: seen) _ hstep hl fun q hq hm => by
      rcases List.mem_cons.mp hm with rfl | hm
      · exact hr hq
      · exact hdis q (List.mem_cons_of_mem _ hq) hm
    exact ⟨all, hall, fun q => by rw [hmem, List.mem_cons, List.mem_cons]; tauto⟩

/-- The whole map read with every head ABSENT and an empty queue. -/
theorem State.readMap_read {s : State} (ha : ∀ r, (s.head r).state = .absent) (hq : s.disp.queue = []) (hf : s.disp.flight = none)
    (hw : s.pw.state = .waking) (hd : ∀ d, s.fpState d = .unavailable ∨ s.fpState d = .locked) :
    ∃ all, s.MapRead s.readMap all ∧ ∀ r, r ∈ all := by
  obtain ⟨all, hall, hmem⟩ := State.MapRead.fold ha hf hw hd allRoles [] s (.start hq) (by decide) fun _ _ => by simp
  exact ⟨all, hall, fun r => (hmem r).mpr (.inl (mem_allRoles r))⟩

/-- A PROBING head keeps the DISPLAY phase in its step 2 (R112). -/
theorem State.checkProbing_probing {s : State} {r : Role} (h : (s.head r).state = .probing) : s.checkProbing = s :=
  if_neg fun hn => (of_decide_eq_true (List.all_eq_true.mp hn.2.2 r (mem_allRoles r)) : (s.head r).state ≠ .probing) h

/-- Settles O36: the map, the TEST and the BLANK in turn. -/
theorem theDisplayPhaseProbesAndTests : Obligations.TheDisplayPhaseProbesAndTests := by
  intro s hs hw
  refine ⟨fun hset hstep ha hq hf hd hconf => ?_, fun hstep hcall => ?_, fun hstep hseg hb hh hab hf => ?_⟩
  · obtain ⟨all, hread, hall⟩ := State.readMap_read (s := s.updDisp (fun x => { x with settle := none, step := .probing })) ha hq hf hw hd
    have he : exec .displaySettleEnd s = .next (publish s
        ((s.updDisp (fun x => { x with settle := none, step := .probing })).readMap.attn .display).checkProbing) :=
      (event_steady hs).trans (by rw [if_pos ⟨hset, hstep, hw⟩])
    obtain ⟨r, hr⟩ := hconf
    generalize (s.updDisp (fun x => { x with settle := none, step := .probing })).readMap = u at hread he
    have hheads : ∀ q, u.head q = if s.mapConfigures q = true then s.mapped q else s.head q := fun q => by
      rw [hread.head q]
      simp only [hall q, true_and]
      rfl
    rw [State.checkProbing_probing (r := r) (by rw [State.attn_head, hheads r, if_pos hr]; rfl)] at he
    refine ⟨_, he, hheads, fun q k => ?_, ?_, ?_, ?_⟩
    · refine (hread.queued q k).trans ?_
      rw [decide_eq_true (hall q), Bool.true_and]
      rfl
    all_goals
      have hattn := hread.attn
      obtain ⟨heads, queue, age, attn, rfl⟩ : ∃ heads queue age attn, u = { s with
          disp := { s.disp with heads := heads, queue := queue, nextAge := age, settle := none, step := .probing }
          port := { s.port with attn := attn } } := ⟨_, _, _, _, hread.frame⟩
    · rfl
    · exact congrArg (fun a => ({ s.port with attn := a } : Port)) (hattn.trans (by rw [flagsOf_one]; rfl))
    · rfl
  · have he := exec_generalCallComplete hs hcall rfl
    rw [State.callDone_test hw hstep, State.callSent_eq] at he
    exact ⟨_, he, rfl⟩
  · have he : exec .segmentTestEnd s = .next (publish s ((s.updDisp (fun x => { x with segTest := none, step := .blanking })).askCall .blank)) :=
      (event_steady hs).trans (by rw [if_pos ⟨hseg, hstep⟩])
    rw [State.askCall_starts _ (by exact hb) (by exact hh) (by exact hab) (by exact hf)] at he
    exact ⟨_, he, rfl⟩

end Sys2Proof.Machine
end

section
/-! PROOFS. The BLANK that ends a wake or a shutdown. -/

namespace Sys2Proof.Machine

/-! ## The outputs disabled (R55, R72) -/

theorem State.disableValves_frame (s : State) : s.disableValves = { s with vlv := s.disableValves.vlv } := by
  unfold State.disableValves State.closeAll State.stopBlend State.closeSide State.updBlend State.updValveSide
  rfl

/-- The drives with their outputs disabled, the valves aside. -/
theorem State.disableDrives_frame (s : State) : s.disableDrives = { s with
    pw := { s.pw with drives := false }, vlv := s.disableDrives.vlv, mot := { recs := s.mot.recs.map MotorRec.stopped, queue := [] } } := by
  have hf := s.disableValves_frame
  have hv : s.disableDrives.vlv = s.disableValves.vlv := rfl
  rw [hv]
  unfold State.disableDrives
  generalize s.disableValves = x at hf ⊢
  rw [hf]
  rfl

theorem State.disableDrives_shut (s : State) (v : Meter) : s.disableDrives.valve v = .shut := by
  obtain ⟨d, p⟩ := v
  cases d <;> cases p <;> rfl

theorem State.disableDrives_slow (s : State) (d : Side) : (s.disableDrives.vlv.get d).slow = false := by cases d <;> rfl

theorem Three.map_get {α β : Type} (x : Three α) (f : α → β) (p : Product) : (x.map f).get p = f (x.get p) := by cases p <;> rfl

theorem State.disableDrives_motor (s : State) (m : Product) : s.disableDrives.motor m = (s.motor m).stopped := Three.map_get _ _ m

/-! ## The readers and the outputs in a wake (R66, R118, R119) -/

theorem State.readFitted_none {s : State} {d : Side} (h : s.readerFitted d = false) :
    (s.readFitted d).powerFresh d = s.updReader d (fun r => { r with fitted := false, cycles := 0 }) := by
  have hr : (s.readFitted d).updReader d (fun r => { r with cycles := 0 }) = s.updReader d (fun r => { r with fitted := false, cycles := 0 }) := by
    unfold State.readFitted State.updReader
    simp only [h, Sides.get_set_same, Sides.set_set]
  rw [State.powerFresh, hr, State.powerReader]
  exact if_pos (by rw [State.updReader, Sides.get_set_same])

theorem State.readersPhase_none {s : State} (h : ∀ d, s.readerFitted d = false) :
    s.readersPhase = { s with rdr := ⟨{ s.rdr.a with fitted := false, cycles := 0 }, { s.rdr.b with fitted := false, cycles := 0 }⟩ } := by
  rw [State.readersPhase]
  dsimp only
  rw [State.readFitted_none (h .a), State.readFitted_none (d := .b) (by exact h .b)]
  rfl

theorem State.drivesPhase_quiet {s : State} (h : ∀ m, (s.motor m).trip = false) :
    s.drivesPhase = { s with pw := { s.pw with drives := true } } := by
  have one (m : Product) (x : State) (hx : x.motor m = s.motor m) :
      (if (x.motor m).trip = true ∧ (x.motor m).state ≠ .fault then (x.updMotor m (fun r => r.faulted x.rtc)).attn .motor else x) = x :=
    if_neg fun hc => by rw [hx, h m] at hc; exact Bool.false_ne_true hc.1
  unfold State.drivesPhase
  simp only [one _ (s.updPower (fun p => { p with drives := true })) rfl]
  rfl

/-! ## A fueling point as its prerequisites come to stand (R4) -/

/-- The state of a fueling point that no sale holds, with every prerequisite standing or not. -/
def State.raised (s : State) (d : Side) : FpState :=
  if s.fpState d = .unavailable ∧ s.fuelable d = true then (s.fp.get d).readyState else s.fpState d

/-- A review of the prerequisites takes no fueling point back (R4). -/
def State.keepsReady (s : State) (d : Side) : Prop :=
  (s.fpState d = .idle ∨ s.fpState d = .calling ∨ s.fpState d = .finished ∨ s.fpState d = .authorized) → s.fuelable d = true

theorem State.keepsReady_of_out {s : State} {d : Side} (h : s.fpState d = .unavailable ∨ s.fpState d = .locked) : s.keepsReady d := fun hc => by
  rcases h with h | h <;> rw [h] at hc <;> rcases hc with hc | hc | hc | hc <;> cases hc

theorem State.reviewFp_raises {s : State} {d : Side} (h : s.keepsReady d) : s.reviewFp d = s.setFpState d (s.raised d) := by
  have hstay : s.setFpState d (s.fpState d) = s := if_pos rfl
  have hstays (hne : s.fpState d ≠ .unavailable) : s.setFpState d (s.raised d) = s := by
    rw [State.raised, if_neg fun hc => hne hc.1]
    exact hstay
  unfold State.reviewFp
  split
  · rename_i hst
    rw [State.raised]
    by_cases hf : s.fuelable d = true
    · rw [if_pos hf, if_pos ⟨hst, hf⟩]
    · rw [if_neg hf, if_neg fun hc => hf hc.2, hstay]
  · rename_i hst
    rw [if_pos (h (.inl hst)), hstays (hst ▸ nofun)]
  · rename_i hst
    rw [if_pos (h (.inr (.inl hst))), hstays (hst ▸ nofun)]
  · rename_i hst
    rw [if_pos (h (.inr (.inr (.inl hst)))), hstays (hst ▸ nofun)]
  · rename_i hst
    rw [if_pos (h (.inr (.inr (.inr hst)))), hstays (hst ▸ nofun)]
  · exact (hstays (by assumption)).symm

/-- The flags that a change of a fueling point to a state sets (R4, R193). -/
def State.stateFlags (s : State) (d : Side) (st : FpState) : List Attn :=
  (if s.fpState d = st then [] else [fpFlag d]) ++ (if st = .calling ∧ s.fpState d ≠ .calling then [.call] else [])

theorem State.setFpState_flags (s : State) (d : Side) (st : FpState) :
    (s.setFpState d st).port = { s.port with attn := s.port.attn ||| flagsOf (s.stateFlags d st) } := by
  rw [State.setFpState_port, State.stateFlags]
  by_cases h : s.fpState d = st
  · have hc : ¬ (st = .calling ∧ s.fpState d ≠ .calling) := fun hn => hn.2 (h.trans hn.1)
    rw [if_pos h, if_pos h, if_neg hc]
    exact congrArg (fun a => ({ s.port with attn := a } : Port)) BitVec.or_zero.symm
  · by_cases hc : st = .calling
    · subst hc
      simp [h, BitVec.or_assoc]
    · simp [h, hc]

/-- Both fueling points as their prerequisites come to stand. -/
structure State.Raises (s t : State) : Prop where
  fp : ∀ d, t.fp.get d = { s.fp.get d with state := s.raised d }
  port : t.port = { s.port with attn := s.port.attn ||| (flagsOf (s.stateFlags .a (s.raised .a)) ||| flagsOf (s.stateFlags .b (s.raised .b))) }
  met : ∀ m, (s.meter m).attr = .unassigned → t.meter m = s.meter m
  frame : t = { s with fp := t.fp, met := t.met, port := t.port }

theorem State.setFpState_raised_meter {s : State} {d : Side} {m : Meter} (h : (s.meter m).attr = .unassigned) :
    (s.setFpState d (s.raised d)).meter m = s.meter m := by
  by_cases hst : s.fpState d = s.raised d
  · rw [State.setFpState, if_pos hst]
  · have hup : s.raised d = (s.fp.get d).readyState := by
      unfold State.raised at hst ⊢
      split
      · rfl
      · rename_i hc
        exact absurd (if_neg hc).symm hst
    rw [State.setFpState_meter _ _ _ _ hst, hup, attributed_ready, Channel.attribute_unassigned h, ite_self]

theorem State.reviewBoth_raises {s : State} (h : ∀ d, s.keepsReady d) : s.Raises s.reviewBoth := by
  rw [State.reviewBoth, State.reviewFp_raises (h .a)]
  have hport := s.setFpState_flags .a (s.raised .a)
  have hframe := s.setFpState_frame .a (s.raised .a)
  have hmeter {m : Meter} (hm : (s.meter m).attr = .unassigned) := State.setFpState_raised_meter (d := .a) hm
  generalize s.setFpState .a (s.raised .a) = x at hport hframe hmeter ⊢
  have hb : x.fp.b = s.fp.b := by rw [hframe]; rfl
  have hst : x.fpState .b = s.fpState .b := congrArg FuelPoint.state hb
  have hfuel : x.fuelable .b = s.fuelable .b := by rw [hframe]; rfl
  have hready : x.keepsReady .b := fun hc => hfuel ▸ h .b (hst ▸ hc)
  have hup : x.raised .b = s.raised .b := by
    unfold State.raised
    rw [hst, hfuel]
    exact congrArg (fun f : FuelPoint => if s.fpState .b = .unavailable ∧ s.fuelable .b = true then f.readyState else s.fpState .b) hb
  have hflags : x.stateFlags .b (s.raised .b) = s.stateFlags .b (s.raised .b) := by rw [State.stateFlags, hst]; rfl
  rw [State.reviewFp_raises hready, hup]
  have hmeter' {m : Meter} (hm : (x.meter m).attr = .unassigned) := State.setFpState_raised_meter (d := .b) hm
  rw [hup] at hmeter'
  have hport' := x.setFpState_flags .b (s.raised .b)
  have hframe' := x.setFpState_frame .b (s.raised .b)
  generalize x.setFpState .b (s.raised .b) = t at hport' hframe' hmeter' ⊢
  refine ⟨fun d => ?_, ?_, fun m hm => (hmeter' (by rw [hmeter hm, hm])).trans (hmeter hm), ?_⟩
  · rw [hframe', hframe]
    cases d <;> rfl
  · rw [hport', hport, hflags]
    exact congrArg (fun a => ({ s.port with attn := a } : Port)) (BitVec.or_assoc ..)
  · rw [hframe', hframe]

theorem flagsOf_append (x y : List Attn) : flagsOf (x ++ y) = flagsOf x ||| flagsOf y := by
  induction x with
  | nil => exact BitVec.zero_or.symm
  | cons f x ih => rw [List.cons_append, flagsOf_cons, ih, flagsOf_cons, BitVec.or_assoc]

theorem flagsOf_or (p q : Prop) [Decidable p] [Decidable q] (f : Attn) :
    flagsOf (if p ∨ q then [f] else []) = flagsOf (if p then [f] else []) ||| flagsOf (if q then [f] else []) := by
  by_cases hp : p <;> by_cases hq : q <;> simp [hp, hq]

/-- METROLOGY as the changes of the store port set it (R172, R175, R180). -/
def StorePort.changeFlags (x y : StorePort) : List Attn :=
  if x.absent = y.absent ∧ x.fault = y.fault ∧ x.switchOn = y.switchOn ∧ (y.logFull && !x.logFull) = false then [] else [.metrology]

/-- The flags of changes that concern fueling-point states and the store port alone. -/
theorem State.changeFlags_fpsStore {s t : State} (hr : ∀ d, (s.rdr.get d).state = (t.rdr.get d).state)
    (hh : ∀ r, (s.head r).state = (t.head r).state) : flagsOf (s.changeFlags t) =
      flagsOf (s.stateFlags .a (t.fpState .a)) ||| flagsOf (s.stateFlags .b (t.fpState .b)) ||| flagsOf (s.store.changeFlags t.store) := by
  have hhead : allRoles.all (fun r => decide ((s.head r).state = (t.head r).state)) = true :=
    List.all_eq_true.mpr fun r _ => decide_eq_true (hh r)
  unfold State.changeFlags State.stateFlags StorePort.changeFlags
  rw [if_pos (hr .a), if_pos (hr .b), if_pos hhead]
  simp only [List.append_nil, flagsOf_append]
  rw [flagsOf_or]
  ac_rfl

theorem State.changeFlags_fps {s t : State} (hr : ∀ d, (s.rdr.get d).state = (t.rdr.get d).state)
    (hh : ∀ r, (s.head r).state = (t.head r).state) (hst : t.store = s.store) :
    flagsOf (s.changeFlags t) = flagsOf (s.stateFlags .a (t.fpState .a)) ||| flagsOf (s.stateFlags .b (t.fpState .b)) := by
  have hstore : s.store.changeFlags t.store = [] := if_pos (by simp [hst])
  rw [State.changeFlags_fpsStore hr hh, hstore, or_flagsOf_nil]

end Sys2Proof.Machine
end

section
/-! PROOFS. What the BLANK of a wake and of a shutdown leads to. -/

namespace Sys2Proof.Machine

/-- A head after a BLANK (R99). -/
def Head.blanked (h : Head) : Head := { h with sale := [], message := [], board := [] }

/-- The bus controller after a BLANK, off the bus. -/
def Display.blanked (x : Display) : Display :=
  { x with call := none, bus := .free, awaitHigh := false, abandoned := false, heads := Eight.ofFun (fun r => (x.heads.get r).blanked) }

theorem State.blankSent_eq (s : State) : s.callSent.blankHeads = { s with disp := s.disp.blanked } := by
  rw [State.callSent_eq]
  rfl

/-- The stale deadline of a head as the segment test of a wake ends (R105). -/
def Head.watched (h : Head) (r : Role) : Head :=
  { h with stale := if (r = .saleA ∨ r = .saleB) ∧ h.state.shows = true then some 2500 else h.stale }

theorem sideOfSale_isSome (r : Role) : (sideOfSale r).isSome = true ↔ r = .saleA ∨ r = .saleB := by cases r <;> decide

/-- The end of the segment test: the deadlines, and a REFRESH for each shown head (R112). -/
theorem State.endSegmentTest_asks (s : State) : ∃ x,
    ({ s.disp with step := .idle, heads := Eight.ofFun (fun r => (s.head r).watched r) } : Display).Asked x (fun _ k => k = .refresh)
      ∧ s.endSegmentTest = { s with disp := x } := by
  refine ⟨_, (Display.requests_asked _ allRoles .refresh).iff fun q k => by simp [mem_allRoles], ?_⟩
  have hw (r : Role) : (s.head r).watched r =
      if (sideOfSale r).isSome && (s.head r).state.shows then { s.head r with stale := some 2500 } else s.head r := by
    unfold Head.watched
    by_cases h : (r = .saleA ∨ r = .saleB) ∧ (s.head r).state.shows = true
    · rw [if_pos h, if_pos (by rw [(sideOfSale_isSome r).mpr h.1, h.2]; rfl)]
    · rw [if_neg h, if_neg fun hc => h ⟨(sideOfSale_isSome r).mp (Bool.and_eq_true _ _ ▸ hc).1, (Bool.and_eq_true _ _ ▸ hc).2⟩]
  simp only [hw]
  rfl

/-- The bus controller as the segment test of a wake ends, before its REFRESH requests (R112). -/
def State.segmentsTested (s : State) : Display :=
  { s.disp with call := none, bus := .free, awaitHigh := false, abandoned := false, step := .idle
                heads := Eight.ofFun (fun r => (s.head r).blanked.watched r) }

theorem State.segmentsTested_get (s : State) (r : Role) : s.segmentsTested.heads.get r = (s.head r).blanked.watched r := Eight.get_ofFun _ r

theorem State.endSegmentTest_blanked (s : State) : ∃ x, s.segmentsTested.Asked x (fun _ k => k = .refresh)
    ∧ ({ s with disp := s.disp.blanked } : State).endSegmentTest = { s with disp := x } := by
  obtain ⟨x, hx, he⟩ := ({ s with disp := s.disp.blanked } : State).endSegmentTest_asks
  have hhead (r : Role) : ({ s with disp := s.disp.blanked } : State).head r = (s.head r).blanked := Eight.get_ofFun _ r
  simp only [hhead] at hx
  exact ⟨x, hx, he⟩

/-- The end of a wake with no halt code held (R158). -/
theorem State.wakeEnd_active {s : State} (hh : s.halt.held = none) (hw : s.pw.state ≠ .active)
    (hd : ∀ m, (s.motor m).demand = ⟨false, false⟩) : s.wakeEnd = ({ s with
      pw := { s.pw with state := .active, phase := .none, devReset := false }
      port := { s.port with attn := s.port.attn ||| Attn.power.mask } } : State).reviewBoth := by
  have hact (z : State) (hz : z.pw.state ≠ .active) : z.setPowerState .active =
      { z with pw := { z.pw with state := .active }, port := { z.port with attn := z.port.attn ||| Attn.power.mask } } := if_neg hz
  unfold State.wakeEnd
  simp only [State.attn_halt, State.updPower_halt, hh]
  rw [hact _ (by exact hw), State.requeueMotors_none (by exact hd)]
  have ha : s.port.attn ||| Attn.power.mask ||| Attn.power.mask = s.port.attn ||| Attn.power.mask := by rw [BitVec.or_assoc, BitVec.or_self]
  exact congrArg State.reviewBoth (congrArg (fun a => ({ s with
    pw := { s.pw with state := .active, phase := .none, devReset := false }, port := { s.port with attn := a } } : State)) ha)

/-- The wake's last steps after its BLANK, up to the fueling points that become ready (R112, R118, R158). -/
theorem State.wakeBlankSent_eq {s x : State} {y : Display} (hx : s.endSegmentTest = { s with disp := y })
    (hw : s.pw.state = .waking) (hf : ∀ d, s.readerFitted d = false) (ht : ∀ m, (s.motor m).trip = false)
    (hd : ∀ m, (s.motor m).demand = ⟨false, false⟩) (hh : s.halt.held = none)
    (hx' : x = { s with
      pw := { s.pw with state := .active, phase := .none, drives := true, devReset := false }
      rdr := ⟨{ s.rdr.a with fitted := false, cycles := 0 }, { s.rdr.b with fitted := false, cycles := 0 }⟩
      disp := y, port := { s.port with attn := s.port.attn ||| Attn.power.mask } }) : s.wakeBlankSent = x.reviewBoth := by
  obtain ⟨a, ha⟩ : ∃ a : State, a = { s with
    pw := { s.pw with phase := .readers }, disp := y, port := { s.port with attn := s.port.attn ||| Attn.power.mask } } := ⟨_, rfl⟩
  have hread := State.readersPhase_none (s := a) (by rw [ha]; exact hf)
  obtain ⟨b, hb⟩ : ∃ b : State, b = { a with
    rdr := ⟨{ a.rdr.a with fitted := false, cycles := 0 }, { a.rdr.b with fitted := false, cycles := 0 }⟩
    pw := { a.pw with phase := .drives }, port := { a.port with attn := a.port.attn ||| Attn.power.mask } } := ⟨_, rfl⟩
  have hdrive := State.drivesPhase_quiet (s := b) (by rw [hb, ha]; exact ht)
  obtain ⟨c, hc⟩ : ∃ c : State, c = { b with pw := { b.pw with drives := true } } := ⟨_, rfl⟩
  have hend := State.wakeEnd_active (s := c) (by rw [hc, hb, ha]; exact hh) (by rw [hc, hb, ha]; exact hw ▸ nofun) (by rw [hc, hb, ha]; exact hd)
  have hattn : s.port.attn ||| Attn.power.mask ||| Attn.power.mask ||| Attn.power.mask = s.port.attn ||| Attn.power.mask := by
    simp only [BitVec.or_assoc, BitVec.or_self]
  calc s.wakeBlankSent = (((a.readersPhase).setPhase .drives).drivesPhase).wakeEnd := by rw [State.wakeBlankSent, hx, ha]; rfl
    _ = b.drivesPhase.wakeEnd := by rw [hread, hb]; rfl
    _ = c.wakeEnd := by rw [hdrive, hc]
    _ = x.reviewBoth := by
      rw [hend, hx', ← hattn, hc, hb, ha]

/-- The bus controller as a shutdown leaves it (R113). -/
def State.parkedDisplay (s : State) : Display :=
  { s.disp with
    queue := [], flight := none, call := none, bus := .free, awaitHigh := false, abandoned := false, rail := false
    settle := none, segTest := none, step := .idle, heads := Eight.ofFun (fun r => (s.head r).blanked.parked) }

theorem State.parkDisplay_blanked (s : State) : ({ s with disp := s.disp.blanked } : State).parkDisplay = { s with
    disp := s.parkedDisplay
    port := if allRoles.any (fun r => decide ((s.head r).parked.state ≠ (s.head r).state)) then
      { s.port with attn := s.port.attn ||| Attn.display.mask } else s.port } := by
  have hhead (r : Role) : ({ s with disp := s.disp.blanked } : State).head r = (s.head r).blanked := Eight.get_ofFun _ r
  have hget (r : Role) : s.disp.blanked.heads.get r = (s.head r).blanked := Eight.get_ofFun _ r
  have hstate (h : Head) : h.blanked.parked.state = h.parked.state ∧ h.blanked.state = h.state := ⟨rfl, rfl⟩
  unfold State.parkDisplay
  simp only [hhead, hget, hstate, State.updDisp]
  unfold State.attnIf
  split <;> rfl

/-- The stale deadlines that run again once a BLANK that outlasts its wake has been sent (R105). -/
theorem State.resume_blanked (s : State) : ({ s with disp := s.disp.blanked } : State).updDisp Display.resumeDeadlines = { s with
    disp := { s.disp with
      call := none, bus := .free, awaitHigh := false, abandoned := false
      heads := Eight.ofFun (fun r => { s.head r with
        sale := [], message := [], board := []
        stale := if (r = .saleA ∨ r = .saleB) ∧ (s.head r).state.shows = true ∧ (s.head r).stale = none then some 2500
          else (s.head r).stale }) } } := by
  have hone (r : Role) : (if (sideOfSale r).isSome && (s.head r).blanked.state.shows && (s.head r).blanked.stale.isNone then
      { (s.head r).blanked with stale := some 2500 } else (s.head r).blanked) = { s.head r with
        sale := [], message := [], board := []
        stale := if (r = .saleA ∨ r = .saleB) ∧ (s.head r).state.shows = true ∧ (s.head r).stale = none then some 2500
          else (s.head r).stale } := by
    have hiff : ((sideOfSale r).isSome && (s.head r).blanked.state.shows && (s.head r).blanked.stale.isNone) = true ↔
        (r = .saleA ∨ r = .saleB) ∧ (s.head r).state.shows = true ∧ (s.head r).stale = none := by
      rw [Bool.and_eq_true, Bool.and_eq_true, sideOfSale_isSome, Option.isNone_iff_eq_none, and_assoc]
      rfl
    simp only [hiff]
    split <;> rfl
  have hget (r : Role) : s.disp.blanked.heads.get r = (s.head r).blanked := Eight.get_ofFun _ r
  unfold State.updDisp Display.resumeDeadlines
  simp only [hget, hone]
  rfl

/-- Settles O37. -/
theorem theBlankEndsTheWakeOrTheShutdown : Obligations.TheBlankEndsTheWakeOrTheShutdown := by
  refine ⟨fun s hs hw hstep hcall hheld hfit hmot hfp => ?_, fun s hs hw hcall => ?_, fun s hs hw hcall => ?_⟩
  · have he := exec_generalCallComplete hs hcall rfl
    have hdone : s.callDone ⟨.blank, true⟩ = s.callSent.blankHeads.wakeBlankSent := if_pos ⟨hw, hstep⟩
    obtain ⟨y, hasked, hend⟩ := s.endSegmentTest_blanked
    obtain ⟨x, hx⟩ : ∃ x : State, x = { s with
      pw := { s.pw with state := .active, phase := .none, drives := true, devReset := false }
      rdr := ⟨{ s.rdr.a with fitted := false, cycles := 0 }, { s.rdr.b with fitted := false, cycles := 0 }⟩
      disp := y, port := { s.port with attn := s.port.attn ||| Attn.power.mask } } := ⟨_, rfl⟩
    rw [hdone, State.blankSent_eq, State.wakeBlankSent_eq (x := x) hend (by exact hw) (by exact hfit) (by exact fun m => (hmot m).1)
      (by exact fun m => (hmot m).2) (by exact hheld) (by exact hx)] at he
    have hup := State.reviewBoth_raises (s := x) fun d => State.keepsReady_of_out (by rw [hx]; exact hfp d)
    generalize x.reviewBoth = u at he hup
    have hframe := hup.frame
    have hraised (d : Side) : x.raised d = if s.fpState d = .unavailable ∧ (s.head (saleRole d)).state = .ready ∧ s.meets d .metrology = true
        ∧ s.meets d .noPrices = true then (s.fp.get d).readyState else s.fpState d := by
      have hready : ((x.head (saleRole d)).state = .ready) = ((s.head (saleRole d)).state = .ready) := by
        have hhead : x.head (saleRole d) = (s.head (saleRole d)).blanked.watched (saleRole d) := by
          rw [hx]
          exact (congrArg (fun a => a.get (saleRole d)) hasked.heads).trans (s.segmentsTested_get _)
        rw [hhead]
        rfl
      have hfuel : x.fuelable d = true ↔ (s.head (saleRole d)).state = .ready ∧ s.meets d .metrology = true ∧ s.meets d .noPrices = true := by
        have hactive : x.meets d .active = true := by rw [hx]; rfl
        have hmet : x.meets d .metrology = s.meets d .metrology := by rw [hx]; rfl
        have hprice : x.meets d .noPrices = s.meets d .noPrices := by rw [hx]; rfl
        rw [State.fuelable, hactive, hmet, hprice, ← hready, State.meets]
        simp only [Bool.and_eq_true, decide_eq_true_eq, true_and, and_assoc]
      have hget : x.fp.get d = s.fp.get d := by rw [hx]
      have hst : x.fpState d = s.fpState d := by rw [hx]; rfl
      rw [State.raised, hget, hst]
      simp only [hfuel]
    have hheads (r : Role) : u.head r = { s.head r with
        sale := [], message := [], board := []
        stale := if (r = .saleA ∨ r = .saleB) ∧ (s.head r).state.shows = true then some 2500 else (s.head r).stale } := by
      rw [hframe, hx]
      exact (congrArg (fun a => a.get r) hasked.heads).trans (s.segmentsTested_get r)
    have hdisp : u.disp = y := by rw [hframe, hx]
    refine ⟨_, he, ?_, fun d => ?_, hheads, fun r hr => ?_, ?_, ?_, fun d => ?_, ?_, ?_⟩
    · rw [publish_pw, hframe, hx]
    · rw [publish_rdr, hframe, hx]
      cases d <;> rfl
    · rw [publish_disp, hdisp]
      exact hasked.queued r .refresh rfl (by rw [s.segmentsTested_get]; exact hr)
    · rw [publish_disp, hdisp]
      exact hasked.kept
    · rw [publish_disp, hdisp, hasked.frame]
      rfl
    · rw [publish_fp, hup.fp, hraised, hx]
    · have hst (d : Side) : (publish s u).fpState d = x.raised d := congrArg FuelPoint.state (hup.fp d)
      have hflags := State.changeFlags_fps (s := s) (t := publish s u) (fun d => by rw [publish_rdr, hframe, hx]; cases d <;> rfl)
        (fun r => by rw [publish_head, hheads]) (by rw [publish_store, hframe, hx])
      have hsame (d : Side) (st : FpState) : x.stateFlags d st = s.stateFlags d st := by rw [hx]; rfl
      have hport : x.port = { s.port with attn := s.port.attn ||| Attn.power.mask } := by rw [hx]
      rw [publish_port, hup.port, hport, flagsOf_cons, hflags, hst, hst, hsame, hsame]
      exact congrArg (fun a => ({ s.port with attn := a } : Port)) (BitVec.or_assoc ..)
    · rw [hframe, hx]
      rfl
  · have he := exec_generalCallComplete hs hcall rfl
    have hdone : s.callDone ⟨.blank, true⟩ = s.callSent.blankHeads.shutdownBlankSent := by
      refine (if_neg ?_).trans (if_pos hw)
      rw [hw]
      exact fun hc => PowerState.noConfusion hc.1
    rw [hdone, State.blankSent_eq] at he
    obtain ⟨x, hx⟩ : ∃ x : State, x = { s with
      disp := s.parkedDisplay
      port := if allRoles.any (fun r => decide ((s.head r).parked.state ≠ (s.head r).state)) then
        { s.port with attn := s.port.attn ||| Attn.display.mask } else s.port } := ⟨_, rfl⟩
    have hpark : ({ s with disp := s.disp.blanked } : State).parkDisplay = x := by rw [State.parkDisplay_blanked, hx]
    have hshut : ({ s with disp := s.disp.blanked } : State).shutdownBlankSent =
        { x.disableDrives with pw := { x.disableDrives.pw with blanked := true } } := by rw [State.shutdownBlankSent, hpark]; rfl
    rw [hshut] at he
    have hframe := x.disableDrives_frame
    have hvalve := x.disableDrives_shut
    have hslow := x.disableDrives_slow
    have hmotor := x.disableDrives_motor
    generalize x.disableDrives = u at he hframe hvalve hslow hmotor
    have hmots : ∀ m, u.motor m = (s.motor m).stopped := fun m => by rw [hmotor, hx]; rfl
    have hport : u.port = if allRoles.any (fun r => decide ((s.head r).parked.state ≠ (s.head r).state)) then
        { s.port with attn := s.port.attn ||| Attn.display.mask } else s.port := by rw [hframe, hx]
    have hmoves (r : Role) : ((s.head r).parked.state ≠ (s.head r).state) ↔ (s.head r).state ≠ .absent ∧ (s.head r).state ≠ .probing := by
      unfold Head.parked
      cases (s.head r).state <;> simp
    refine ⟨_, he, ?_, ?_, hvalve, hslow, fun m => ?_, ?_, fun r ha hp => ?_, fun hr => ?_, ?_⟩
    · rw [publish_pw, hframe, hx]
    · rw [publish_disp, hframe, hx]
      rfl
    · exact hmots m
    · rw [publish_mot, hframe]
    · have hany : allRoles.any (fun r => decide ((s.head r).parked.state ≠ (s.head r).state)) = true :=
        List.any_eq_true.mpr ⟨r, mem_allRoles r, decide_eq_true ((hmoves r).mpr ⟨ha, hp⟩)⟩
      rw [publish_port, hport, if_pos hany, flagsOf_one]
    · have hany : ¬ allRoles.any (fun r => decide ((s.head r).parked.state ≠ (s.head r).state)) = true := fun hc => by
        obtain ⟨r, -, hd⟩ := List.any_eq_true.mp hc
        obtain ⟨ha, hp⟩ := (hmoves r).mp (of_decide_eq_true hd)
        exact (hr r).elim ha hp
      exact hport.trans (if_neg hany)
    · rw [hframe, hx]
      rfl
  · have he := exec_generalCallComplete hs hcall rfl
    have hdone : s.callDone ⟨.blank, true⟩ = s.callSent.blankHeads.updDisp Display.resumeDeadlines := by
      refine (if_neg ?_).trans (if_neg ?_)
      · rw [hw]
        exact fun hc => PowerState.noConfusion hc.1
      · rw [hw]
        exact nofun
    rw [hdone, State.blankSent_eq] at he
    refine ⟨_, he, ?_⟩
    rw [State.resume_blanked]
    rfl

end Sys2Proof.Machine
end

section
/-! PROOFS. The reader orders and the frames of a reader link unit (R119, R122 to R124, R129, R136). -/

namespace Sys2Proof.Machine

/-! ## A reader's state -/

/-- A change of a reader's state that its fueling point does not hear of (R117). -/
theorem State.setReaderState_alone {s : State} {d : Side} {st : ReaderState} (hst : (s.rdr.get d).state ≠ st)
    (hr : (s.rdr.get d).state ≠ .ready) (ht : st ≠ .tampered) : s.setReaderState d st = { s with
      rdr := s.rdr.set d { s.rdr.get d with state := st, changed := s.rtc }
      port := { s.port with attn := s.port.attn ||| (readerFlag d).mask } } := by
  unfold State.setReaderState
  dsimp only
  rw [if_neg hst, if_neg hr, if_neg ht]
  rfl

/-- A reader as it is powered (R119, R133). -/
def Reader.warmed (r : Reader) (now : Word32) : Reader :=
  { r with state := .warming, changed := now, miss := 0, warmUp := some 10000, poll := some 20, powerOff := none, acceptNext := false
           waitHold := false }

theorem State.warmReader_alone {s : State} {d : Side} (hw : (s.rdr.get d).state ≠ .warming) (hr : (s.rdr.get d).state ≠ .ready) :
    s.warmReader d = { s with rdr := s.rdr.set d ((s.rdr.get d).warmed s.rtc)
                              port := { s.port with attn := s.port.attn ||| (readerFlag d).mask } } := by
  obtain ⟨x, hx⟩ : ∃ x : State, x = s.updReader d (fun r => { r with miss := 0, warmUp := some 10000, poll := some 20, powerOff := none
                                                                     acceptNext := false, waitHold := false }) := ⟨_, rfl⟩
  have hget : x.rdr.get d = { s.rdr.get d with miss := 0, warmUp := some 10000, poll := some 20, powerOff := none
                                               acceptNext := false, waitHold := false } := by
    rw [hx]
    exact Sides.get_set_same ..
  have hst : (x.rdr.get d).state = (s.rdr.get d).state := by rw [hget]
  rw [State.warmReader, ← hx, State.setReaderState_alone (st := .warming) (hst ▸ hw) (hst ▸ hr) (by decide), hget, hx]
  simp only [State.updReader, Sides.set_set]
  rfl

/-- A fitted reader powered with its power-cycle count 0, its tamper input released (R119). -/
theorem State.powerFresh_warms {s : State} {d : Side} (hw : (s.rdr.get d).state ≠ .warming) (hr : (s.rdr.get d).state ≠ .ready)
    (hf : (s.rdr.get d).fitted = true) (ht : (s.rdr.get d).tamper = false) :
    s.powerFresh d = { s with rdr := s.rdr.set d ({ s.rdr.get d with cycles := 0 }.warmed s.rtc)
                              port := { s.port with attn := s.port.attn ||| (readerFlag d).mask } } := by
  obtain ⟨x, hx⟩ : ∃ x : State, x = s.updReader d (fun r => { r with cycles := 0 }) := ⟨_, rfl⟩
  have hget : x.rdr.get d = { s.rdr.get d with cycles := 0 } := by
    rw [hx]
    exact Sides.get_set_same ..
  have hpower : x.powerReader d = x.warmReader d := by
    unfold State.powerReader
    dsimp only
    rw [hget, if_neg (by rw [hf]; exact nofun), if_neg (by rw [ht]; exact nofun)]
  rw [State.powerFresh, ← hx, hpower, State.warmReader_alone (by rw [hget]; exact hw) (by rw [hget]; exact hr), hget, hx]
  simp only [State.updReader, Sides.set_set]

/-! ## READER_SEND (R129) -/

theorem State.Offers.exec_readerSend {s : State} {n : Nat} {d : Side} (h : s.Offers .readerSend n (sideCode d)) :
    exec .readerSend s = .next (publish s ((s.takeSlot n).1.orderReaderSend (s.takeSlot n).2 d)) := h.sideEvent State.orderReaderSend

theorem State.supplyOn_iff {s : State} {d : Side} : s.supplyOn d = true ↔ (s.rdr.get d).state = .warming ∨ (s.rdr.get d).state = .ready := by
  unfold State.supplyOn
  cases (s.rdr.get d).state <;> simp [ReaderState.supplied]

section send
variable {s : State} {o : Order} {d : Side}

theorem State.orderReaderSend_badLength (h : s.bodyField o.ref.slot 0 1 = 0 ∨ 64 < s.bodyField o.ref.slot 0 1) :
    s.orderReaderSend o d = s.complete o.ref .badOrder 0 := if_pos h

variable (hl : 1 ≤ s.bodyField o.ref.slot 0 1) (hu : s.bodyField o.ref.slot 0 1 ≤ 64)
include hl hu

theorem State.orderReaderSend_down (h : s.supplyOn d = false) :
    s.orderReaderSend o d = s.complete o.ref .readerDown (readerDownDetail (s.rdr.get d).state (s.rdr.get d).cause) :=
  (if_neg (by omega)).trans (if_pos h)

variable (h : s.supplyOn d = true)
include h

theorem State.orderReaderSend_full (hf : 16 ≤ (s.rdr.get d).sends.length) :
    s.orderReaderSend o d = s.complete o.ref .unavailable Reason.listFull.code :=
  (if_neg (by omega)).trans ((if_neg (by rw [h]; exact nofun)).trans (if_pos hf))

theorem State.orderReaderSend_joins (hf : (s.rdr.get d).sends.length < 16) :
    s.orderReaderSend o d = s.updReader d (fun r =>
      { r with sends := r.sends ++ [⟨o.ref, s.bodyBytes o.ref.slot 4 (s.bodyField o.ref.slot 0 1), 0, 0⟩] }) :=
  (if_neg (by omega)).trans ((if_neg (by rw [h]; exact nofun)).trans (if_neg (by omega)))

end send

/-! ## READER_RESTART (R136) -/

theorem State.Offers.exec_readerRestart {s : State} {n : Nat} {d : Side} (h : s.Offers .readerRestart n (sideCode d)) :
    exec .readerRestart s = .next (publish s ((s.takeSlot n).1.orderReaderRestart (s.takeSlot n).2 d)) := h.sideEvent State.orderReaderRestart

section restart
variable {s : State} {o : Order} {d : Side}

theorem State.orderReaderRestart_running
    (h : (s.rdr.get d).state = .warming ∨ (s.rdr.get d).state = .ready ∨ (s.rdr.get d).state = .lost) :
    s.orderReaderRestart o d = s.complete o.ref .wrongState (readerDetail (s.rdr.get d).state) := by
  unfold State.orderReaderRestart
  rcases h with h | h | h <;> simp only [h]

theorem State.orderReaderRestart_unfitted (h : (s.rdr.get d).state = .off) (hf : (s.rdr.get d).fitted = false) :
    s.orderReaderRestart o d = s.complete o.ref .unavailable Reason.notFitted.code := by
  unfold State.orderReaderRestart
  simp only [h, hf]
  rfl

theorem State.orderReaderRestart_unreleased (h : ((s.rdr.get d).state = .tampered ∧ (s.rdr.get d).tamperReleased = false)
      ∨ ((s.rdr.get d).state = .supplyFault ∧ (s.rdr.get d).supplyReleased = false)) :
    s.orderReaderRestart o d = s.complete o.ref .causePresent 0 := by
  unfold State.orderReaderRestart
  rcases h with ⟨h, hr⟩ | ⟨h, hr⟩ <;> simp only [h, hr] <;> rfl

theorem State.orderReaderRestart_afresh (h : (s.rdr.get d).state = .tampered) (hr : (s.rdr.get d).tamperReleased = true)
    (hf : (s.rdr.get d).fitted = true) (ha : Config.tamperAfresh s.free d = true) : s.orderReaderRestart o d =
      (({ s with free := s.free + 1 } : State).updReader d (fun r => { r with cycles := 0, tamperReleased := false })).complete o.ref .ok 0 := by
  unfold State.orderReaderRestart
  simp only [h, hr, if_true]
  exact if_pos ⟨hf, ha⟩

/-- The reader whose restart powers it, beside the free value that was drawn (R136; log 54). -/
theorem State.orderReaderRestart_powers (h : (s.rdr.get d).state = .failed
      ∨ ((s.rdr.get d).state = .tampered ∧ (s.rdr.get d).tamperReleased = true ∧ Config.tamperAfresh s.free d = false)
      ∨ ((s.rdr.get d).state = .supplyFault ∧ (s.rdr.get d).supplyReleased = true)) :
    ∃ free, s.orderReaderRestart o d = ({ s with free := free } : State).restartReader o d := by
  unfold State.orderReaderRestart
  rcases h with h | ⟨h, hr, ha⟩ | ⟨h, hr⟩
  · exact ⟨s.free, by simp only [h]⟩
  · refine ⟨s.free + 1, ?_⟩
    simp only [h, hr, if_true]
    exact if_neg (by rw [ha]; exact fun hc => Bool.false_ne_true hc.2)
  · exact ⟨s.free, by simp only [h, hr, if_true]⟩

end restart

/-- An order for a reader that is answered OK once the reader, the free value and the flags have changed. -/
theorem State.Offers.answeredReader {s y : State} {k : OrderKind} {n target free : Nat} (h : s.Offers k n target) {o : Host.Outcome State Fault Refusal}
    {rdr : Sides Reader} {fs : List Attn} (he : o = .next (publish s (y.complete (s.takeSlot n).2.ref .ok 0)))
    (hy : y = { (s.takeSlot n).1 with free := free, rdr := rdr, port := { (s.takeSlot n).1.port with attn := s.port.attn ||| flagsOf fs } }) :
    ∃ t, o = .next t ∧ s.Answered t n .ok 0 fs ∧ t.rdr = rdr
      ∧ t = { s with free := free, rdr := rdr, mem := t.mem, port := t.port, rev := t.rev } := by
  refine ⟨_, he, h.answeredNow s .ok 0 fs (by rw [hy]) (by rw [hy]), ?_, ?_⟩
  · rw [publish_rdr, State.complete_rdr, hy]
  · have hp := publish_complete_eq s y (s.takeSlot n).2.ref .ok 0
    generalize publish s (y.complete (s.takeSlot n).2.ref .ok 0) = t at hp ⊢
    obtain ⟨mem, port, rev, rfl⟩ : ∃ mem port rev, t = { y with mem := mem, port := port, rev := rev } := ⟨_, _, _, hp⟩
    rw [hy]
    rfl

/-- Settles O39, state by state. -/
theorem readerOrdersFollowTheState : Obligations.ReaderOrdersFollowTheState := by
  intro s n d
  have hlen : (s.takeSlot n).1.bodyField (s.takeSlot n).2.ref.slot 0 1 = s.bodyField n 0 1 := State.takeSlot_bodyField ..
  have hsupply : ∀ _ : (s.rdr.get d).state = .warming ∨ (s.rdr.get d).state = .ready, (s.takeSlot n).1.supplyOn d = true :=
    fun h => State.supplyOn_iff.mpr h
  refine ⟨fun h => ⟨fun hl => ?_, fun hl hu hw hr => ?_, fun hl hu hst => ⟨fun hf => ?_, fun hf => ?_⟩⟩,
    fun h => ⟨fun hst => ?_, fun hst hf => ?_, fun hst => ?_, fun hst hr hf ha => ?_, fun hst hf ht => ?_⟩⟩
  · have ho := State.orderReaderSend_badLength (s := (s.takeSlot n).1) (o := (s.takeSlot n).2) (d := d)
      (by rw [hlen]; exact hl)
    exact h.turnedAway (ho ▸ h.exec_readerSend)
  · have ho := State.orderReaderSend_down (s := (s.takeSlot n).1) (o := (s.takeSlot n).2) (d := d)
      (by rw [hlen]; exact hl) (by rw [hlen]; exact hu)
      (Bool.eq_false_iff.mpr fun hc => (State.supplyOn_iff.mp hc).elim hw hr)
    exact h.turnedAway (ho ▸ h.exec_readerSend)
  · have ho := State.orderReaderSend_full (s := (s.takeSlot n).1) (o := (s.takeSlot n).2) (d := d)
      (by rw [hlen]; exact hl) (by rw [hlen]; exact hu) (hsupply hst) hf
    exact h.turnedAway (ho ▸ h.exec_readerSend)
  · have ho := State.orderReaderSend_joins (s := (s.takeSlot n).1) (o := (s.takeSlot n).2) (d := d)
      (by rw [hlen]; exact hl) (by rw [hlen]; exact hu) (hsupply hst) hf
    have he := ho ▸ h.exec_readerSend
    rw [hlen, State.takeSlot_ref, State.takeSlot_bodyBytes] at he
    exact ⟨_, he, h.heldTaken [] rfl (by rw [or_flagsOf_nil]; rfl), rfl, rfl⟩
  · have ho := State.orderReaderRestart_running (s := (s.takeSlot n).1) (o := (s.takeSlot n).2) (d := d) hst
    exact h.turnedAway (ho ▸ h.exec_readerRestart)
  · have ho := State.orderReaderRestart_unfitted (s := (s.takeSlot n).1) (o := (s.takeSlot n).2) (d := d) hst hf
    exact h.turnedAway (ho ▸ h.exec_readerRestart)
  · have ho := State.orderReaderRestart_unreleased (s := (s.takeSlot n).1) (o := (s.takeSlot n).2) (d := d) hst
    exact h.turnedAway (ho ▸ h.exec_readerRestart)
  · have ho := State.orderReaderRestart_afresh (s := (s.takeSlot n).1) (o := (s.takeSlot n).2) (d := d) hst hr hf ha
    have he := h.exec_readerRestart
    rw [ho] at he
    obtain ⟨t, ht, hans, -, hframe⟩ := h.answeredReader (fs := []) he (by rw [or_flagsOf_nil]; rfl)
    exact ⟨t, ht, hans, by rw [hframe]; rfl⟩
  · obtain ⟨free, ho⟩ := State.orderReaderRestart_powers (s := (s.takeSlot n).1) (o := (s.takeSlot n).2) (d := d) hst
    have hne : (s.rdr.get d).state ≠ .warming ∧ (s.rdr.get d).state ≠ .ready := by
      rcases hst with hst | ⟨hst, -⟩ | ⟨hst, -⟩ <;> simp [hst]
    rw [State.restartReader, State.powerFresh_warms (by exact hne.1) (by exact hne.2) (by exact hf) (by exact ht)] at ho
    have he := h.exec_readerRestart
    rw [ho] at he
    obtain ⟨t, ht, hans, hrdr, hframe⟩ := h.answeredReader (fs := [readerFlag d]) he (by rw [flagsOf_one]; rfl)
    exact ⟨t, ht, hans, hrdr, by rw [hframe]⟩

end Sys2Proof.Machine
end

section
/-! PROOFS. The frames that a reader link unit sends (R121 to R124). -/

namespace Sys2Proof.Machine

/-- A frame on its way (R122). -/
def Reader.sending (r : Reader) (k : LinkKind) (payload : List Byte) : Reader :=
  { r with frame := some (linkFrame k r.acceptNext payload), link := .sending, held := false, waitHold := false, acceptNext := false
           poll := some 20, response := none }

section send
variable {r : Reader}

theorem Reader.send_give {o : SendOrder} {rest : List SendOrder} (hs : r.state = .ready) (hr : r.sends = o :: rest) (hw : r.waitHold = false) :
    r.send = { r.sending .give o.payload with sends := { o with gives := o.gives + 1 } :: rest } := by
  have hc : r.choose = .give := by
    unfold Reader.choose
    simp only [hs]
    exact if_pos ⟨by rw [hr]; exact List.cons_ne_nil _ _, hw⟩
  unfold Reader.send
  simp only [hc, hr]
  rfl

theorem Reader.send_other (hc : r.choose ≠ .give) : r.send = r.sending r.choose [] := by
  unfold Reader.send
  simp only [if_neg hc]
  rfl

variable (hg : r.sends = [] ∨ r.waitHold = true)
include hg

theorem Reader.choose_idle (hs : r.state = .ready) : r.choose = if r.cells.any MailCell.free then .ask else .stay := by
  unfold Reader.choose
  simp only [hs]
  refine if_neg fun hc => ?_
  rcases hg with hg | hg
  · exact hc.1 hg
  · rw [hc.2] at hg
    exact Bool.false_ne_true hg

theorem Reader.choose_ask (hs : r.state = .ready) (hf : ∃ c ∈ r.cells, c.stateWord = 0) : r.choose = .ask := by
  obtain ⟨c, hc, hz⟩ := hf
  rw [Reader.choose_idle hg hs]
  exact if_pos (List.any_eq_true.mpr ⟨c, hc, decide_eq_true hz⟩)

theorem Reader.choose_stay (hs : r.state = .ready) (hf : ∀ c ∈ r.cells, c.stateWord ≠ 0) : r.choose = .stay := by
  rw [Reader.choose_idle hg hs]
  refine if_neg fun hc => ?_
  obtain ⟨c, hmem, hz⟩ := List.any_eq_true.mp hc
  exact hf c hmem (of_decide_eq_true hz)

end send

theorem Reader.choose_warming {r : Reader} (hs : r.state = .warming) : r.choose = .stay := by
  unfold Reader.choose
  rw [hs]

theorem exec_readerPollExpiry {s : State} {d : Side} (hs : s.steady) (hst : (s.rdr.get d).state = .warming ∨ (s.rdr.get d).state = .ready)
    (hp : (s.rdr.get d).poll.isSome = true) : exec (.readerPollExpiry d) s = .next (publish s (s.updReader d Reader.pollExpiry)) :=
  (event_steady hs).trans (by rw [if_pos ⟨State.supplyOn_iff.mpr hst, hp⟩])

/-- The bytes of a frame that its CRC covers (R121, R124). -/
def coveredBytes (kind : Byte) (accept : Bool) (payload : List Byte) : List Byte :=
  kind :: (if accept then 0x01 else 0x00) :: BitVec.ofNat 8 payload.length :: payload

theorem linkFrame_eq (k : LinkKind) (accept : Bool) (payload : List Byte) : linkFrame k accept payload =
    ⟨k, accept, payload, 0x7E :: (coveredBytes (BitVec.ofNat 8 k.code) accept payload
      ++ bytesBE 2 (crc16 (coveredBytes (BitVec.ofNat 8 k.code) accept payload)).toNat)⟩ := by
  cases accept <;> rfl

/-- Settles O40, by the frame that is chosen. -/
theorem pollsSendTheChosenFrame : Obligations.PollsSendTheChosenFrame := by
  intro s d hs
  refine ⟨fun hst hp => ?_, fun hl => ?_⟩
  · have he := exec_readerPollExpiry hs hst hp
    refine ⟨fun hl => ?_, fun o rest hl hr hsend hw => ?_, fun hl hr hg hf => ?_, fun hl hst' => ?_⟩
    · rw [State.updReader, Reader.pollExpiry, if_neg hl] at he
      exact ⟨_, he, rfl⟩
    · rw [State.updReader, Reader.pollExpiry, if_pos hl, Reader.send_give hr hsend hw, Reader.sending, linkFrame_eq] at he
      exact ⟨_, he, rfl⟩
    · have hc := Reader.choose_ask hg hr hf
      rw [State.updReader, Reader.pollExpiry, if_pos hl, Reader.send_other (by rw [hc]; exact nofun), hc, Reader.sending, linkFrame_eq] at he
      exact ⟨_, he, rfl⟩
    · have hc : (s.rdr.get d).choose = .stay := by
        rcases hst with hw | hr
        · exact Reader.choose_warming hw
        · obtain ⟨hg, hf⟩ := hst'.resolve_left (by rw [hr]; exact nofun)
          exact Reader.choose_stay hg hr hf
      rw [State.updReader, Reader.pollExpiry, if_pos hl, Reader.send_other (by rw [hc]; exact nofun), hc, Reader.sending, linkFrame_eq] at he
      exact ⟨_, he, rfl⟩
  · exact ⟨_, (event_steady hs).trans (by rw [if_pos hl]), rfl⟩

end Sys2Proof.Machine
end

section
/-! PROOFS. What the fueling point and the send list see of a reader's change of state (R12, R117, R120, R137). -/

namespace Sys2Proof.Machine

/-! ## A change of state and its report (R117, R137) -/

/-- The reader of side `d` became `q` in a change of state from `s` to `t`: its fueling point was told, and nothing else changed. -/
structure State.ReaderMoves (s t : State) (d : Side) (q : Reader) : Prop where
  rdr : t.rdr = s.rdr.set d q
  leaves : s.ReaderLeaves t d
  port : t.port = { s.port with attn := s.port.attn ||| flagsOf (readerFlag d :: s.leaveFlags d) }
  frame : t = { s with rdr := t.rdr, fp := t.fp, met := t.met, port := t.port }

theorem State.readerLeft_stays {s : State} {d : Side}
    (h : ¬ (s.fpState d = .authorized ∧ (s.fp.get d).auth.map AuthRecord.origin = some .reader)) : s.readerLeft d = s := by
  unfold State.readerLeft
  split
  · rename_i a hd ha
    refine if_neg fun ho => h ⟨hd, ?_⟩
    rw [ha, Option.map_some, ho]
  · rfl

theorem State.readerLeft_withdraws {s : State} {d : Side} (hd : s.fpState d = .authorized)
    (ha : (s.fp.get d).auth.map AuthRecord.origin = some .reader) : s.readerLeft d = s.endAuthReady d .authWithdrawn := by
  obtain ⟨a, hauth, ho⟩ := Option.map_eq_some_iff.mp ha
  unfold State.readerLeft
  simp only [hd, hauth, ho, if_true]

theorem State.readerHolds_iff {s : State} {d : Side} : s.readerHolds d = true ↔ (s.rdr.get d).state = .ready ∧ s.fpState d = .authorized
    ∧ (s.fp.get d).auth.map AuthRecord.origin = some .reader := by
  simp [State.readerHolds, and_assoc]

/-- The report of a reader that leaves its state. -/
def State.toldLeaving (s : State) (d : Side) (old : ReaderState) : State := if old = .ready then s.readerLeft d else s

theorem State.leaveFlags_holds {s : State} {d : Side} (h : s.readerHolds d = true) : s.leaveFlags d = (s.fp.get d).endFlags d := by
  rw [State.leaveFlags, if_pos h, FuelPoint.endFlags]
  split <;> rfl

/-- What the fueling point makes of the report. -/
theorem State.toldLeaving_moves {s y : State} {d : Side} {q : Reader} (hy : y = { s with
      rdr := s.rdr.set d q, port := { s.port with attn := s.port.attn ||| (readerFlag d).mask } }) :
    s.ReaderMoves (y.toldLeaving d (s.rdr.get d).state) d q
      ∧ ((y.toldLeaving d (s.rdr.get d).state).fpState d).endable = (s.fpState d).endable := by
  by_cases hh : s.readerHolds d = true
  · obtain ⟨hr, hd, ha⟩ := State.readerHolds_iff.mp hh
    have hyd : y.fpState d = .authorized := by rw [hy]; exact hd
    have heq : y.toldLeaving d (s.rdr.get d).state = y.endAuthReady d .authWithdrawn :=
      (if_pos hr).trans (State.readerLeft_withdraws hyd (by rw [hy]; exact ha))
    have hframe := y.endAuthReady_frame d .authWithdrawn
    have hport := State.endAuthReady_port hyd .authWithdrawn
    have hmeter := State.endAuthReady_meter hyd .authWithdrawn
    have hfp : (y.endAuthReady d .authWithdrawn).fp = s.fp.set d ((s.fp.get d).withdrawn s.rtc) := by rw [hframe, hy]; rfl
    have hother : (y.endAuthReady d .authWithdrawn).met.get d.other = y.met.get d.other := by
      unfold State.endAuthReady
      exact State.setFpState_met_other ..
    rw [heq]
    refine ⟨⟨by rw [hframe, hy], ⟨by rw [if_pos hh, hfp], fun p => ?_, by rw [hother, hy]⟩, ?_, by rw [hframe, hy]⟩, ?_⟩
    · rw [if_pos hh, hmeter, if_pos rfl, hy]
      rfl
    · rw [hport, State.leaveFlags_holds hh, flagsOf_cons, ← BitVec.or_assoc, hy]
    · have hst : (y.endAuthReady d .authWithdrawn).fpState d = ((s.fp.get d).withdrawn s.rtc).state := by
        rw [State.fpState, hfp, Sides.get_set_same]
      rw [hst, hd, FuelPoint.withdrawn]
      dsimp only
      split <;> rfl
  · have heq : y.toldLeaving d (s.rdr.get d).state = y := by
      unfold State.toldLeaving
      split
      · rename_i hr
        exact State.readerLeft_stays fun hc => hh (State.readerHolds_iff.mpr ⟨hr, by rw [hy] at hc; exact hc⟩)
      · rfl
    have hflags : s.leaveFlags d = [] := if_neg hh
    rw [heq]
    refine ⟨⟨by rw [hy], ⟨by rw [if_neg hh, hy], fun p => by rw [if_neg hh, hy]; rfl, by rw [hy]⟩, ?_, by rw [hy]⟩, by rw [hy]; rfl⟩
    rw [hflags, hy, flagsOf_one]

/-- A change of a reader's state that ends no sale. -/
theorem State.setReaderState_moves {s : State} {d : Side} {st : ReaderState} (hst : (s.rdr.get d).state ≠ st)
    (hn : ¬ (st = .tampered ∧ (s.fpState d).endable = true ∧ (s.sale d).origin = .reader)) :
    s.ReaderMoves (s.setReaderState d st) d { s.rdr.get d with state := st, changed := s.rtc } := by
  obtain ⟨y, hy⟩ : ∃ y : State, y = (s.updReader d (fun r => { r with state := st, changed := s.rtc })).attn (readerFlag d) := ⟨_, rfl⟩
  obtain ⟨hmoves, hend⟩ := State.toldLeaving_moves (s := s) (y := y) (d := d) (q := { s.rdr.get d with state := st, changed := s.rtc }) hy
  have heq : s.setReaderState d st = y.toldLeaving d (s.rdr.get d).state := by
    have hsale : (y.toldLeaving d (s.rdr.get d).state).sale d = s.sale d := by rw [hmoves.frame]; rfl
    unfold State.setReaderState
    dsimp only
    rw [if_neg hst, ← hy]
    by_cases ht : st = .tampered
    · rw [if_pos ht]
      refine if_neg fun hc => hn ⟨ht, hend ▸ hc.1, ?_⟩
      rw [← hsale]
      exact hc.2
    · rw [if_neg ht]
      rfl
  rw [heq]
  exact hmoves

theorem State.ReaderMoves.upd {s t : State} {d : Side} {q : Reader} (h : s.ReaderMoves t d q) (g : Reader → Reader) :
    s.ReaderMoves (t.updReader d g) d (g q) := by
  have hg : t.rdr.get d = q := by rw [h.rdr, Sides.get_set_same]
  refine ⟨?_, ⟨h.leaves.fp, h.leaves.meters, h.leaves.otherMet⟩, h.port, ?_⟩
  · rw [State.updReader, hg, h.rdr, Sides.set_set]
  · rw [State.updReader, h.frame]

/-! ## The supply goes off (R120) -/

theorem State.complete_updReader (s : State) (d : Side) (f : Reader → Reader) (r : OrderRef) (c : ResultCode) (n : Nat) :
    (s.updReader d f).complete r c n = (s.complete r c n).updReader d f := by
  have ht : (s.updReader d f).slotTaken r.slot = s.slotTaken r.slot := rfl
  have hn : (s.updReader d f).takeNumber r.slot = s.takeNumber r.slot := rfl
  unfold State.complete
  rw [ht, hn]
  split <;> rfl

theorem State.completeSends_updReader (s : State) (d : Side) (f : Reader → Reader) (c : OffCause) (xs : List SendOrder) :
    (s.updReader d f).completeSends c xs = (s.completeSends c xs).updReader d f := by
  induction xs generalizing s with
  | nil => rfl
  | cons o rest ih => exact (congrArg (fun x => State.completeSends x c rest) (s.complete_updReader d f _ _ _)).trans (ih _)

theorem State.completeSends_onlyTold (s : State) (c : OffCause) (xs : List SendOrder) : s.OnlyTold (s.completeSends c xs) :=
  State.foldl_onlyTold _ _ _ fun _ _ => State.complete_onlyTold ..

/-- The supply of a side's reader went off between `s` and `t`, the reader becoming `q` (R120). -/
structure State.SupplyCut (s t : State) (d : Side) (why : OffCause) (q : Reader) : Prop where
  rdr : t.rdr = s.rdr.set d q
  leaves : s.ReaderLeaves t d
  port : t.port = { (s.sendsDropped d why).port with
    attn := (s.sendsDropped d why).port.attn ||| flagsOf (readerFlag d :: s.leaveFlags d) }
  frame : t = { s with rdr := t.rdr, fp := t.fp, met := t.met, mem := (s.sendsDropped d why).mem, port := t.port }

theorem State.sendsDropped_on {s : State} {d : Side} (h : s.supplyOn d = true) (c : OffCause) :
    s.sendsDropped d c = s.completeSends c (s.rdr.get d).sends := if_pos h

/-- The state of a reader whose orders are completed and whose link is cut off, before the change of its state (R120). -/
def State.supplyGone (s : State) (d : Side) (why : OffCause) (q : Reader) : State :=
  { s with rdr := s.rdr.set d (q.cutOff why), mem := (s.sendsDropped d why).mem, port := (s.sendsDropped d why).port }

/-- The cut of a supply that is on, the marks `f` of the reader changed before (R120, R135). -/
theorem State.cutReader_eq {s : State} {d : Side} (why : OffCause) (st : ReaderState) (f : Reader → Reader) (h : s.supplyOn d = true)
    (hf : (f (s.rdr.get d)).sends = (s.rdr.get d).sends) :
    (s.updReader d f).cutReader d why st = (s.supplyGone d why (f (s.rdr.get d))).setReaderState d st := by
  have hu := s.completeSends_onlyTold why (s.rdr.get d).sends
  rw [← State.sendsDropped_on h why] at hu
  have hsends : ((s.updReader d f).rdr.get d).sends = (s.rdr.get d).sends := by rw [State.updReader, Sides.get_set_same, hf]
  have hcut : ((s.sendsDropped d why).updReader d f).updReader d (fun r => r.cutOff why) = s.supplyGone d why (f (s.rdr.get d)) := by
    have hframe := hu.frame
    unfold State.supplyGone
    obtain ⟨mem, attn, hu⟩ : ∃ mem attn, s.sendsDropped d why = { s with mem := mem, port := { s.port with attn := attn } } := ⟨_, _, hframe⟩
    rw [hu]
    simp only [State.updReader, Sides.get_set_same, Sides.set_set]
  rw [State.cutReader, hsends, State.completeSends_updReader, ← State.sendsDropped_on h why, hcut]

theorem State.cutReader_cuts {s : State} {d : Side} {why : OffCause} {st : ReaderState} (f : Reader → Reader) (h : s.supplyOn d = true)
    (hf : (f (s.rdr.get d)).sends = (s.rdr.get d).sends) (hg : (f (s.rdr.get d)).state = (s.rdr.get d).state) (hst : (s.rdr.get d).state ≠ st)
    (hn : ¬ (st = .tampered ∧ (s.fpState d).endable = true ∧ (s.sale d).origin = .reader)) :
    s.SupplyCut ((s.updReader d f).cutReader d why st) d why { (f (s.rdr.get d)).cutOff why with state := st, changed := s.rtc } := by
  rw [State.cutReader_eq why st f h hf]
  obtain ⟨x, hx⟩ : ∃ x, x = s.supplyGone d why (f (s.rdr.get d)) := ⟨_, rfl⟩
  have hget : x.rdr.get d = (f (s.rdr.get d)).cutOff why := by rw [hx, State.supplyGone, Sides.get_set_same]
  have hstate : (x.rdr.get d).state = (s.rdr.get d).state := by rw [hget]; exact hg
  have hholds : x.readerHolds d = s.readerHolds d := by rw [State.readerHolds, hstate, hx]; rfl
  have hflags : x.leaveFlags d = s.leaveFlags d := by rw [State.leaveFlags, hholds, hx]; rfl
  have hmoves := State.setReaderState_moves (s := x) (d := d) (st := st) (by rw [hstate]; exact hst) (by rw [hx]; exact hn)
  rw [← hx]
  obtain ⟨hrdr, ⟨hlf, hlm, hlo⟩, hp, hframe⟩ := hmoves
  generalize x.setReaderState d st = t at hrdr hlf hlm hlo hp hframe
  refine ⟨?_, ⟨?_, fun p => ?_, ?_⟩, ?_, ?_⟩
  · rw [hrdr, hget, hx, State.supplyGone, Sides.set_set]
  · rw [hlf, hholds, hx]
    rfl
  · rw [hlm, hholds, hx]
    rfl
  · rw [hlo, hx]
    rfl
  · rw [hp, hflags, hx]
    rfl
  · obtain ⟨rdr, fp, met, port, rfl⟩ : ∃ rdr fp met port, t = { x with rdr := rdr, fp := fp, met := met, port := port } := ⟨_, _, _, _, hframe⟩
    rw [hx, State.supplyGone]

theorem State.SupplyCut.upd {s t : State} {d : Side} {why : OffCause} {q : Reader} (h : s.SupplyCut t d why q) (g : Reader → Reader) :
    s.SupplyCut (t.updReader d g) d why (g q) := by
  have hg : t.rdr.get d = q := by rw [h.rdr, Sides.get_set_same]
  refine ⟨?_, ⟨h.leaves.fp, h.leaves.meters, h.leaves.otherMet⟩, h.port, ?_⟩
  · rw [State.updReader, hg, h.rdr, Sides.set_set]
  · rw [State.updReader, h.frame]

/-- The event that ends with the supply going off. -/
theorem State.SupplyCut.happens {s t : State} {d : Side} {why : OffCause} {q : Reader} (h : s.SupplyCut t d why q)
    {o : Host.Outcome State Fault Refusal} (he : o = .next (publish s t)) :
    ∃ t, o = .next t ∧ t.rdr = s.rdr.set d q ∧ s.ReaderLeaves t d
      ∧ t.port = { (s.sendsDropped d why).port with
          attn := (s.sendsDropped d why).port.attn ||| flagsOf (readerFlag d :: s.leaveFlags d) }
      ∧ t = { s with rdr := t.rdr, fp := t.fp, met := t.met, mem := (s.sendsDropped d why).mem, port := t.port, rev := t.rev } := by
  refine ⟨_, he, h.rdr, ⟨h.leaves.fp, h.leaves.meters, h.leaves.otherMet⟩, h.port, ?_⟩
  have hframe := h.frame
  obtain ⟨rdr, fp, met, port, rfl⟩ : ∃ rdr fp met port, t = { s with
    rdr := rdr, fp := fp, met := met, mem := (s.sendsDropped d why).mem, port := port } := ⟨_, _, _, _, hframe⟩
  rfl

end Sys2Proof.Machine
end

section
/-! PROOFS. Misses, reader timers and the tamper and overcurrent inputs (R120, R131 to R135). -/

namespace Sys2Proof.Machine

theorem State.updReader_id (s : State) (d : Side) : s.updReader d (fun r => r) = s := by
  unfold State.updReader
  rw [Sides.set_get]

theorem State.updReader_get (s : State) (d : Side) (f : Reader → Reader) : (s.updReader d f).rdr.get d = f (s.rdr.get d) := Sides.get_set_same ..

theorem State.updReader_updReader (s : State) (d : Side) (f g : Reader → Reader) :
    (s.updReader d f).updReader d g = s.updReader d (fun r => g (f r)) := by
  simp only [State.updReader, Sides.get_set_same, Sides.set_set]

/-- The supply goes off with no mark of the reader changed before. -/
theorem State.cutReader_cutsNow {s : State} {d : Side} {why : OffCause} {st : ReaderState} (h : s.supplyOn d = true)
    (hst : (s.rdr.get d).state ≠ st) (ht : st ≠ .tampered) :
    s.SupplyCut (s.cutReader d why st) d why { (s.rdr.get d).cutOff why with state := st, changed := s.rtc } := by
  have hc := State.cutReader_cuts (s := s) (d := d) (why := why) (st := st) (fun r => r) h rfl rfl hst fun hc => ht hc.1
  rwa [State.updReader_id] at hc

/-! ## Misses (R122, R132) -/

theorem exec_readerResponseTimeout {s : State} {d : Side} (hs : s.steady) (hl : (s.rdr.get d).link = .awaiting) :
    exec (.readerResponseTimeout d) s = .next (publish s ((s.readerMiss d).updReader d Reader.endWait)) :=
  (event_steady hs).trans (by rw [if_pos hl])

/-- The wait for a reply ends with no frame held (R122). -/
theorem Reader.endWait_free {r : Reader} (h : r.held = false) : r.endWait = { r with link := .idle, response := none, frame := none } := by
  unfold Reader.endWait
  dsimp only
  rw [if_neg (by rw [h]; exact nofun)]

theorem State.readerMiss_counts {s : State} {d : Side} (hr : (s.rdr.get d).state = .ready) (hm : (s.rdr.get d).miss < 2) :
    s.readerMiss d = s.updReader d (fun r => { r with miss := r.miss + 1 }) := by
  unfold State.readerMiss
  dsimp only
  rw [if_pos hr, if_neg (by omega)]

theorem State.readerMiss_third {s : State} {d : Side} (hr : (s.rdr.get d).state = .ready) (hm : (s.rdr.get d).miss = 2) :
    s.readerMiss d = ((s.updReader d (fun r => { r with miss := r.miss + 1 })).cutReader d .misses .lost).updReader d
      (fun r => { r with powerOff := some 500 }) := by
  unfold State.readerMiss
  dsimp only
  rw [if_pos hr, if_pos (by omega)]

/-- A miss before the third: it is counted and the wait ends. -/
theorem State.miss_waitEnds {s : State} {d : Side} (hr : (s.rdr.get d).state = .ready) (hm : (s.rdr.get d).miss < 2)
    (hh : (s.rdr.get d).held = false) : (s.readerMiss d).updReader d Reader.endWait = { s with
      rdr := s.rdr.set d { s.rdr.get d with miss := (s.rdr.get d).miss + 1, link := .idle, response := none, frame := none } } := by
  rw [State.readerMiss_counts hr hm, State.updReader_updReader, State.updReader, Reader.endWait_free (by exact hh)]

/-! ## The warm-up limit (R131) -/

theorem exec_warmUpExpiry {s : State} {d : Side} (hs : s.steady) (hw : (s.rdr.get d).state = .warming) (ht : (s.rdr.get d).warmUp.isSome = true) :
    exec (.warmUpExpiry d) s = .next (publish s (s.warmUpFailed d)) := (event_steady hs).trans (by rw [if_pos ⟨hw, ht⟩])

/-- Settles O42. -/
theorem readersAreLostAndRepowered : Obligations.ReadersAreLostAndRepowered := by
  intro s d hs
  refine ⟨fun hl hr hh => ⟨fun hm => ?_, fun hm => ?_⟩, fun hw ht => ⟨fun hc => ?_, fun hc => ?_⟩, fun hst ht => ?_⟩
  · have he := exec_readerResponseTimeout hs hl
    rw [State.miss_waitEnds hr hm hh] at he
    exact ⟨_, he, rfl⟩
  · have he := exec_readerResponseTimeout hs hl
    rw [State.readerMiss_third hr hm] at he
    have hcut := State.cutReader_cuts (s := s) (d := d) (why := .misses) (st := .lost) (fun r => { r with miss := r.miss + 1 })
      (State.supplyOn_iff.mpr (.inr hr)) rfl rfl (by rw [hr]; decide) fun hc => nomatch hc.1
    have hlost := (hcut.upd (fun r => { r with powerOff := some 500 })).upd Reader.endWait
    rw [Reader.endWait_free (by rfl), hm] at hlost
    exact hlost.happens he
  · have he := exec_warmUpExpiry hs hw ht
    rw [State.warmUpFailed, if_pos hc] at he
    exact ((State.cutReader_cutsNow (State.supplyOn_iff.mpr (.inl hw)) (by rw [hw]; decide) (by decide)).upd _).happens he
  · have he := exec_warmUpExpiry hs hw ht
    rw [State.warmUpFailed, if_neg (by omega)] at he
    exact (State.cutReader_cutsNow (State.supplyOn_iff.mpr (.inl hw)) (by rw [hw]; decide) (by decide)).happens he
  · have he : exec (.powerOffTimerExpiry d) s = .next (publish s ((s.updReader d (fun r => { r with cycles := r.cycles + 1 })).warmReader d)) :=
      (event_steady hs).trans (by rw [if_pos ⟨hst, ht⟩])
    rw [State.warmReader_alone (by rw [State.updReader_get]; exact hst ▸ nofun) (by rw [State.updReader_get]; exact hst ▸ nofun),
      State.updReader_get] at he
    simp only [State.updReader, Sides.set_set] at he
    exact ⟨_, he, by rw [flagsOf_one]; rfl⟩

end Sys2Proof.Machine
end

section
/-! PROOFS. The tamper and overcurrent inputs of a reader (R134, R135, R137). -/

namespace Sys2Proof.Machine

theorem exec_tamperAssert {s : State} {d : Side} (hs : s.steady) : exec (.tamperAssert d) s =
    .next (publish s ((s.updReader d (fun r => { r with tamper := true, tamperReleased := false })).tamperReader d)) := event_steady
  (f := fun x => (x.updReader d (fun r => { r with tamper := true, tamperReleased := false })).tamperReader d) hs

section tamper
variable {s : State} {d : Side}

theorem State.tamperReader_stays (h : (s.rdr.get d).state = .off ∨ (s.rdr.get d).state = .tampered) : s.tamperReader d = s := by
  unfold State.tamperReader
  rcases h with h | h <;> rw [h]

theorem State.tamperReader_cuts (h : (s.rdr.get d).state = .warming ∨ (s.rdr.get d).state = .ready) :
    s.tamperReader d = s.cutReader d .tamper .tampered := by
  unfold State.tamperReader
  rcases h with h | h <;> rw [h]

theorem State.tamperReader_unsupplied
    (h : (s.rdr.get d).state = .lost ∨ (s.rdr.get d).state = .failed ∨ (s.rdr.get d).state = .supplyFault) :
    s.tamperReader d = (s.updReader d (fun r => { r with cause := some .tamper, powerOff := none })).setReaderState d .tampered := by
  unfold State.tamperReader
  rcases h with h | h | h <;> rw [h]

end tamper

theorem State.toldLeaving_stays {s : State} {d : Side} {old : ReaderState} (h : s.fpState d ≠ .authorized) : s.toldLeaving d old = s := by
  unfold State.toldLeaving
  split
  · exact State.readerLeft_stays fun hc => h hc.1
  · rfl

theorem FpState.endable_ne_authorized {st : FpState} (h : st.endable = true) : st ≠ .authorized := by
  rintro rfl
  cases h

/-- A change of state from another state than READY, the side having no sale of origin READER in progress. -/
theorem State.setReaderState_unheard {s : State} {d : Side} {st : ReaderState} (hst : (s.rdr.get d).state ≠ st) (hr : (s.rdr.get d).state ≠ .ready)
    (hn : ¬ ((s.fpState d).endable = true ∧ (s.sale d).origin = .reader)) : s.setReaderState d st = { s with
      rdr := s.rdr.set d { s.rdr.get d with state := st, changed := s.rtc }
      port := { s.port with attn := s.port.attn ||| (readerFlag d).mask } } := by
  have htold (y : State) (hy : (y.fpState d).endable = (s.fpState d).endable) (hs : y.sale d = s.sale d) : y.readerTampered d = y :=
    if_neg (by rw [hy, hs]; exact hn)
  obtain ⟨y, hy⟩ : ∃ y : State, y = (s.updReader d (fun r => { r with state := st, changed := s.rtc })).attn (readerFlag d) := ⟨_, rfl⟩
  unfold State.setReaderState
  dsimp only
  rw [if_neg hst, if_neg hr, ← hy, htold y (by rw [hy]; rfl) (by rw [hy]; rfl), ite_self, hy]
  rfl

/-- A reader that becomes TAMPERED ends a sale of origin READER (R137). -/
theorem State.setReaderState_endsSale {s : State} {d : Side} (hst : (s.rdr.get d).state ≠ .tampered) (he : (s.fpState d).endable = true)
    (ho : (s.sale d).origin = .reader) : s.setReaderState d .tampered = ({ s with
      rdr := s.rdr.set d { s.rdr.get d with state := .tampered, changed := s.rtc }
      port := { s.port with attn := s.port.attn ||| (readerFlag d).mask } } : State).endSale d .readerTamper := by
  obtain ⟨y, hy⟩ : ∃ y : State, y = (s.updReader d (fun r => { r with state := .tampered, changed := s.rtc })).attn (readerFlag d) := ⟨_, rfl⟩
  have hd : (y.fpState d).endable = true := by rw [hy]; exact he
  have hsale : (y.sale d).origin = .reader := by rw [hy]; exact ho
  have hleft : y.toldLeaving d (s.rdr.get d).state = y := State.toldLeaving_stays (FpState.endable_ne_authorized hd)
  have heq : s.setReaderState d .tampered = (y.toldLeaving d (s.rdr.get d).state).readerTampered d := by
    unfold State.setReaderState
    dsimp only
    rw [if_neg hst, if_pos rfl, ← hy]
    rfl
  rw [heq, hleft, State.readerTampered, if_pos ⟨hd, hsale⟩, State.takeCause_ends hd rfl, hy]
  rfl

/-- Settles O43, by the reader's state and the sale of its side. -/
theorem readerInputsCutTheSupply : Obligations.ReaderInputsCutTheSupply := by
  intro s d hs
  have marked : (s.updReader d (fun r => { r with tamper := true, tamperReleased := false })).rdr.get d =
      { s.rdr.get d with tamper := true, tamperReleased := false } := State.updReader_get ..
  have he := exec_tamperAssert (d := d) hs
  refine ⟨fun hst => ?_, fun hn hst => ?_, fun hn hst => ?_, fun hsale hst => ?_, ?_, fun hst => ?_, ?_⟩
  · rw [State.tamperReader_stays (by rw [marked]; exact hst)] at he
    exact ⟨_, he, rfl⟩
  · rw [State.tamperReader_cuts (by rw [marked]; exact hst)] at he
    refine (State.cutReader_cuts (s := s) (st := .tampered) (fun r => { r with tamper := true, tamperReleased := false })
      (State.supplyOn_iff.mpr hst) rfl rfl ?_ fun hc => hn hc.2).happens he
    rcases hst with hst | hst <;> rw [hst] <;> decide
  · rw [State.tamperReader_unsupplied (by rw [marked]; exact hst), State.updReader_updReader] at he
    rw [State.setReaderState_unheard (by rw [State.updReader_get]; rcases hst with hst | hst | hst <;> rw [hst] <;> decide)
      (by rw [State.updReader_get]; rcases hst with hst | hst | hst <;> rw [hst] <;> decide) (by exact hn), State.updReader_get] at he
    simp only [State.updReader, Sides.set_set] at he
    exact ⟨_, he, by rw [flagsOf_one]; rfl⟩
  · rw [State.tamperReader_cuts (by rw [marked]; exact hst),
      State.cutReader_eq .tamper .tampered _ (State.supplyOn_iff.mpr hst) rfl,
      State.setReaderState_endsSale (by
        rw [State.supplyGone, Sides.get_set_same]
        rcases hst with hst | hst <;> exact hst ▸ nofun) (by exact hsale.1) (by exact hsale.2)] at he
    obtain ⟨x, hx⟩ : ∃ x : State, x = { s with
      rdr := s.rdr.set d { ({ s.rdr.get d with tamper := true, tamperReleased := false } : Reader).cutOff .tamper with
        state := .tampered, changed := s.rtc }
      mem := (s.sendsDropped d .tamper).mem
      port := { (s.sendsDropped d .tamper).port with attn := (s.sendsDropped d .tamper).port.attn ||| (readerFlag d).mask } } := ⟨_, rfl⟩
    have he' : exec (.tamperAssert d) s = .next (publish s (x.endSale d .readerTamper)) := by
      rw [he, hx]
      simp only [State.supplyGone, Sides.get_set_same, Sides.set_set]
    have hd : x.fpState d ≠ .settling := by rw [hx]; exact FpState.endable_ne_settling hsale.1
    have hends : s.SaleEnds (x.endSale d .readerTamper) d (s.fp.get d) .readerTamper := by
      have hx' := x.endSale_ends d .readerTamper hd
      have hf : x.fp.get d = s.fp.get d := by rw [hx]
      rw [hf] at hx'
      exact hx'.from (by rw [hx]) (by rw [hx]) (by rw [hx]) (by rw [hx]) (by rw [hx]) (by rw [hx]) (by rw [hx])
    have hport := State.endSale_port x d .readerTamper hd
    have hframe := x.endSale_frame d .readerTamper
    generalize x.endSale d .readerTamper = t at he' hends hport hframe
    refine ⟨_, he', hends.publish s, ?_, ?_, ?_, ?_⟩
    · rw [publish_rdr, hframe, hx]
      rfl
    · rw [publish_mem, hframe, hx]
    · rw [publish_port, hport, hx, flagsOf_cons, flagsOf_one, ← BitVec.or_assoc]
    · obtain ⟨fp, ret, vlv, mot, met, port, rev, rfl⟩ : ∃ fp ret vlv mot met port rev, t = { x with
        fp := fp, ret := ret, vlv := vlv, mot := mot, met := met, port := port, rev := rev } := ⟨_, _, _, _, _, _, _, hframe⟩
      rw [hx]
      rfl
  · exact ⟨_, event_steady (f := fun x => x.updReader d (fun r => { r with tamper := false, tamperReleased := true })) hs, rfl⟩
  · have he : exec (.overcurrent d) s = .next (publish s
        ((s.updReader d (fun r => { r with overcurrent := true, supplyReleased := false })).cutReader d .overcurrent .supplyFault)) :=
      (event_steady hs).trans (by rw [if_pos (State.supplyOn_iff.mpr hst)])
    refine (State.cutReader_cuts (s := s) (st := .supplyFault) (fun r => { r with overcurrent := true, supplyReleased := false })
      (State.supplyOn_iff.mpr hst) rfl rfl ?_ fun hc => nomatch hc.1).happens he
    rcases hst with hst | hst <;> rw [hst] <;> decide
  · exact ⟨_, event_steady (f := fun x => x.updReader d (fun r => { r with overcurrent := false, supplyReleased := true })) hs, rfl⟩

end Sys2Proof.Machine
end

section
/-! PROOFS. The replies of a reader (R121, R122, R125, R127, R131, R132). -/

namespace Sys2Proof.Machine

/-! ## The bytes of a reply (R121) -/

theorem natBE_bytesBE_two (w : Word16) : BitVec.ofNat 16 (natBE (bytesBE 2 w.toNat)) = w := by
  have hw := w.isLt
  refine BitVec.eq_of_toNat_eq ?_
  simp [natBE, bytesBE]
  omega

/-- The bytes received up to the marker are skipped. -/
theorem dropWhile_noise {noise : List Byte} (h : 0x7E ∉ noise) (rest : List Byte) :
    (noise ++ linkMarker :: rest).dropWhile (fun b => decide (b ≠ linkMarker)) = linkMarker :: rest := by
  induction noise with
  | nil => rfl
  | cons b noise ih =>
    obtain ⟨hb, hn⟩ := not_or.mp fun hc => h (List.mem_cons.mpr hc)
    have hskip : decide (b ≠ linkMarker) = true := decide_eq_true (Ne.symm hb)
    rw [List.cons_append, List.dropWhile_cons_of_pos (p := fun b => decide (b ≠ linkMarker)) hskip, ih hn]

theorem wholeReply_whole {noise : List Byte} (h : 0x7E ∉ noise) (kind flags : Byte) {payload : List Byte} (hl : payload.length ≤ 64) (crc : Word16)
    (tail : List Byte) :
    wholeReply (noise ++ linkMarker :: kind :: flags :: BitVec.ofNat 8 payload.length :: (payload ++ bytesBE 2 crc.toNat ++ tail)) =
      some ⟨kind, flags, payload, crc⟩ := by
  have hn : (BitVec.ofNat 8 payload.length).toNat = payload.length := by
    rw [BitVec.toNat_ofNat]
    omega
  have hrest : payload.length + 2 ≤ (payload ++ bytesBE 2 crc.toNat ++ tail).length := by simp [bytesBE_length]
  have hcrc : ((payload ++ bytesBE 2 crc.toNat ++ tail).drop payload.length).take 2 = bytesBE 2 crc.toNat := by
    rw [List.append_assoc, List.drop_left, List.take_left' (bytesBE_length 2 _)]
  unfold wholeReply
  rw [dropWhile_noise h]
  dsimp only
  rw [hn, if_pos ⟨hl, hrest⟩, hcrc, natBE_bytesBE_two, List.append_assoc, List.take_left]

theorem wholeReply_tooLong {noise : List Byte} (h : 0x7E ∉ noise) (kind flags : Byte) {length : Byte} (hl : 64 < length.toNat) (tail : List Byte) :
    wholeReply (noise ++ linkMarker :: kind :: flags :: length :: tail) = none := by
  unfold wholeReply
  rw [dropWhile_noise h]
  exact if_neg fun hc => by omega

theorem Reply.valid_take {flags : Byte} {payload : List Byte} (hp : 1 ≤ payload.length) (hl : payload.length ≤ 64) :
    Reply.valid ⟨0x82, flags, payload, crc16 (linkBytes 0x82 flags payload)⟩ = some .take := if_pos ⟨rfl, hp, hl⟩

theorem Reply.valid_got (flags : Byte) : Reply.valid ⟨0x83, flags, [], crc16 (linkBytes 0x83 flags [])⟩ = some .got := if_pos ⟨rfl, rfl⟩

theorem Reply.valid_none (flags : Byte) : Reply.valid ⟨0x81, flags, [], crc16 (linkBytes 0x81 flags [])⟩ = some .none := if_pos ⟨rfl, rfl⟩

theorem Reply.valid_badCrc {x : Reply} (h : x.crc ≠ crc16 (linkBytes x.kind x.flags x.payload)) : x.valid = none := by
  unfold Reply.valid
  split
  · rfl
  · exact if_neg fun hc => h hc.1

/-! ## The event (R122) -/

section reply
variable {s : State} {d : Side} {f : LinkFrame} {kind flags : Byte} {payload noise : List Byte} {crc : Word16}
  (hs : s.steady) (hl : (s.rdr.get d).link = .awaiting) (hp : payload.length ≤ 64) (hn : 0x7E ∉ noise) (tail : List Byte)
include hs hl hp hn

theorem exec_readerReply :
    exec (.readerReply d noise kind flags (BitVec.ofNat 8 payload.length :: (payload ++ bytesBE 2 crc.toNat ++ tail))) s =
      .next (publish s (s.replyRead d ⟨kind, flags, payload, crc⟩)) := by
  change execReaderReply d noise kind flags _ s = _
  rw [execReaderReply, event_steady hs, wholeReply_whole hn kind flags hp crc tail]
  simp only [hl, if_true]

variable (hf : (s.rdr.get d).frame = some f)
include hf

theorem exec_readerReply_valid {k : ReplyKind} (hv : Reply.valid ⟨kind, flags, payload, crc⟩ = some k) :
    exec (.readerReply d noise kind flags (BitVec.ofNat 8 payload.length :: (payload ++ bytesBE 2 crc.toNat ++ tail))) s =
      .next (publish s ((s.replyTaken d f.kind k ⟨kind, flags, payload, crc⟩).updReader d Reader.endWait)) := by
  rw [exec_readerReply hs hl hp hn, State.replyRead]
  simp only [hf, hv]

theorem exec_readerReply_invalid (hv : Reply.valid ⟨kind, flags, payload, crc⟩ = none) :
    exec (.readerReply d noise kind flags (BitVec.ofNat 8 payload.length :: (payload ++ bytesBE 2 crc.toNat ++ tail))) s =
      .next (publish s ((s.readerMiss d).updReader d Reader.endWait)) := by
  rw [exec_readerReply hs hl hp hn, State.replyRead]
  simp only [hf, hv]

end reply

/-! ## What a valid reply does (R125, R127, R131, R132) -/

theorem readyMark {flags : Byte} (b : Bool) (h : flags.toNat % 2 = bit b) : flags.toNat.testBit 0 = b := by
  rw [Nat.testBit_zero, h]
  cases b <;> rfl

theorem fillCell_first {number : Nat} {payload : List Byte} {before after : List MailCell} {c : MailCell} (hb : ∀ x ∈ before, x.stateWord ≠ 0)
    (hc : c.stateWord = 0) : fillCell number payload (before ++ c :: after) =
      some (before ++ ⟨(c.rev + 2) % 65536, 1, number, payload.length, payload⟩ :: after) := by
  induction before with
  | nil => exact if_pos (decide_eq_true hc)
  | cons x before ih =>
    have hx : ¬ x.free = true := fun hx => hb x List.mem_cons_self (of_decide_eq_true hx)
    exact (if_neg hx).trans (congrArg (Option.map (fun xs => x :: xs)) (ih fun y hy => hb y (List.mem_cons_of_mem _ hy)))

theorem State.readiness_stays {s : State} {d : Side} {b : Bool}
    (h : ((s.rdr.get d).state = .ready ∧ b = true) ∨ ((s.rdr.get d).state = .warming ∧ b = false)) : s.readiness d b = s := by
  unfold State.readiness
  rcases h with ⟨h, rfl⟩ | ⟨h, rfl⟩ <;> rw [h]

theorem State.readiness_gained {s : State} {d : Side} (h : (s.rdr.get d).state = .warming) :
    s.readiness d true = (s.updReader d (fun r => { r with warmUp := none, miss := 0, cycles := 0 })).setReaderState d .ready := by
  unfold State.readiness
  rw [h]

theorem State.readiness_lost {s : State} {d : Side} (h : (s.rdr.get d).state = .ready) :
    s.readiness d false = (s.updReader d (fun r => { r with warmUp := some 10000, cycles := 0 })).setReaderState d .warming := by
  unfold State.readiness
  rw [h]

/-- A reply that carries nothing for the frame (R126). -/
theorem State.replyAction_none (s : State) (d : Side) (f : LinkKind) (payload : List Byte) : s.replyAction d f .none payload = s := by
  cases f with
  | ask => rfl
  | stay => rfl
  | give =>
    change s.giveAnswer d .none = s
    unfold State.giveAnswer
    split <;> rfl

/-- Mail goes into the lowest-numbered FREE cell (R125). -/
theorem State.storeMail_fills {s : State} {d : Side} {payload : List Byte} {before after : List MailCell} {c : MailCell}
    (hcells : (s.rdr.get d).cells = before ++ c :: after) (hb : ∀ x ∈ before, x.stateWord ≠ 0) (hc : c.stateWord = 0) :
    s.storeMail d payload = { s with
      rdr := s.rdr.set d { s.rdr.get d with
        cells := before ++ ⟨(c.rev + 2) % 65536, 1, (s.rdr.get d).nextMail, payload.length, payload⟩ :: after
        nextMail := nextMailNumber (s.rdr.get d).nextMail, acceptNext := true }
      port := { s.port with attn := s.port.attn ||| (mailFlag d).mask } } := by
  have hfill := fillCell_first (number := (s.rdr.get d).nextMail) (payload := payload) (after := after) hb hc
  unfold State.storeMail
  simp only [hcells, hfill]
  rfl

theorem State.giveAnswer_got {s : State} {d : Side} {o : SendOrder} {rest : List SendOrder} (h : (s.rdr.get d).sends = o :: rest) :
    s.giveAnswer d .got = (s.updReader d (fun r => { r with sends := rest })).complete o.ref .ok o.gives := by
  unfold State.giveAnswer
  rw [h]

/-- A change of state seen from before marks of the reader that leave its state. -/
theorem State.ReaderMoves.fromReader {s t : State} {d : Side} {f : Reader → Reader} {q : Reader} (h : (s.updReader d f).ReaderMoves t d q)
    (hf : (f (s.rdr.get d)).state = (s.rdr.get d).state) : s.ReaderMoves t d q := by
  have hholds : (s.updReader d f).readerHolds d = s.readerHolds d := by rw [State.readerHolds, State.updReader_get, hf]; rfl
  have hflags : (s.updReader d f).leaveFlags d = s.leaveFlags d := by rw [State.leaveFlags, hholds]; rfl
  obtain ⟨hrdr, ⟨hlf, hlm, hlo⟩, hp, hframe⟩ := h
  refine ⟨?_, ⟨?_, fun p => ?_, hlo⟩, ?_, hframe⟩
  · rw [hrdr, State.updReader, Sides.set_set]
  · rw [hlf, hholds]
    rfl
  · rw [hlm, hholds]
    rfl
  · rw [hp, hflags]
    rfl

/-- Settles O41, by the reply. -/
theorem repliesAreTaken : Obligations.RepliesAreTaken := by
  intro s d f flags payload noise tail hs hl hf hh hp hn
  have hget (g : Reader → Reader) : (s.updReader d g).rdr.get d = g (s.rdr.get d) := State.updReader_get ..
  refine ⟨fun before c after hk hr hready hlen hcells hb hc => ?_, fun o rest hk hr hready hnil hsends => ?_, fun hw hready hnil => ?_,
    fun hr hready hnil => ?_, fun kind crc hcrc hr hm => ?_, fun kind length hlong => ?_⟩
  · have he := exec_readerReply_valid hs hl hp hn tail hf (Reply.valid_take (flags := flags) hlen hp)
    rw [State.replyTaken, hk, readyMark true hready] at he
    have haction (y : State) : y.replyAction d .ask .take payload = y.storeMail d payload := rfl
    rw [haction, State.storeMail_fills (by rw [hget]; exact hcells) hb hc, hget, State.readiness_stays (.inl ⟨by rw [Sides.get_set_same]; exact hr, rfl⟩),
      State.updReader, Sides.get_set_same, Reader.endWait_free (by exact hh)] at he
    simp only [State.updReader, Sides.set_set] at he
    exact ⟨_, he, rfl, by rw [flagsOf_one]; rfl, rfl⟩
  · subst hnil
    have he := exec_readerReply_valid hs hl hp hn tail hf (Reply.valid_got flags)
    rw [State.replyTaken, hk, readyMark true hready] at he
    have haction (y : State) : y.replyAction d .give .got [] = y.giveAnswer d .got := rfl
    rw [haction, State.giveAnswer_got (by rw [hget]; exact hsends), State.updReader_updReader, State.complete_updReader] at he
    have hframe := s.complete_eq o.ref .ok o.gives
    generalize s.complete o.ref .ok o.gives = x at he hframe ⊢
    have hrdr : x.rdr = s.rdr := by rw [hframe]
    rw [State.readiness_stays (.inl ⟨by rw [State.updReader_get, hrdr]; exact hr, rfl⟩), State.updReader_updReader, State.updReader, hrdr,
      Reader.endWait_free (by exact hh)] at he
    refine ⟨_, he, rfl, rfl, rfl, ?_⟩
    obtain ⟨mem, port, rfl⟩ : ∃ mem port, x = { s with mem := mem, port := port } := ⟨_, _, hframe⟩
    rfl
  · subst hnil
    have he := exec_readerReply_valid hs hl hp hn tail hf (Reply.valid_none flags)
    rw [State.replyTaken, readyMark true hready, State.replyAction_none, State.readiness_gained (by rw [hget]; exact hw),
      State.updReader_updReader, State.setReaderState_alone (by rw [hget]; exact hw ▸ nofun) (by rw [hget]; exact hw ▸ nofun) (by decide),
      hget, State.updReader, Sides.get_set_same, Reader.endWait_free (by exact hh)] at he
    simp only [State.updReader, Sides.set_set] at he
    exact ⟨_, he, rfl, by rw [flagsOf_one]; rfl, rfl⟩
  · subst hnil
    have he := exec_readerReply_valid hs hl hp hn tail hf (Reply.valid_none flags)
    rw [State.replyTaken, readyMark false hready, State.replyAction_none, State.readiness_lost (by rw [hget]; exact hr),
      State.updReader_updReader] at he
    have hmoves := (State.setReaderState_moves (s := s.updReader d (fun r => { r with miss := 0, warmUp := some 10000, cycles := 0 })) (d := d)
      (st := .warming) (by rw [hget]; exact hr ▸ nofun) fun hc => nomatch hc.1).fromReader rfl |>.upd Reader.endWait
    rw [hget, Reader.endWait_free (by exact hh)] at hmoves
    generalize State.updReader _ d Reader.endWait = t at he hmoves
    refine ⟨_, he, hmoves.rdr, hmoves.port, ⟨hmoves.leaves.fp, hmoves.leaves.meters, hmoves.leaves.otherMet⟩, ?_⟩
    have hframe := hmoves.frame
    obtain ⟨rdr, fp, met, port, rfl⟩ : ∃ rdr fp met port, t = { s with rdr := rdr, fp := fp, met := met, port := port } := ⟨_, _, _, _, hframe⟩
    rfl
  · have he := exec_readerReply_invalid (kind := kind) (flags := flags) (crc := crc) hs hl hp hn tail hf (Reply.valid_badCrc hcrc)
    rw [State.miss_waitEnds hr hm hh] at he
    exact ⟨_, he, rfl⟩
  · have he : exec (.readerReply d noise kind flags (length :: tail)) s = .next (publish s s) := by
      change execReaderReply d noise kind flags _ s = _
      rw [execReaderReply, event_steady hs, wholeReply_tooLong hn kind flags hlong]
    exact ⟨_, he, rfl⟩

end Sys2Proof.Machine
end

section
/-! PROOFS. An entry of the log (R180, R196). -/

namespace Sys2Proof.Machine

/-! ## Numbers as bytes (R196) -/

theorem foldl_bytesBE (n v acc : Nat) : (bytesBE n v).foldl (fun x b => x * 256 + b.toNat) acc = acc * 256 ^ n + v % 256 ^ n := by
  induction n generalizing acc with
  | zero => simp [bytesBE, Nat.mod_one]
  | succ n ih =>
    have hdigit : (BitVec.ofNat 8 (v / 256 ^ n)).toNat = v / 256 ^ n % 256 := BitVec.toNat_ofNat ..
    rw [bytesBE, List.foldl_cons, ih, hdigit, Nat.pow_succ, Nat.mod_mul, Nat.add_mul, Nat.mul_comm (v / 256 ^ n % 256)]
    ring

theorem natBE_bytesBE {n v : Nat} (h : v < 256 ^ n) : natBE (bytesBE n v) = v := by
  rw [natBE, foldl_bytesBE, Nat.zero_mul, Nat.zero_add, Nat.mod_eq_of_lt h]

/-- The bytes of one field after another. -/
theorem Memory.readAll_split {m : Memory} {a n k : Nat} {x y : List Byte} (h : m.readAll a (n + k) = x ++ y) (hx : x.length = n) :
    m.readAll a n = x ∧ m.readAll (a + n) k = y := by
  rw [Memory.readAll_append] at h
  exact List.append_inj h (by rw [Memory.length_readAll, hx])

theorem Memory.field_of_bytes {m : Memory} {a n v : Nat} (h : m.readAll a n = bytesBE n v) (hv : v < 256 ^ n) : m.field a n = v := by
  rw [Memory.field, h, natBE_bytesBE hv]

/-! ## The entry -/

theorem LogEntry.bytes_length (e : LogEntry) : e.bytes.length = 30 := by simp [LogEntry.bytes, bytesBE_length]

/-- The fields of a log entry are within the widths of its place (file 11). -/
structure LogEntry.Fits (e : LogEntry) : Prop where
  event : e.event < 256 ^ 4
  kind : e.kind < 256 ^ 1
  param : e.param < 256 ^ 1
  old : e.old < 256 ^ 8
  new : e.new < 256 ^ 8
  oldCheck : e.oldCheck < 256 ^ 2
  newCheck : e.newCheck < 256 ^ 2
  time : e.time < 256 ^ 4

theorem logEntryAt_of_bytes {m : Memory} {e : LogEntry} {n : Nat} (he : e.Fits) (h : m.readAll (logPlaceAddr n) 30 = e.bytes) :
    logEntryAt m n = e := by
  unfold LogEntry.bytes at h
  obtain ⟨h, htime⟩ := Memory.readAll_split (n := 26) (k := 4) h (by simp [bytesBE_length])
  obtain ⟨h, hnewCheck⟩ := Memory.readAll_split (n := 24) (k := 2) h (by simp [bytesBE_length])
  obtain ⟨h, holdCheck⟩ := Memory.readAll_split (n := 22) (k := 2) h (by simp [bytesBE_length])
  obtain ⟨h, hnew⟩ := Memory.readAll_split (n := 14) (k := 8) h (by simp [bytesBE_length])
  obtain ⟨h, hold⟩ := Memory.readAll_split (n := 6) (k := 8) h (by simp [bytesBE_length])
  obtain ⟨h, hparam⟩ := Memory.readAll_split (n := 5) (k := 1) h (by simp [bytesBE_length])
  obtain ⟨hevent, hkind⟩ := Memory.readAll_split (n := 4) (k := 1) h (by simp [bytesBE_length])
  unfold logEntryAt
  dsimp only
  rw [Memory.field_of_bytes hevent he.event, Memory.field_of_bytes hkind he.kind, Memory.field_of_bytes hparam he.param,
    Memory.field_of_bytes hold he.old, Memory.field_of_bytes hnew he.new, Memory.field_of_bytes holdCheck he.oldCheck,
    Memory.field_of_bytes hnewCheck he.newCheck, Memory.field_of_bytes htime he.time]

section add
variable (m : Memory) (e : LogEntry)

theorem addEntry_place (h : m.wf = true) : (addEntry m e).readAll (logPlaceAddr (logCount m)) 30 = e.bytes := by
  have hplace : 194 ≤ logPlaceAddr (logCount m) := Nat.le_add_right ..
  rw [addEntry, Memory.readAll_writeAll_out _ _ _ _ _ (by rw [bytesBE_length]; omega),
    Memory.readAll_writeAll_out _ _ _ _ _ (by simp [pad, bytesBE_length]; omega)]
  have hr := Memory.readAll_writeAll h (logPlaceAddr (logCount m)) e.bytes
  rwa [LogEntry.bytes_length] at hr

theorem addEntry_head (h : m.wf = true) : (addEntry m e).readAll 184 2 = bytesBE 1 (logCount m + 1) ++ pad 1 := by
  rw [addEntry, Memory.readAll_writeAll_out _ _ _ _ _ (by omega)]
  exact Memory.readAll_writeAll (Memory.writeAll_wf h _ _) 184 (bytesBE 1 (logCount m + 1) ++ pad 1)

theorem addEntry_event (h : m.wf = true) : (addEntry m e).readAll 186 8 = bytesBE 8 (e.event + 1) :=
  Memory.readAll_writeAll (Memory.writeAll_wf (Memory.writeAll_wf h _ _) _ _) 186 (bytesBE 8 (e.event + 1))

theorem addEntry_others {a : Nat} (hhead : a < 184 ∨ 194 ≤ a) (hplace : a < 194 + 30 * logCount m ∨ 194 + 30 * (logCount m + 1) ≤ a) :
    (addEntry m e).read a = m.read a := by
  have hp : logPlaceAddr (logCount m) = 194 + 30 * logCount m := rfl
  rw [addEntry, Memory.read_writeAll_out _ _ _ _ (by rw [bytesBE_length]; omega),
    Memory.read_writeAll_out _ _ _ _ (by simp [pad, bytesBE_length]; omega), Memory.read_writeAll_out _ _ _ _ (by rw [LogEntry.bytes_length]; omega)]

end add

/-- Settles O44, by the bytes of the place, the count and the event number. -/
theorem anEntryIsAddedInTheNextPlace : Obligations.AnEntryIsAddedInTheNextPlace := by
  intro m e hwf hcount hevent hkind hparam hold hnew holdCheck hnewCheck htime
  obtain ⟨hc, hpad⟩ := Memory.readAll_split (n := 1) (k := 1) (addEntry_head m e hwf) (bytesBE_length _ _)
  have hnext : (addEntry m e).field 186 8 = e.event + 1 := Memory.field_of_bytes (addEntry_event m e hwf) (by omega)
  refine ⟨Memory.field_of_bytes hc (by omega), ?_, logEntryAt_of_bytes ⟨hevent, hkind, hparam, hold, hnew, holdCheck, hnewCheck, htime⟩
    (addEntry_place m e hwf), addEntry_wf hwf e, ?_, fun a hh hp => addEntry_others m e hh hp⟩
  · rw [nextEvent, hnext, if_neg (Nat.succ_ne_zero _)]
  · exact (List.cons.inj hpad).1

end Sys2Proof.Machine
end

section
/-! PROOFS. The writes of the metrology store and the effect of a store-writing order (R176, R180, R181). -/

namespace Sys2Proof.Machine

/-! ## Pages (log 10) -/

theorem pagesOf_eq (m : Memory) {fuel : Nat} (a : Nat) {n : Nat} (h : n ≤ 32 * fuel) : pagesOf m fuel a n = pagesAt m a n := by
  induction fuel generalizing a n with
  | zero =>
    obtain rfl : n = 0 := by omega
    rfl
  | succ fuel ih =>
    unfold pagesOf
    by_cases hn : n = 0
    · subst hn
      rfl
    · have hcount : (n + 31) / 32 = (n - 32 + 31) / 32 + 1 := by omega
      have hshift (i : Nat) : (⟨a + 32 + 32 * i, m.readAll (a + 32 + 32 * i) (min 32 (n - 32 - 32 * i))⟩ : StorePage) =
          ⟨a + 32 * (i + 1), m.readAll (a + 32 * (i + 1)) (min 32 (n - 32 * (i + 1)))⟩ := by
        have ha : a + 32 + 32 * i = a + 32 * (i + 1) := by omega
        have hl : n - 32 - 32 * i = n - 32 * (i + 1) := by omega
        rw [ha, hl]
      rw [if_neg hn, ih (a + 32) (by omega)]
      unfold pagesAt
      rw [hcount, List.range_succ_eq_map, List.map_cons, List.map_map]
      simp only [hshift, Function.comp_def, Nat.succ_eq_add_one, Nat.mul_zero, Nat.add_zero, Nat.sub_zero]

theorem pagesAt_ne_nil (m : Memory) (a : Nat) {n : Nat} (h : n ≠ 0) : pagesAt m a n ≠ [] := by
  unfold pagesAt
  simp
  omega

theorem logPages_ne_nil (m : Memory) (o : StoreOrder) (b : Bool) : logPages m o b ≠ [] := by
  unfold logPages
  split
  · exact pagesAt_ne_nil m 184 (by decide)
  · exact List.append_ne_nil_of_left_ne_nil (pagesAt_ne_nil m _ (by decide)) _

/-! ## The parts of a write (R181) -/

theorem StorePort.partPages_log (x : StorePort) (o : StoreOrder) : x.partPages o .log = logPages x.image o x.rewriteAll := by
  unfold StorePort.partPages logPages
  dsimp only
  rw [pagesOf_eq _ _ (by decide), pagesOf_eq _ _ (by decide), pagesOf_eq _ _ (by decide)]
  rfl

theorem StorePort.partPages_block {x : StorePort} (h : x.rewriteAll = false) (o : StoreOrder) : x.partPages o .block = blockPages x.image o.block := by
  unfold StorePort.partPages blockPages
  dsimp only
  rw [if_neg (by rw [h]; exact nofun)]
  cases o.block with
  | none => rfl
  | meter m => exact pagesOf_eq _ _ (by decide)
  | settings => exact congrArg₂ (· ++ ·) (pagesOf_eq (fuel := 40) (n := 40) _ _ (by decide)) (pagesOf_eq (fuel := 40) (n := 22) _ _ (by decide))

theorem StorePort.partPages_allBlocks {x : StorePort} (h : x.rewriteAll = true) (o : StoreOrder) :
    x.partPages o .block = pagesAt x.image 2 182 := by
  unfold StorePort.partPages
  dsimp only
  rw [if_pos h, pagesOf_eq _ _ (by decide)]

/-- A part that has a page. -/
theorem StorePort.beginPart_pages {x y : StorePort} {o : StoreOrder} {p : StorePart} (hp : x.padded p = y) (hne : y.partPages o p ≠ []) :
    x.beginPart o p = { y with write := writeFrom p y.image (y.partPages o p) } := by
  unfold StorePort.beginPart
  dsimp only
  rw [hp]
  cases hpages : y.partPages o p with
  | nil => exact absurd hpages hne
  | cons page rest => rfl

/-- A part with no page is passed over for the CRC. -/
theorem StorePort.beginPart_empty {x y : StorePort} {o : StoreOrder} {p : StorePart} (hp : x.padded p = y) (hne : y.partPages o p = []) :
    x.beginPart o p = { y with write := writeFrom .crc y.image [crcPage y.image] } := by
  unfold StorePort.beginPart
  dsimp only
  rw [hp, hne]
  rfl

theorem StorePort.padded_same {x : StorePort} {p : StorePart} (h : p ≠ .block ∨ x.rewriteAll = false) : x.padded p = x :=
  if_neg fun hc => h.elim (fun hp => hp hc.1) fun hr => by rw [hr] at hc; exact Bool.false_ne_true hc.2

theorem StorePort.beginPart_log (x : StorePort) (o : StoreOrder) :
    x.beginPart o .log = { x with write := writeFrom .log x.image (logPages x.image o x.rewriteAll) } := by
  rw [StorePort.beginPart_pages (StorePort.padded_same (p := .log) (.inl (by decide))) (by rw [StorePort.partPages_log]; exact logPages_ne_nil _ _ _),
    StorePort.partPages_log]

/-- With no write in progress the next write begins, if there is one (R181). -/
theorem State.beginWrite_next {s : State} (hw : s.store.write = none) :
    s.beginWrite = { s with store := { s.store with write := s.nextWrite s.store.list s.store.rewriteAll } } := by
  have hstay {more : List StoreOrder} (h : s.nextWrite more s.store.rewriteAll = none) :
      s = { s with store := { s.store with write := s.nextWrite more s.store.rewriteAll } } := by rw [h, ← hw]
  unfold State.beginWrite
  cases s.store.list with
  | nil => exact hstay rfl
  | cons o rest =>
    rw [hw]
    by_cases hp : s.pw.state = .powerFail
    · exact (if_pos hp).trans (hstay (if_pos hp))
    · refine (if_neg hp).trans ?_
      rw [State.updStore, StorePort.beginPart_log, State.nextWrite, if_neg hp]

theorem State.beginWrite_busy {s : State} (hw : s.store.write.isSome = true) : s.beginWrite = s := by
  unfold State.beginWrite
  split
  · rename_i o rest hl hn
    rw [hn] at hw
    cases hw
  · rfl

/-! ## The effect of a store-writing order (R176, R180) -/

theorem State.attnIf_flags (s : State) (b : Bool) (f : Attn) :
    s.attnIf b f = { s with port := { s.port with attn := s.port.attn ||| flagsOf (if b then [f] else []) } } := by
  unfold State.attnIf
  cases b with
  | false => rw [if_neg Bool.false_ne_true, if_neg Bool.false_ne_true, or_flagsOf_nil]
  | true => rw [if_pos rfl, if_pos rfl, flagsOf_one]; rfl

/-- The store port as a store-writing order joins the list, before its write begins. -/
def StorePort.joined (x : StorePort) (o : StoreOrder) (m : Memory) : StorePort :=
  { x with copy := some m, mirror := logEntries m, logFull := decide (32 ≤ logCount m), list := x.list ++ [o] }

/-- METROLOGY where an image fills the log (R180). -/
def StorePort.fillFlags (x : StorePort) (m : Memory) : List Attn := if decide (32 ≤ logCount m) && !x.logFull then [.metrology] else []

section effect
variable (s : State) (o : Order) (block : ParamBlock) (wholeLog : Bool) (image : Memory) (c : LogChange)

/-- The place of the order in the store-write list. -/
def Order.stored (o : Order) (block : ParamBlock) (wholeLog : Bool) (image : Memory) (e : LogEntry) : StoreOrder :=
  { ref := o.ref, block := block, wholeLog := wholeLog, event := e.event, place := logCount image }

omit o block wholeLog image c in
/-- The write of an order that has joined the list: one in progress goes on, and on an empty list its own begins. -/
theorem State.beginWrite_joined (x : StorePort) (p : Port) (q : StoreOrder) (hlist : x.list = s.store.list ++ [q])
    (hwrite : x.write = s.store.write) : ∃ write,
      ({ s with store := x, port := p } : State).beginWrite = { s with store := { x with write := write }, port := p }
      ∧ (s.store.write.isSome = true → write = s.store.write)
      ∧ (s.store.list = [] → s.store.write = none → s.pw.state ≠ .powerFail →
          write = writeFrom .log x.image (logPages x.image q x.rewriteAll)) := by
  cases hw : s.store.write with
  | some w =>
    refine ⟨some w, ?_, fun _ => rfl, fun _ hn => nomatch hn⟩
    rw [State.beginWrite_busy (by rw [hwrite, hw]; rfl), ← hw, ← hwrite]
  | none =>
    refine ⟨_, State.beginWrite_next (s := { s with store := x, port := p }) (hwrite.trans hw), (fun hn => nomatch hn), fun hl _ hp => ?_⟩
    rw [hlist, hl, List.nil_append, State.nextWrite, if_neg hp]

theorem State.storeEffect_begins : s.storeEffect o block wholeLog image c = ({ s with
    store := s.store.joined (o.stored block wholeLog image (c.entry image s.rtc)) (addEntry image (c.entry image s.rtc))
    port := { s.port with attn := s.port.attn ||| flagsOf (s.store.fillFlags (addEntry image (c.entry image s.rtc))) } } : State).beginWrite := by
  unfold State.storeEffect StorePort.joined Order.stored StorePort.fillFlags
  dsimp only
  generalize c.entry image s.rtc = e
  generalize addEntry image e = m
  generalize decide (32 ≤ logCount m) = b
  rw [State.attnIf_flags]
  rfl

/-- What a store-writing order's effect leaves in the store port and in the flags. -/
theorem State.storeEffect_eq : ∃ write, s.storeEffect o block wholeLog image c = { s with
      store := { s.store.joined (o.stored block wholeLog image (c.entry image s.rtc)) (addEntry image (c.entry image s.rtc)) with write := write }
      port := { s.port with attn := s.port.attn ||| flagsOf (s.store.fillFlags (addEntry image (c.entry image s.rtc))) } }
    ∧ (s.store.write.isSome = true → write = s.store.write)
    ∧ (s.store.list = [] → s.store.write = none → s.pw.state ≠ .powerFail → write = writeFrom .log (addEntry image (c.entry image s.rtc))
        (logPages (addEntry image (c.entry image s.rtc)) (o.stored block wholeLog image (c.entry image s.rtc)) s.store.rewriteAll)) := by
  rw [State.storeEffect_begins]
  generalize c.entry image s.rtc = e
  generalize addEntry image e = m
  exact State.beginWrite_joined s (s.store.joined (o.stored block wholeLog image e) m) _ _ rfl rfl

end effect

end Sys2Proof.Machine
end

section
/-! PROOFS. CALIBRATE and CLEAR_LOG (R176, R177, R179). -/

namespace Sys2Proof.Machine

/-! ## The tests of R176 -/

theorem State.storeTest_open {s : State} {clears : Bool} (h : s.storeOpen clears) : s.storeTest clears none = none := by
  obtain ⟨habsent, hswitch, hroom, hevent, hdue, hload, hlist⟩ := h
  unfold State.storeTest
  rw [if_neg (by rw [habsent]; exact nofun), if_neg (by rw [hswitch]; exact nofun), if_neg ?_, if_neg (Nat.not_lt.mpr hevent)]
  · dsimp only
    rw [if_neg (by rw [hdue, hload]; exact nofun), if_neg (Nat.not_le.mpr hlist)]
  · rintro ⟨hc, hfull⟩
    rcases hroom with hroom | hroom
    · rw [hc] at hroom
      cases hroom
    · omega

/-! ## The effect of an order just taken -/

theorem takenIn_ne_powerFail {st : PowerState} {k : OrderKind} (h : takenIn st k = true) : st ≠ .powerFail := by
  rintro rfl
  cases h

/-- The effect of a store-writing order in the event of its take. -/
theorem State.Offers.storeTakes {s : State} {k : OrderKind} {n target : Nat} (h : s.Offers k n target) (block : ParamBlock) (wholeLog : Bool)
    (image : Memory) (c : LogChange) {e : LogEntry} (he : c.entry image s.rtc = e) : ∃ store : StorePort,
      (s.takeSlot n).1.storeEffect (s.takeSlot n).2 block wholeLog image c = { (s.takeSlot n).1 with
        store := store
        port := { (s.takeSlot n).1.port with
          attn := s.port.attn ||| flagsOf (if store.logFull && !s.store.logFull then [.metrology] else []) } }
      ∧ (∀ t : State, t.store = store → s.StoreTakes t n image block wholeLog e)
      ∧ store.copy = some (addEntry image e) ∧ store.logFull = decide (32 ≤ logCount (addEntry image e)) := by
  obtain ⟨write, heq, hgoes, hstarts⟩ := State.storeEffect_eq (s.takeSlot n).1 (s.takeSlot n).2 block wholeLog image c
  have hrtc : (s.takeSlot n).1.rtc = s.rtc := rfl
  rw [hrtc, he] at heq hstarts
  have takes (m : Memory) (hm : m = addEntry image e) (t : State)
      (ht : t.store = { s.store.joined ((s.takeSlot n).2.stored block wholeLog image e) m with write := write }) :
      s.StoreTakes t n image block wholeLog e := by
    refine ⟨by rw [ht, ← hm]; rfl, by rw [ht, ← hm]; rfl, by rw [ht, ← hm]; rfl, by rw [ht]; rfl, fun hw => ?_, fun hl hw => ?_, by rw [ht]; rfl⟩
    · rw [ht]
      exact hgoes hw
    · rw [ht]
      exact hstarts hl hw (takenIn_ne_powerFail h.taken)
  generalize hm : addEntry image e = m at *
  exact ⟨{ s.store.joined ((s.takeSlot n).2.stored block wholeLog image e) m with write := write }, heq, fun t ht => takes m rfl t ht, rfl, rfl⟩

/-! ## CLEAR_LOG -/

theorem State.Offers.exec_clearLog {s : State} {n : Nat} (h : s.Offers .clearLog n 0) (ho : s.storeOpen true) :
    exec .clearLog s = .next (publish s ((s.takeSlot n).1.clearLog (s.takeSlot n).2)) := by
  have he : exec .clearLog s = .next (publish s ((s.takeSlot n).1.orderClearLog (s.takeSlot n).2)) := h.plainEvent State.orderClearLog
  rw [he, State.orderClearLog, State.storeTest_open (s := (s.takeSlot n).1) ho]

theorem clearEntries_count {m : Memory} (h : m.wf = true) : logCount (clearEntries m) = 0 := by
  have hw : (m.writeAll 184 [0]).readAll 184 1 = [0] := Memory.readAll_writeAll h 184 [0]
  have hr : (clearEntries m).readAll 184 1 = [0] := (Memory.readAll_writeAll_out _ _ _ _ _ (.inl (by decide))).trans hw
  rw [logCount, Memory.field, hr]
  rfl

/-- The count after an entry in an image with room. -/
theorem addEntry_count {m : Memory} (h : m.wf = true) (e : LogEntry) (hc : logCount m < 255) : logCount (addEntry m e) = logCount m + 1 :=
  Memory.field_of_bytes (Memory.readAll_split (n := 1) (k := 1) (addEntry_head m e h) (bytesBE_length _ _)).1 (by omega)

theorem clearEntries_next (m : Memory) : nextEvent (clearEntries m) = nextEvent m := by
  have hr : (clearEntries m).readAll 186 8 = m.readAll 186 8 :=
    (Memory.readAll_writeAll_out _ _ _ _ _ (.inl (by decide))).trans (Memory.readAll_writeAll_out _ _ _ _ _ (.inr (by decide)))
  rw [nextEvent, nextEvent, Memory.field, Memory.field, hr]

theorem State.Offers.clearsLog {s : State} {n : Nat} (h : s.Offers .clearLog n 0) (ho : s.storeOpen true) (hwf : s.store.image.wf = true) :
    ∃ t, exec .clearLog s = .next t ∧ s.HeldTaken t n []
      ∧ s.StoreTakes t n (clearEntries s.store.image) .none true
          { event := nextEvent s.store.image, kind := 4, param := 0x82, old := logCount s.store.image, new := 0, oldCheck := 0, newCheck := 0
            time := s.rtc.toNat }
      ∧ t.store.logFull = false
      ∧ t = { s with store := t.store, mem := t.mem, port := t.port, rev := t.rev } := by
  have he := h.exec_clearLog ho
  obtain ⟨store, heq, htakes, -, hfull⟩ := h.storeTakes .none true (clearEntries s.store.image)
    { kind := .logCleared, param := 0x82, old := logCount s.store.image, new := 0, oldCheck := 0, newCheck := 0 } rfl
  have hclear : (s.takeSlot n).1.clearLog (s.takeSlot n).2 = _ := heq
  have hroom : store.logFull = false := by
    rw [hfull, addEntry_count (clearEntries_wf hwf) _ (by rw [clearEntries_count hwf]; decide), clearEntries_count hwf]
    rfl
  rw [hclear, hroom, Bool.false_and, if_neg Bool.false_ne_true] at he
  have hentry := htakes (publish s { (s.takeSlot n).1 with
    store := store, port := { (s.takeSlot n).1.port with attn := s.port.attn ||| flagsOf [] } }) rfl
  rw [LogChange.entry, clearEntries_next] at hentry
  exact ⟨_, he, h.heldTaken [] rfl rfl, hentry, hroom, rfl⟩

/-! ## CALIBRATE (R177) -/

/-- Bytes that agree over a range agree field by field. -/
theorem Memory.readAll_sub {m q : Memory} {a b n : Nat} (h : m.readAll a n = q.readAll b n) {off len : Nat} (hl : off + len ≤ n) :
    m.readAll (a + off) len = q.readAll (b + off) len := by
  obtain ⟨k, rfl⟩ : ∃ k, n = off + (len + k) := ⟨n - off - len, by omega⟩
  rw [Memory.readAll_append, Memory.readAll_append, Memory.readAll_append, Memory.readAll_append] at h
  have hrest := (List.append_inj h (by rw [Memory.length_readAll, Memory.length_readAll])).2
  exact (List.append_inj hrest (by rw [Memory.length_readAll, Memory.length_readAll])).1

theorem meterOfTarget_code (m : Meter) : meterOfTarget (meterCode m) = some m := by
  obtain ⟨d, p⟩ := m
  cases d <;> cases p <;> rfl

theorem State.calibrateField_none {s : State} {n : Nat} (hk : 200000 ≤ s.bodyField n 0 4) (hk' : s.bodyField n 0 4 ≤ 2000000)
    (hb1 : 1 ≤ s.bodyField n 4 2) (hb2 : s.bodyField n 4 2 < s.bodyField n 6 2) (hb3 : s.bodyField n 6 2 < s.bodyField n 8 2)
    (hb3' : s.bodyField n 8 2 ≤ 2000)
    (hc : ∀ i, i < 4 → -20000 ≤ signedOf 16 (s.bodyField n (10 + 2 * i) 2) ∧ signedOf 16 (s.bodyField n (10 + 2 * i) 2) ≤ 20000) :
    s.calibrateField n = none := by
  unfold State.calibrateField
  dsimp only
  rw [if_neg (by omega), if_neg (by omega), if_neg (by omega), if_neg (by omega), List.find?_eq_none]
  intro o ho
  obtain ⟨i, hi, rfl⟩ : ∃ i, i < 4 ∧ o = 10 + 2 * i := by
    simp only [List.mem_cons, List.not_mem_nil, or_false] at ho
    rcases ho with rfl | rfl | rfl | rfl
    · exact ⟨0, by decide, rfl⟩
    · exact ⟨1, by decide, rfl⟩
    · exact ⟨2, by decide, rfl⟩
    · exact ⟨3, by decide, rfl⟩
  obtain ⟨hlow, hhigh⟩ := hc i hi
  rw [decide_eq_false (Int.not_lt.mpr hlow), decide_eq_false (Int.not_lt.mpr hhigh)]
  exact Bool.false_ne_true

theorem State.Offers.exec_calibrate {s : State} {n : Nat} {m : Meter} (h : s.Offers .calibrate n (meterCode m)) (ho : s.storeOpen false)
    (hs : s.inSale m.side = false) (hf : s.calibrateField n = none) :
    exec .calibrate s = .next (publish s ((s.takeSlot n).1.calibrate (s.takeSlot n).2 m)) := by
  have he : exec .calibrate s = .next (publish s ((s.takeSlot n).1.orderCalibrate (s.takeSlot n).2)) := h.orderEvent State.orderCalibrate
  have hfield : (s.takeSlot n).1.calibrateField (s.takeSlot n).2.ref.slot = none := (State.takeSlot_calibrateField s n).trans hf
  have htarget : meterOfTarget (s.takeSlot n).2.target = some m := by rw [State.takeSlot_target, h.target, meterOfTarget_code]
  have hsale : (s.takeSlot n).1.inSale m.side = false := hs
  rw [he, State.orderCalibrate, htarget]
  simp only [hfield, hsale, Bool.false_eq_true, if_false, State.storeTest_open (s := (s.takeSlot n).1) ho]

theorem clampInt_same {lo hi v : Int} (hl : lo ≤ v) (hu : v ≤ hi) : clampInt lo hi v = v :=
  (if_neg (Int.not_lt.mpr hl)).trans (if_neg (Int.not_lt.mpr hu))

theorem clampNat_same {lo hi v : Nat} (hl : lo ≤ v) (hu : v ≤ hi) : clampNat lo hi v = v :=
  (if_neg (Nat.not_lt.mpr hl)).trans (if_neg (Nat.not_lt.mpr hu))

/-- A meter's calibration block ends before the log part. -/
theorem meterAddr_le (m : Meter) : meterAddr m + 20 ≤ 162 := by
  obtain ⟨d, p⟩ := m
  cases d <;> cases p <;> decide

section calibrated
variable {s : State} {n : Nat} {m : Meter} {image : Memory} (hwf : image.wf = true) (e : LogEntry)
include hwf

/-- The calibration block of a body stands in the image once the entry is added. -/
theorem calibrated_read {off len : Nat} (hl : off + len ≤ 18) :
    (addEntry (image.writeAll (meterAddr m) (s.bodyBytes n 0 18 ++ [0, 0])) e).field (meterAddr m + off) len = s.bodyField n off len := by
  have haddr := meterAddr_le m
  have hlen : (s.bodyBytes n 0 18 ++ [0, 0]).length = 20 := by rw [List.length_append, State.bodyBytes, Memory.length_readAll]; rfl
  have hnew := Memory.readAll_writeAll hwf (meterAddr m) (s.bodyBytes n 0 18 ++ [0, 0])
  rw [hlen] at hnew
  have hbody := (Memory.readAll_split (n := 18) (k := 2) hnew (Memory.length_readAll _ _ _)).1
  have hkept : (addEntry (image.writeAll (meterAddr m) (s.bodyBytes n 0 18 ++ [0, 0])) e).readAll (meterAddr m) 18 =
      s.mem.readAll (slotAddr n + 16) 18 :=
    (Memory.readAll_congr fun i hi => addEntry_others _ _ (.inl (by omega)) (.inl (by omega))).trans hbody
  exact congrArg natBE (Memory.readAll_sub hkept hl)

omit hwf in
theorem calibrated_next (image : Memory) (m : Meter) (s : State) (n : Nat) :
    nextEvent (image.writeAll (meterAddr m) (s.bodyBytes n 0 18 ++ [0, 0])) = nextEvent image := by
  have haddr := meterAddr_le m
  have hlen : (s.bodyBytes n 0 18 ++ [0, 0]).length = 20 := by rw [List.length_append, State.bodyBytes, Memory.length_readAll]; rfl
  have hr : (image.writeAll (meterAddr m) (s.bodyBytes n 0 18 ++ [0, 0])).readAll 186 8 = image.readAll 186 8 :=
    Memory.readAll_writeAll_out _ _ _ _ _ (.inr (by omega))
  rw [nextEvent, nextEvent, Memory.field, Memory.field, hr]

end calibrated

theorem State.copyK_of {s : State} {m : Meter} {q : Memory} {v : Nat} (hc : s.store.copy = some q) (hv : q.field (meterAddr m) 4 = v)
    (hl : 200000 ≤ v) (hu : v ≤ 2000000) : s.copyK m = v := by
  unfold State.copyK State.copyField
  rw [hc, Option.map_some, hv]
  exact clampNat_same hl hu

theorem State.copyCal_of {s : State} {m : Meter} {q : Memory} (hc : s.store.copy = some q) : s.copyCal m = some (calibrationIn q m) := by
  rw [State.copyCal, hc, Option.map_some]

/-- Settles O45. -/
theorem calibrateAndClearLogTakeEffect : Obligations.CalibrateAndClearLogTakeEffect := by
  intro s n hwf
  refine ⟨fun m h ho hs hk hk' hb1 hb2 hb3 hb3' hc => ?_, fun h ho => h.clearsLog ho hwf⟩
  have he := h.exec_calibrate ho hs (State.calibrateField_none hk hk' hb1 hb2 hb3 hb3' hc)
  obtain ⟨new, hnew⟩ : ∃ new, new = s.store.image.writeAll (meterAddr m) (s.bodyBytes n 0 18 ++ [0, 0]) := ⟨_, rfl⟩
  obtain ⟨e, hentry⟩ : ∃ e : LogEntry, e =
    { event := nextEvent s.store.image, kind := 1, param := meterCode m, old := s.store.image.field (meterAddr m) 4, new := s.bodyField n 0 4
      oldCheck := blockCheck s.store.image (.meter m), newCheck := blockCheck new (.meter m), time := s.rtc.toNat } := ⟨_, rfl⟩
  have hnext : nextEvent new = nextEvent s.store.image := hnew ▸ calibrated_next _ _ _ _
  obtain ⟨store, heq, htakes, hcopy, -⟩ := h.storeTakes (e := e) (.meter m) false new
    { kind := .calibration, param := meterCode m, old := s.store.image.field (meterAddr m) 4, new := s.bodyField n 0 4
      oldCheck := blockCheck s.store.image (.meter m), newCheck := blockCheck new (.meter m) } (by rw [LogChange.entry, hnext, hentry]; rfl)
  obtain ⟨z, hz⟩ : ∃ z : State, z = { (s.takeSlot n).1 with
      store := store
      port := { (s.takeSlot n).1.port with
        attn := s.port.attn ||| flagsOf (if store.logFull && !s.store.logFull then [.metrology] else []) } } := ⟨_, rfl⟩
  have hcal : (s.takeSlot n).1.calibrate (s.takeSlot n).2 m = z.takeCalibration m := by
    have himage : (s.takeSlot n).1.calibratedImage (s.takeSlot n).2.ref.slot m (s.takeSlot n).1.store.image = new := by
      rw [hnew, State.calibratedImage, State.takeSlot_ref, State.takeSlot_bodyBytes]
      rfl
    rw [State.calibrate, himage, State.takeSlot_ref, State.takeSlot_bodyField, State.takeSlot_store, heq, hz]
  rw [hcal] at he
  have hread {off len : Nat} (hl : off + len ≤ 18) : (addEntry new e).field (meterAddr m + off) len = s.bodyField n off len :=
    hnew ▸ calibrated_read hwf e hl
  have hzcopy : z.store.copy = some (addEntry new e) := by rw [hz, hcopy]
  have hck := State.copyK_of (m := m) hzcopy (hread (off := 0) (len := 4) (by decide)) hk hk'
  have hcc : z.copyCal m = some { b1 := s.bodyField n 4 2, b2 := s.bodyField n 6 2, b3 := s.bodyField n 8 2
                                  c1 := signedOf 16 (s.bodyField n 10 2), c2 := signedOf 16 (s.bodyField n 12 2)
                                  c3 := signedOf 16 (s.bodyField n 14 2), c4 := signedOf 16 (s.bodyField n 16 2) } := by
    have hcorrection (i : Nat) (hi : i < 4) : correctionOf (s.bodyField n (10 + 2 * i) 2) = signedOf 16 (s.bodyField n (10 + 2 * i) 2) :=
      clampInt_same (hc i hi).1 (hc i hi).2
    rw [State.copyCal_of hzcopy, calibrationIn, hread (by decide), hread (by decide), hread (by decide), hread (by decide), hread (by decide), hread (by decide), hread (by decide),
      hcorrection 0 (by decide), hcorrection 1 (by decide), hcorrection 2 (by decide), hcorrection 3 (by decide)]
  have htaken : z.takeCalibration m = z.updMeter m (fun c => { c with k := z.copyK m, cal := z.copyCal m, unAcc := 0, unV := 0 }) := rfl
  rw [htaken, hck, hcc] at he
  rw [hnew] at hentry htakes
  subst hz
  refine ⟨_, he, h.heldTaken _ rfl rfl, hentry ▸ htakes _ rfl, ?_, fun x hx => ?_, rfl⟩
  · rw [publish_meter, State.updMeter_meter]
    rfl
  · rw [publish_meter, State.updMeter_meter_ne _ _ hx]
    rfl

end Sys2Proof.Machine
end

section
/-! PROOFS. INIT_TOTALS (R176, R179). -/

namespace Sys2Proof.Machine

/-! ## The tests -/

theorem State.Offers.exec_initTotals {s : State} {n : Nat} (h : s.Offers .initTotals n 0) :
    exec .initTotals s = .next (publish s ((s.takeSlot n).1.orderInitTotals (s.takeSlot n).2)) := h.plainEvent State.orderInitTotals

/-- The first total out of range is named (log 63). -/
theorem State.totalsField_first {s : State} {n i : Nat} (hi : i < 6) (hbad : 999999999999 < s.bodyField n (8 * i) 8)
    (hok : ∀ j, j < i → s.bodyField n (8 * j) 8 ≤ 999999999999) : s.totalsField n = some (8 * i) := by
  have hlist : [0, 8, 16, 24, 32, 40] = (List.range 6).map (8 * ·) := rfl
  have hfind : (List.range 6).find? ((fun o => decide (999999999999 < s.bodyField n o 8)) ∘ (8 * ·)) = some i :=
    List.find?_range_eq_some.mpr ⟨decide_eq_true hbad, List.mem_range.mpr hi, fun j hj => by simpa using hok j hj⟩
  rw [State.totalsField, hlist, List.find?_map, hfind, Option.map_some]

theorem State.totalsField_none {s : State} {n : Nat} (h : ∀ i, i < 6 → s.bodyField n (8 * i) 8 ≤ 999999999999) : s.totalsField n = none := by
  have hlist : [0, 8, 16, 24, 32, 40] = (List.range 6).map (8 * ·) := rfl
  rw [State.totalsField, hlist, List.find?_eq_none]
  intro o ho
  obtain ⟨i, hi, rfl⟩ := List.mem_map.mp ho
  rw [decide_eq_false (Nat.not_lt.mpr (h i (List.mem_range.mp hi)))]
  exact Bool.false_ne_true

section tests
variable {s : State} {clears : Bool} {own : Option Nat}

theorem State.storeTest_absent (ha : s.store.absent = true) : s.storeTest clears own = some (.unavailable, Reason.metrologyAbsent.code) := if_pos ha

variable (ha : s.store.absent = false)
include ha

theorem State.storeTest_switch (hs : s.store.switchOn = false) : s.storeTest clears own = some (.switchOff, 0) := by
  unfold State.storeTest
  rw [if_neg (by rw [ha]; exact nofun), if_pos hs]

variable (hs : s.store.switchOn = true)
include hs

theorem State.storeTest_full (hf : 32 ≤ logCount s.store.image) : s.storeTest false own = some (.logFull, 0) := by
  unfold State.storeTest
  rw [if_neg (by rw [ha]; exact nofun), if_neg (by rw [hs]; exact nofun), if_pos ⟨rfl, hf⟩]

variable (hf : logCount s.store.image < 32)
include hf

theorem State.storeTest_spent (he : 4294967295 < nextEvent s.store.image) : s.storeTest clears own = some (.logFull, Reason.eventNumber.code) := by
  unfold State.storeTest
  rw [if_neg (by rw [ha]; exact nofun), if_neg (by rw [hs]; exact nofun), if_neg (fun hc => by omega), if_pos he]

variable (he : nextEvent s.store.image ≤ 4294967295)
include he

theorem State.storeTest_reload (hr : s.store.reloadDue = true ∨ s.store.reloading = true) :
    s.storeTest clears none = some (.wrongState, Reason.reload.code) := by
  unfold State.storeTest
  rw [if_neg (by rw [ha]; exact nofun), if_neg (by rw [hs]; exact nofun), if_neg (fun hc => by omega), if_neg (by omega)]
  exact if_pos (by rw [Bool.or_eq_true]; exact hr)

variable (hd : s.store.reloadDue = false) (hr : s.store.reloading = false)
include hd hr

theorem State.storeTest_listFull (hl : 16 ≤ s.store.list.length) : s.storeTest clears none = some (.unavailable, Reason.listFull.code) := by
  unfold State.storeTest
  rw [if_neg (by rw [ha]; exact nofun), if_neg (by rw [hs]; exact nofun), if_neg (fun hc => by omega), if_neg (by omega)]
  exact (if_neg (by rw [hd, hr]; exact nofun)).trans (if_pos hl)

end tests

theorem State.takeSlot_storeTest (s : State) (n : Nat) (clears : Bool) (own : Option Nat) :
    (s.takeSlot n).1.storeTest clears own = s.storeTest clears own := by
  unfold State.storeTest
  rw [State.takeSlot_store]

section owner
variable {s : State} {n : Nat}

theorem State.Offers.initTotals_badTotal (h : s.Offers .initTotals n 0) {field : Nat} (hf : s.totalsField n = some field) :
    exec .initTotals s = .next (publish s ((s.takeSlot n).1.complete (s.takeSlot n).2.ref .badOrder field)) := by
  have hfield : (s.takeSlot n).1.totalsField (s.takeSlot n).2.ref.slot = some field := (State.takeSlot_totalsField s n).trans hf
  rw [h.exec_initTotals, State.orderInitTotals, hfield]

theorem State.Offers.initTotals_refused (h : s.Offers .initTotals n 0) (hf : s.totalsField n = none) {code : ResultCode} {detail : Nat}
    (hr : s.storeTest false none = some (code, detail)) :
    exec .initTotals s = .next (publish s ((s.takeSlot n).1.complete (s.takeSlot n).2.ref code detail)) := by
  have hfield : (s.takeSlot n).1.totalsField (s.takeSlot n).2.ref.slot = none := (State.takeSlot_totalsField s n).trans hf
  have htest : (s.takeSlot n).1.storeTest false none = some (code, detail) := (State.takeSlot_storeTest ..).trans hr
  rw [h.exec_initTotals, State.orderInitTotals, hfield]
  simp only [htest]

theorem State.Offers.initTotals_accepted (h : s.Offers .initTotals n 0) (hf : s.totalsField n = none) (ho : s.storeOpen false) :
    exec .initTotals s = .next (publish s ((s.takeSlot n).1.initTotals (s.takeSlot n).2)) := by
  have hfield : (s.takeSlot n).1.totalsField (s.takeSlot n).2.ref.slot = none := (State.takeSlot_totalsField s n).trans hf
  rw [h.exec_initTotals, State.orderInitTotals, hfield]
  simp only [State.storeTest_open (s := (s.takeSlot n).1) ho]

end owner

/-- The total of each meter. -/
def State.meterTotal (s : State) (m : Meter) : Nat := ((s.ret.meters.get m.side).get m.product).total

theorem State.takeSlot_meterTotal (s : State) (n : Nat) : (s.takeSlot n).1.meterTotal = s.meterTotal := rfl

/-- The totals of an accepted INIT_TOTALS, before the prerequisites are reviewed (R40, R179). -/
def State.totalled (s : State) (f : Meter → Nat) : State :=
  { s with ret := s.ret.withTotals f, rev := s.rev.wroteTo totalsParts
           met := ⟨s.met.a.map Channel.dropUnassigned, s.met.b.map Channel.dropUnassigned⟩, pw := { s.pw with totalsInvalid := false } }

theorem State.initTotals_eq (s : State) (o : Order) : s.initTotals o = ((s.storeEffect o .none false s.store.image
    { kind := .totalsInit, param := 0x81, old := sumTotals s.meterTotal, new := sumTotals (s.bodyTotal o.ref.slot), oldCheck := 0
      newCheck := 0 }).totalled (s.bodyTotal o.ref.slot)).reviewBoth := by
  have htotal : s.meterTotal = fun m => ((s.ret.meters.get m.side).get m.product).total := rfl
  rw [htotal]
  unfold State.initTotals
  dsimp only
  generalize s.storeEffect o .none false s.store.image _ = t
  rfl

/-- Settles O47: the tests in their order, and the totals. -/
theorem initTotalsTestsThenSetsTheTotals : Obligations.InitTotalsTestsThenSetsTheTotals := by
  intro s n h
  refine ⟨fun i hi hbad hok => ?_, fun hin ha => ?_, fun hin ha hs => ?_, fun hin ha hs hf => ?_, fun hin ha hs hf he => ?_,
    fun hin ha hs hf he hr => ?_, fun hin ha hs hf he hd hr hl => ?_, fun hin ho hready => ?_⟩
  · exact h.turnedAway (h.initTotals_badTotal (State.totalsField_first hi hbad hok))
  · exact h.turnedAway (h.initTotals_refused (State.totalsField_none hin) (State.storeTest_absent ha))
  · exact h.turnedAway (h.initTotals_refused (State.totalsField_none hin) (State.storeTest_switch ha hs))
  · exact h.turnedAway (h.initTotals_refused (State.totalsField_none hin) (State.storeTest_full ha hs hf))
  · exact h.turnedAway (h.initTotals_refused (State.totalsField_none hin) (State.storeTest_spent ha hs hf he))
  · exact h.turnedAway (h.initTotals_refused (State.totalsField_none hin) (State.storeTest_reload ha hs hf he hr))
  · exact h.turnedAway (h.initTotals_refused (State.totalsField_none hin) (State.storeTest_listFull ha hs hf he hd hr hl))
  · have he := h.initTotals_accepted (State.totalsField_none hin) ho
    obtain ⟨e, hentry⟩ : ∃ e : LogEntry, e =
      { event := nextEvent s.store.image, kind := 3, param := 0x81, oldCheck := 0, newCheck := 0, time := s.rtc.toNat
        old := sumTotals s.meterTotal, new := sumTotals (s.bodyTotal n) } := ⟨_, rfl⟩
    obtain ⟨store, heq, htakes, -, -⟩ := h.storeTakes (e := e) .none false s.store.image
      { kind := .totalsInit, param := 0x81, old := sumTotals s.meterTotal
        new := sumTotals (s.bodyTotal n), oldCheck := 0, newCheck := 0 } (by rw [LogChange.entry, hentry]; rfl)
    obtain ⟨y, hy⟩ : ∃ y : State, y = { (s.takeSlot n).1 with
      store := store
      port := { (s.takeSlot n).1.port with
        attn := s.port.attn ||| flagsOf (if store.logFull && !s.store.logFull then [.metrology] else []) }
      ret := s.ret.withTotals (s.bodyTotal n), rev := s.rev.wroteTo totalsParts
      met := ⟨s.met.a.map Channel.dropUnassigned, s.met.b.map Channel.dropUnassigned⟩, pw := { s.pw with totalsInvalid := false } } := ⟨_, rfl⟩
    have hinit : (s.takeSlot n).1.initTotals (s.takeSlot n).2 = y.reviewBoth := by
      have hbody : (s.takeSlot n).1.bodyTotal (s.takeSlot n).2.ref.slot = s.bodyTotal n := funext fun m => State.takeSlot_bodyField ..
      rw [State.initTotals_eq, hbody, State.takeSlot_store, State.takeSlot_meterTotal, heq, hy]
      rfl
    rw [hinit] at he
    have hstore := (htakes y (by rw [hy])).others
    have habsent : y.store.absent = s.store.absent := by rw [hstore]
    have hfault : y.store.fault = s.store.fault := by rw [hstore]
    have hswitch : y.store.switchOn = s.store.switchOn := by rw [hstore]
    have hfuel (d : Side) : y.fuelable d = true ↔ s.pw.state = .active ∧ (s.head (saleRole d)).state = .ready
        ∧ s.store.fault = false ∧ (s.ret.applied.get d).isSome = true := by
      have hhead : (y.head (saleRole d)).state = (s.head (saleRole d)).state := by rw [hy]; rfl
      have hactive : y.pw.state = s.pw.state := by rw [hy]
      have htot : y.pw.totalsInvalid = false := by rw [hy]
      have happlied : y.ret.applied = s.ret.applied := by rw [hy]; rfl
      simp only [State.fuelable, State.meets, hhead, hactive, habsent, hfault, htot, happlied, ho.1, Bool.and_eq_true, decide_eq_true_eq,
        Bool.not_eq_true', and_true, true_and, and_assoc]
    have hkeeps (d : Side) : y.keepsReady d := fun hc => by
      have hst : y.fpState d = s.fpState d := by rw [hy]; rfl
      have hf := hready d (hst ▸ hc)
      simp only [State.fuelable, State.meets, ho.1, Bool.and_eq_true, decide_eq_true_eq, Bool.not_eq_true', true_and, and_assoc] at hf
      exact (hfuel d).mpr ⟨hf.1, hf.2.1, hf.2.2.1, hf.2.2.2.2⟩
    have hup := State.reviewBoth_raises hkeeps
    generalize y.reviewBoth = u at he hup
    have hframe := hup.frame
    have hustore : u.store = store := by rw [hframe, hy]
    have hmeter (m : Meter) : y.meter m = (s.meter m).dropUnassigned := by
      obtain ⟨d, p⟩ := m
      rw [hy]
      cases d <;> cases p <;> rfl
    have hmarked : (if store.logFull && !s.store.logFull then [Attn.metrology] else []) = s.store.changeFlags store := by
      have hsame : s.store.absent = store.absent ∧ s.store.fault = store.fault ∧ s.store.switchOn = store.switchOn := by
        have hys : y.store = store := by rw [hy]
        exact hys ▸ ⟨habsent.symm, hfault.symm, hswitch.symm⟩
      rw [StorePort.changeFlags]
      simp only [hsame, true_and]
      cases (store.logFull && !s.store.logFull) <;> rfl
    refine ⟨_, he, ?_, ?_, ?_, ?_, fun d => ?_, fun m hm => ?_, ?_, ?_⟩
    · rw [publish_mem, hframe, hy]
    · have hsums (f : Meter → Nat) : sumTotals f = (f ⟨.a, .p1⟩ + f ⟨.a, .p2⟩ + f ⟨.a, .p3⟩ + f ⟨.b, .p1⟩ + f ⟨.b, .p2⟩ + f ⟨.b, .p3⟩) % 10 ^ 12 := by
        simp [sumTotals, allMeters, Nat.add_assoc]
      have htake := htakes (publish s u) hustore
      rw [hentry, hsums, hsums] at htake
      exact htake
    · rw [publish_ret, hframe, hy]
      rfl
    · rw [publish_pw, hframe, hy]
    · rw [publish_fp, hup.fp, State.raised]
      simp only [hfuel]
      rw [hy]
      rfl
    · rw [publish_meter, hup.met m (by rw [hmeter]; exact hm), hmeter]
      rfl
    · have hst (d : Side) : (publish s u).fpState d = y.raised d := congrArg FuelPoint.state (hup.fp d)
      have hflags := State.changeFlags_fpsStore (s := s) (t := publish s u) (fun d => by rw [publish_rdr, hframe, hy]; rfl)
        (fun r => by rw [publish_head, hframe, hy]; rfl)
      have hsame (d : Side) (st : FpState) : y.stateFlags d st = s.stateFlags d st := by rw [hy]; rfl
      have hport : y.port = { (s.takeSlot n).1.port with attn := s.port.attn ||| flagsOf (s.store.changeFlags store) } := by rw [hy, hmarked]
      rw [publish_port, hup.port, hport, hflags, hst, hst, hsame, hsame, publish_store, hustore]
      refine congrArg (fun a => ({ (s.takeSlot n).1.port with attn := a } : Port)) ?_
      dsimp only
      ac_rfl
    · obtain ⟨fp, met, port, rfl⟩ : ∃ fp met port, u = { y with fp := fp, met := met, port := port } := ⟨_, _, _, hframe⟩
      rw [hy]
      rfl

end Sys2Proof.Machine
end

section
/-! PROOFS. The pages of a store write (R171, R181). -/

namespace Sys2Proof.Machine

/-! ## A review of the prerequisites, whatever they are (R4) -/

/-- What a review of the prerequisites of side `d` can change, and the flags that go with it. -/
structure State.Reviews (s t : State) (d : Side) : Prop where
  frame : t = { s with fp := t.fp, met := t.met, port := t.port }
  port : t.port = { s.port with attn := s.port.attn ||| flagsOf (s.stateFlags d (t.fpState d)) }
  other : t.fp.get d.other = s.fp.get d.other

theorem State.Reviews.stays (s : State) (d : Side) : s.Reviews s d := ⟨rfl, by simp [State.stateFlags], rfl⟩

theorem State.setFpState_reviews (s : State) (d : Side) (st : FpState) : s.Reviews (s.setFpState d st) d := by
  have hframe := s.setFpState_frame d st
  have hfp : (s.setFpState d st).fp = s.fp.set d { s.fp.get d with state := st } := by rw [hframe]
  have hst : (s.setFpState d st).fpState d = st := by rw [State.fpState, hfp, Sides.get_set_same]
  refine ⟨?_, by rw [hst, State.setFpState_flags], by rw [hfp, Sides.get_set_other]⟩
  generalize s.setFpState d st = t at hframe
  obtain ⟨fp, met, port, rfl⟩ : ∃ fp met port, t = { s with fp := fp, met := met, port := port } := ⟨_, _, _, hframe⟩
  rfl

/-- An authorization that a missing prerequisite withdraws (R4, R12). -/
theorem State.withdrawn_reviews {s : State} {d : Side} (h : s.fpState d = .authorized) :
    s.Reviews ((s.endAuth d .authWithdrawn).setFpState d .unavailable) d := by
  obtain ⟨x, hx⟩ : ∃ x, x = s.endAuth d .authWithdrawn := ⟨_, rfl⟩
  have hst : x.fpState d = .authorized := by rw [hx, State.endAuth_fpState, h]
  have hne : x.fpState d ≠ .unavailable := hst ▸ nofun
  have hrev := x.setFpState_reviews d .unavailable
  have hport := State.unavailable_port hne
  have hnew : (x.setFpState d .unavailable).fpState d = .unavailable := by
    rw [State.fpState, x.setFpState_frame d .unavailable, Sides.get_set_same]
  have hflags : flagsOf (s.stateFlags d .unavailable) = (fpFlag d).mask := by simp [State.stateFlags, h]
  have hxframe := State.endAuth_frame s d .authWithdrawn
  rw [← hx] at hxframe ⊢
  have hframe := hrev.frame
  have hother := hrev.other
  generalize x.setFpState d .unavailable = t at hframe hport hnew hother
  refine ⟨?_, ?_, ?_⟩
  · obtain ⟨fp, met, port, rfl⟩ : ∃ fp met port, t = { x with fp := fp, met := met, port := port } := ⟨_, _, _, hframe⟩
    rw [hxframe]
  · rw [hport, hnew, hflags, hxframe]
    exact congrArg (fun a => ({ s.port with attn := a } : Port)) (by rw [BitVec.or_assoc, BitVec.or_self])
  · rw [hother, hxframe]
    exact Sides.get_set_other ..

theorem State.reviewFp_reviews (s : State) (d : Side) : s.Reviews (s.reviewFp d) d := by
  unfold State.reviewFp
  split
  case h_1 => split <;> first | exact s.setFpState_reviews d _ | exact .stays s d
  case h_5 h => split <;> first | exact .stays s d | exact State.withdrawn_reviews h
  case h_6 => exact .stays s d
  all_goals split <;> first | exact .stays s d | exact s.setFpState_reviews d _

/-- What a review of both sides can change, and the flags that go with it. -/
structure State.ReviewsBoth (s t : State) : Prop where
  frame : t = { s with fp := t.fp, met := t.met, port := t.port }
  port : t.port = { s.port with attn := s.port.attn |||
    (flagsOf (s.stateFlags .a (t.fpState .a)) ||| flagsOf (s.stateFlags .b (t.fpState .b))) }

theorem State.reviewBoth_reviews (s : State) : s.ReviewsBoth s.reviewBoth := by
  rw [State.reviewBoth]
  obtain ⟨hxframe, hxport, hxother⟩ := s.reviewFp_reviews .a
  generalize s.reviewFp .a = x at hxframe hxport hxother
  obtain ⟨hframe, hport, hother⟩ := x.reviewFp_reviews .b
  generalize x.reviewFp .b = t at hframe hport hother
  have hb (st : FpState) : x.stateFlags .b st = s.stateFlags .b st := by
    have hfp : x.fpState .b = s.fpState .b := congrArg FuelPoint.state hxother
    rw [State.stateFlags, hfp]
    rfl
  have ha : t.fpState .a = x.fpState .a := congrArg FuelPoint.state hother
  refine ⟨?_, ?_⟩
  · obtain ⟨fp, met, port, rfl⟩ : ∃ fp met port, t = { x with fp := fp, met := met, port := port } := ⟨_, _, _, hframe⟩
    rw [hxframe]
  · rw [hport, hb, hxport, ha]
    exact congrArg (fun a => ({ s.port with attn := a } : Port)) (BitVec.or_assoc ..)

/-! ## The pages (R181) -/

section pages
variable {s : State} {w : StoreWrite} (hs : s.steady) (hw : s.store.write = some w)
include hs hw

theorem exec_storePageDone_good : exec (.storePageDone w.page.bytes) s = .next (publish s (s.pageGood w)) := by
  change execStorePageDone w.page.bytes s = _
  rw [execStorePageDone, event_steady hs]
  simp only [hw, if_true]

theorem exec_storeWrite_bad {c : Instr} {readBack : List Byte}
    (hc : c = .storeCycleTimeout ∨ (c = .storePageDone readBack ∧ readBack ≠ w.page.bytes)) : exec c s = .next (publish s s.writeBad) := by
  rcases hc with rfl | ⟨rfl, hne⟩
  · exact (event_steady hs).trans (by rw [if_pos (by rw [hw]; rfl)])
  · change execStorePageDone readBack s = _
    rw [execStorePageDone, event_steady hs]
    simp only [hw, if_neg hne]

end pages

section parts
variable {s : State} {w : StoreWrite} {o : StoreOrder} {more : List StoreOrder}

theorem State.pageGood_next {p : StorePage} {rest : List StorePage} (hr : w.rest = p :: rest) :
    s.pageGood w = s.updStore (fun x => { x with write := some { w with page := p, rest := rest } }) := by
  unfold State.pageGood
  rw [hr]

theorem State.pageGood_part {q : StorePart} (hr : w.rest = []) (hp : w.part.next = some q) (hl : s.store.list = o :: more) :
    s.pageGood w = s.updStore (fun x => if x.copy = none then { x with write := none } else x.beginPart o q) := by
  unfold State.pageGood
  rw [hr]
  simp only [hp, hl]

theorem State.pageGood_end (hr : w.rest = []) (hp : w.part = .crc) : s.pageGood w = s.writeGood w := by
  unfold State.pageGood
  rw [hr, hp]
  rfl

end parts

/-- The image of a store port with a working copy. -/
theorem StorePort.image_of_copy {x : StorePort} {m : Memory} (h : x.copy = some m) : x.image = m := by rw [StorePort.image, h, Option.getD_some]

/-- Part 2 with no rewrite-all mark: the changed block, or the CRC at once. -/
theorem StorePort.beginPart_block {x : StorePort} {m : Memory} (hc : x.copy = some m) (hr : x.rewriteAll = false) (o : StoreOrder) :
    x.beginPart o .block = { x with
      write := if blockPages m o.block = [] then writeFrom .crc m [crcPage m] else writeFrom .block m (blockPages m o.block) } := by
  have himage := StorePort.image_of_copy hc
  have hpages := StorePort.partPages_block hr o
  rw [himage] at hpages
  have hsame : x.padded .block = x := StorePort.padded_same (.inr hr)
  split
  · rename_i hb
    rw [StorePort.beginPart_empty hsame (hpages.trans hb), himage]
  · rename_i hb
    rw [StorePort.beginPart_pages hsame (hpages ▸ hb), hpages, himage]

/-- Part 2 with the rewrite-all mark: every block, its pad bytes written 0 (R196). -/
theorem StorePort.beginPart_allBlocks {x : StorePort} {m : Memory} (hc : x.copy = some m) (hr : x.rewriteAll = true) (o : StoreOrder) :
    x.beginPart o .block = { x with copy := some (clearPads m), write := writeFrom .block (clearPads m) (pagesAt (clearPads m) 2 182) } := by
  have hpad : x.padded .block = { x with copy := some (clearPads m) } := (if_pos ⟨rfl, hr⟩).trans (by rw [hc]; rfl)
  have hpages : ({ x with copy := some (clearPads m) } : StorePort).partPages o .block = pagesAt (clearPads m) 2 182 :=
    StorePort.partPages_allBlocks (x := { x with copy := some (clearPads m) }) hr o
  rw [StorePort.beginPart_pages hpad (by rw [hpages]; exact pagesAt_ne_nil _ _ (by decide)), hpages]
  rfl

theorem StorePort.beginPart_crc {x : StorePort} {m : Memory} (hc : x.copy = some m) (o : StoreOrder) :
    x.beginPart o .crc = { x with write := writeFrom .crc m [crcPage m] } := by
  have himage := StorePort.image_of_copy hc
  have hpages : x.partPages o .crc = [crcPage x.image] := rfl
  rw [StorePort.beginPart_pages (StorePort.padded_same (p := .crc) (.inl (by decide))) (by rw [hpages]; exact List.cons_ne_nil _ _), hpages, himage]

/-! ### The pad bytes (file 11) -/

theorem Memory.read_writePads {m : Memory} (h : m.wf = true) (a b n : Nat) :
    (m.writeAll b (pad n)).read a = if b ≤ a ∧ a < b + n then 0 else m.read a := by
  have hl : (pad n).length = n := List.length_replicate
  split
  · rename_i hab
    obtain ⟨i, rfl⟩ : ∃ i, a = b + i := ⟨a - b, by omega⟩
    have hi : i < (pad n).length := by omega
    rw [Memory.read_writeAll_in h b i _ hi]
    simp [pad]
  · exact Memory.read_writeAll_out _ _ _ _ (by omega)

theorem foldl_pads {m : Memory} (h : m.wf = true) (l : List Meter) (a : Nat) :
    (l.foldl (fun m x => m.writeAll (meterAddr x + 18) (pad 2)) m).read a =
      if ∃ k ∈ l, a = meterAddr k + 18 ∨ a = meterAddr k + 19 then 0 else m.read a := by
  induction l generalizing m with
  | nil => simp
  | cons k l ih =>
    rw [List.foldl_cons, ih (Memory.writeAll_wf h _ _), Memory.read_writePads h]
    have hk : (meterAddr k + 18 ≤ a ∧ a < meterAddr k + 18 + 2) ↔ (a = meterAddr k + 18 ∨ a = meterAddr k + 19) := by omega
    simp only [hk, List.mem_cons, exists_eq_or_imp]
    by_cases h1 : a = meterAddr k + 18 ∨ a = meterAddr k + 19 <;> by_cases h2 : ∃ x ∈ l, a = meterAddr x + 18 ∨ a = meterAddr x + 19 <;>
      simp [h1, h2]

theorem clearPads_read {m : Memory} (h : m.wf = true) (a : Nat) : (clearPads m).read a =
    if a = 183 ∨ (∃ k ∈ allMeters, a = meterAddr k + 18 ∨ a = meterAddr k + 19) then 0 else m.read a := by
  have hwf : (allMeters.foldl (fun m x => m.writeAll (meterAddr x + 18) (pad 2)) m).wf = true :=
    foldl_wf _ _ h fun _ _ hq => Memory.writeAll_wf hq _ _
  have ha : (settingsAddr + 21 ≤ a ∧ a < settingsAddr + 21 + 1) ↔ a = 183 := by unfold settingsAddr; omega
  rw [clearPads, Memory.read_writePads hwf, foldl_pads h]
  simp only [ha]
  by_cases h1 : a = 183
  · rw [if_pos h1, if_pos (.inl h1)]
  · rw [if_neg h1]
    simp only [h1, false_or]

/-! ## The end of a write (R181) -/

theorem State.nextWrite_congr {s t : State} (hp : t.pw.state = s.pw.state) (hi : t.store.image = s.store.image) (more : List StoreOrder) (b : Bool) :
    t.nextWrite more b = s.nextWrite more b := by
  unfold State.nextWrite
  rw [hp, hi]

/-- The write at the head of the list has ended: its order is answered and the next write begins. -/
theorem State.writeEnded {s u : State} {z : StorePort} {more : List StoreOrder} {r : OrderRef} {code : ResultCode} {detail : Nat} {w : Word16}
    (hu : u = { s with store := z, fp := u.fp, met := u.met, port := { s.port with attn := s.port.attn ||| w } })
    (hwrite : z.write = none) (hlist : z.list = more) (hcopy : z.image = s.store.image) :
    ∃ t, t = (u.complete r code detail).beginWrite
      ∧ t.store = { z with write := s.nextWrite more z.rewriteAll } ∧ t.fp = u.fp ∧ t.met = u.met
      ∧ t.mem = (s.complete r code detail).mem
      ∧ t.port = { s.port with attn := (s.complete r code detail).port.attn ||| w }
      ∧ t = { s with store := t.store, fp := t.fp, met := t.met, mem := t.mem, port := t.port } := by
  have htold : u.Told s w := ⟨by rw [hu], by rw [hu], by rw [hu]⟩
  have hdone := htold.complete r code detail
  have honly := s.complete_onlyTold r code detail
  have hframe := u.complete_eq r code detail
  generalize u.complete r code detail = v at hdone hframe ⊢
  generalize s.complete r code detail = x at hdone honly ⊢
  have hstore : v.store = z := by rw [hframe, hu]
  have hpw : v.pw = s.pw := by rw [hframe, hu]
  have hxport : x.port = { s.port with attn := x.port.attn } := by rw [honly.frame]
  have hnext : v.nextWrite v.store.list v.store.rewriteAll = s.nextWrite more z.rewriteAll := by
    rw [hstore, hlist]
    exact State.nextWrite_congr (by rw [hpw]) (by rw [hstore, hcopy]) _ _
  refine ⟨_, rfl, ?_⟩
  rw [State.beginWrite_next (by rw [hstore, hwrite]), hnext, hstore]
  refine ⟨rfl, by rw [hframe], by rw [hframe], hdone.mem, ?_, ?_⟩
  · refine hdone.port.trans ?_
    rw [hxport]
  · obtain ⟨mem, port, rfl⟩ : ∃ mem port, v = { u with mem := mem, port := port } := ⟨_, _, hframe⟩
    rw [hu]

/-- Settles O49. -/
theorem storePagesEndInACompletion : Obligations.StorePagesEndInACompletion := by
  intro s w o more hs hw hl
  have hgood := exec_storePageDone_good hs hw
  refine ⟨fun p rest hr => ?_, fun hr hp => ⟨fun hc => ?_, fun m hc => ⟨fun hpart hall => ?_, fun hpart hall hwf => ?_, fun hpart => ?_⟩⟩,
    fun hp hr => ?_, fun c readBack hc => ?_⟩
  · rw [State.pageGood_next hr] at hgood
    exact ⟨_, hgood, rfl⟩
  · obtain ⟨q, hq⟩ : ∃ q, w.part.next = some q := by
      revert hp
      cases w.part <;> simp [StorePart.next]
    rw [State.pageGood_part hr hq hl, State.updStore, if_pos hc] at hgood
    exact ⟨_, hgood, rfl⟩
  · rw [State.pageGood_part (q := .block) hr (by rw [hpart]; rfl) hl, State.updStore, if_neg (by rw [hc]; exact nofun),
      StorePort.beginPart_block hc hall] at hgood
    exact ⟨_, hgood, rfl⟩
  · rw [State.pageGood_part (q := .block) hr (by rw [hpart]; rfl) hl, State.updStore, if_neg (by rw [hc]; exact nofun),
      StorePort.beginPart_allBlocks hc hall] at hgood
    exact ⟨clearPads m, clearPads_read hwf, _, hgood, rfl⟩
  · rw [State.pageGood_part (q := .crc) hr (by rw [hpart]; rfl) hl, State.updStore, if_neg (by rw [hc]; exact nofun),
      StorePort.beginPart_crc hc] at hgood
    exact ⟨_, hgood, rfl⟩
  · rw [State.pageGood_end hr hp] at hgood
    obtain ⟨z, hz⟩ : ∃ z : StorePort, z = { s.store with write := none, list := more, refCrc := w.crc, fault := false, rewriteAll := false } :=
      ⟨_, rfl⟩
    obtain ⟨y, hy⟩ : ∃ y : State, y = { s with
      store := z, port := { s.port with attn := s.port.attn ||| flagsOf (if s.store.fault then [.metrology] else []) } } := ⟨_, rfl⟩
    have hwrite : s.writeGood w = ((y.reviewBoth).complete o.ref .ok o.event).beginWrite := by
      unfold State.writeGood
      simp only [hl, State.attnIf_flags, hy, hz]
      rfl
    obtain ⟨hrframe, hrport⟩ := y.reviewBoth_reviews
    generalize y.reviewBoth = u at hwrite hrframe hrport
    have hflags (d : Side) (st : FpState) : y.stateFlags d st = s.stateFlags d st := by rw [hy]; rfl
    obtain ⟨t, ht, hstore, hfp, hmet, hmem, hport, hframe⟩ := State.writeEnded (s := s) (u := u) (more := more) (r := o.ref) (code := .ok)
      (detail := o.event) (z := z) (w := flagsOf (if s.store.fault then [.metrology] else []) |||
        (flagsOf (y.stateFlags .a (u.fpState .a)) ||| flagsOf (y.stateFlags .b (u.fpState .b)))) (by
      have hp : u.port = { s.port with attn := s.port.attn ||| (flagsOf (if s.store.fault then [.metrology] else []) |||
          (flagsOf (y.stateFlags .a (u.fpState .a)) ||| flagsOf (y.stateFlags .b (u.fpState .b)))) } := by
        have hyport : y.port = { s.port with attn := s.port.attn ||| flagsOf (if s.store.fault then [.metrology] else []) } := by rw [hy]
        rw [hrport, hyport]
        exact congrArg (fun a => ({ s.port with attn := a } : Port)) (BitVec.or_assoc ..)
      rw [← hp]
      obtain ⟨fp, met, port, rfl⟩ : ∃ fp met port, u = { y with fp := fp, met := met, port := port } := ⟨_, _, _, hrframe⟩
      rw [hy]) (by rw [hz]) (by rw [hz]) (by rw [hz]; rfl)
    rw [hwrite, ← ht] at hgood
    have hst (d : Side) : (publish s t).fpState d = u.fpState d := by rw [publish_fpState, State.fpState, hfp]; rfl
    have hchange := State.changeFlags_fpsStore (s := s) (t := publish s t) (fun d => by rw [publish_rdr, hframe])
      (fun r => by rw [publish_head, hframe]; rfl)
    have hmark : s.store.changeFlags (publish s t).store = if s.store.fault then [.metrology] else [] := by
      rw [publish_store, hstore, hz, StorePort.changeFlags]
      cases s.store.fault <;> simp
    refine ⟨_, hgood, by rw [publish_store, hstore, hz], hmem, ?_, ?_⟩
    · rw [publish_port, hport, hchange, hst, hst, hmark, hflags, hflags]
      exact congrArg (fun a => ({ s.port with attn := (s.complete o.ref .ok o.event).port.attn ||| a } : Port)) (BitVec.or_comm ..)
    · obtain ⟨store, fp, met, mem, port, rfl⟩ : ∃ store fp met mem port, t = { s with store := store, fp := fp, met := met, mem := mem, port := port } :=
        ⟨_, _, _, _, _, hframe⟩
      rfl
  · have hbad := exec_storeWrite_bad hs hw hc
    obtain ⟨z, hz⟩ : ∃ z : StorePort, z = { s.store with write := none, list := more, rewriteAll := true } := ⟨_, rfl⟩
    have hwrite : s.writeBad = (({ s with store := z, port := { s.port with attn := s.port.attn ||| Attn.metrology.mask } } : State).complete
        o.ref .unavailable 0x108).beginWrite := by
      unfold State.writeBad
      simp only [hl, hz]
      rfl
    obtain ⟨t, ht, hstore, hfp, hmet, hmem, hport, hframe⟩ := State.writeEnded (s := s) (u := { s with
      store := z, port := { s.port with attn := s.port.attn ||| Attn.metrology.mask } }) (more := more) (r := o.ref) (code := .unavailable)
      (detail := 0x108) (z := z) (w := Attn.metrology.mask) rfl (by rw [hz]) (by rw [hz]) (by rw [hz]; rfl)
    rw [hwrite, ← ht] at hbad
    refine ⟨_, hbad, by rw [publish_store, hstore, hz], hmem, by rw [publish_port, hport, flagsOf_one], ?_⟩
    rw [hfp, hmet] at hframe
    obtain ⟨store, mem, port, rfl⟩ : ∃ store mem port, t = { s with store := store, mem := mem, port := port } := ⟨_, _, _, hframe⟩
    rfl

end Sys2Proof.Machine
end

section
/-! PROOFS. The readers go off together (R120, R138). -/

namespace Sys2Proof.Machine

/-- A change of a reader's state of which neither an authorization nor a sale hears (R117). -/
theorem State.setReaderState_unauthorized {s : State} {d : Side} {st : ReaderState} (hst : (s.rdr.get d).state ≠ st) (ht : st ≠ .tampered)
    (ha : s.fpState d ≠ .authorized) : s.setReaderState d st = { s with
      rdr := s.rdr.set d { s.rdr.get d with state := st, changed := s.rtc }
      port := { s.port with attn := s.port.attn ||| (readerFlag d).mask } } := by
  obtain ⟨y, hy⟩ : ∃ y : State, y = (s.updReader d (fun r => { r with state := st, changed := s.rtc })).attn (readerFlag d) := ⟨_, rfl⟩
  have hleft : y.readerLeft d = y := State.readerLeft_stays fun hc => ha (by rw [hy] at hc; exact hc.1)
  unfold State.setReaderState
  dsimp only
  rw [if_neg hst, ← hy, hleft, ite_self, if_neg ht, hy]
  rfl

theorem State.Told.sendsDropped {x y : State} {w : Word16} (h : x.Told y w) {d : Side} (hr : x.rdr.get d = y.rdr.get d) (c : OffCause) :
    (x.sendsDropped d c).Told (y.sendsDropped d c) w := by
  have hs : x.supplyOn d = y.supplyOn d := by rw [State.supplyOn, hr]; rfl
  unfold State.sendsDropped
  rw [hs, hr]
  split
  · exact h.foldl _ _ fun a h => h.complete ..
  · exact h

theorem State.sendsDropped_onlyTold (s : State) (d : Side) (c : OffCause) : s.OnlyTold (s.sendsDropped d c) := by
  unfold State.sendsDropped
  split
  · exact State.foldl_onlyTold _ _ _ fun _ _ => State.complete_onlyTold ..
  · exact .refl s

/-- The reader of side `d` is OFF after the step from `s` to `t`, its send list completed where its supply was on. -/
structure State.ReaderOut (s t : State) (d : Side) (c : OffCause) : Prop where
  told : t.Told (s.sendsDropped d c) (flagsOf (if (s.rdr.get d).state = .off then [] else [readerFlag d]))
  off : (t.rdr.get d).state = .off
  other : t.rdr.get d.other = s.rdr.get d.other
  frame : t = { s with rdr := t.rdr, mem := t.mem, port := t.port }

theorem State.ReaderOut.upd {s t : State} {d : Side} {c : OffCause} (h : s.ReaderOut t d c) (f : Reader → Reader)
    (hf : ∀ r, (f r).state = r.state) : s.ReaderOut (t.updReader d f) d c where
  told := h.told.congr rfl rfl rfl
  off := by rw [State.updReader_get, hf, h.off]
  other := by rw [State.updReader, Sides.get_set_other, h.other]
  frame := by
    rw [State.updReader]
    have hframe := h.frame
    obtain ⟨rdr, mem, port, rfl⟩ : ∃ rdr mem port, t = { s with rdr := rdr, mem := mem, port := port } := ⟨_, _, _, hframe⟩
    rfl

/-- What a reader that goes off leaves, its send list completed. -/
theorem State.ReaderOut.of_eq {s t : State} {d : Side} {c : OffCause} {q : Reader} (hst : (s.rdr.get d).state ≠ .off) (hq : q.state = .off)
    (h : t = { s with rdr := s.rdr.set d q, mem := (s.sendsDropped d c).mem
                      port := { (s.sendsDropped d c).port with attn := (s.sendsDropped d c).port.attn ||| (readerFlag d).mask } }) :
    s.ReaderOut t d c where
  told := by
    rw [if_neg hst, flagsOf_one, h]
    exact ⟨rfl, by rw [(s.sendsDropped_onlyTold d c).frame], rfl⟩
  off := by rw [h, Sides.get_set_same, hq]
  other := by rw [h, Sides.get_set_other]
  frame := by rw [h]

theorem State.readerOff_out {s : State} {d : Side} (hst : (s.rdr.get d).state ≠ .off) (ha : s.fpState d ≠ .authorized) (c : OffCause) :
    s.ReaderOut (s.readerOff d c) d c := by
  unfold State.readerOff
  by_cases hon : s.supplyOn d = true
  · have hcut := State.cutReader_eq (s := s) (d := d) c .off (fun r => r) hon rfl
    have hcutState : ((s.supplyGone d c (s.rdr.get d)).rdr.get d).state ≠ .off := by
      change ((s.rdr.set d _).get d).state ≠ _
      rw [Sides.get_set_same]
      exact hst
    rw [State.updReader_id] at hcut
    rw [if_pos hon, hcut, State.setReaderState_unauthorized hcutState (by decide) ha]
    refine .of_eq (q := { (s.rdr.get d).cutOff c with state := .off, changed := s.rtc }) hst rfl ?_
    simp only [State.supplyGone, Sides.get_set_same, Sides.set_set]
  · have hsame : ((s.updReader d fun r => { r with powerOff := none }).rdr.get d).state ≠ .off := by
      rw [State.updReader_get]
      exact hst
    rw [if_neg hon, State.setReaderState_unauthorized hsame (by decide) ha]
    refine .of_eq (q := { s.rdr.get d with powerOff := none, state := .off, changed := s.rtc }) hst rfl ?_
    rw [State.sendsDropped, if_neg hon]
    simp only [State.updReader, Sides.get_set_same, Sides.set_set]

theorem State.readerOut_off {s : State} {d : Side} (h : (s.rdr.get d).state = .off) (c : OffCause) : s.ReaderOut s d c where
  told := by
    have hon : s.supplyOn d ≠ true := by rw [State.supplyOn, h]; decide
    rw [if_pos h, State.sendsDropped, if_neg hon]
    exact .refl s
  off := h
  other := rfl
  frame := rfl

/-- The reader goes off at a standby entry, where it is not (R138). -/
theorem State.readerOut_standby {s : State} {d : Side} (ha : s.fpState d ≠ .authorized) (c : OffCause) :
    s.ReaderOut (if (s.rdr.get d).state = .off then s else s.readerOff d c) d c := by
  split
  · exact State.readerOut_off ‹_› c
  · exact State.readerOff_out ‹_› ha c

theorem State.readerOffFor_out {s : State} {d : Side} (ha : s.fpState d ≠ .authorized) (c : OffCause) :
    s.ReaderOut (s.readerOffFor d c) d c := by
  unfold State.readerOffFor
  split
  · exact State.readerOut_off ‹_› c
  · exact (State.readerOff_out ‹_› ha c).upd _ fun _ => rfl

theorem State.readerOffFor_cause {s : State} {d : Side} (hst : (s.rdr.get d).state ≠ .off) (c : OffCause) :
    ((s.readerOffFor d c).rdr.get d).cause = some c := by
  rw [State.readerOffFor, if_neg hst, State.updReader_get]

theorem State.Told.trans {x y z : State} {v w : Word16} (h : x.Told y v) (g : y.Told z w) : x.Told z (w ||| v) where
  mem := h.mem.trans g.mem
  rtc := h.rtc.trans g.rtc
  port := by rw [h.port, g.port, BitVec.or_assoc]

/-- Both readers are OFF after the step from `s` to `t`, the orders of their send lists completed (R120, R138). -/
structure State.ReadersOut (s t : State) (c : OffCause) : Prop where
  told : t.Told ((s.sendsDropped .a c).sendsDropped .b c) (flagsOf
    ((if (s.rdr.get .a).state = .off then [] else [readerFlag .a]) ++ (if (s.rdr.get .b).state = .off then [] else [readerFlag .b])))
  off : ∀ d, (t.rdr.get d).state = .off
  frame : t = { s with rdr := t.rdr, mem := t.mem, port := t.port }

theorem State.ReaderOut.both {s t u : State} {c : OffCause} (h : s.ReaderOut t .a c) (g : t.ReaderOut u .b c) : s.ReadersOut u c where
  told := by
    have hb : t.rdr.get .b = s.rdr.get .b := h.other
    have hsends : (s.sendsDropped .a c).rdr.get .b = s.rdr.get .b := by rw [(s.sendsDropped_onlyTold .a c).frame]
    have htold := g.told.trans (h.told.sendsDropped (d := .b) (hb.trans hsends.symm) c)
    rwa [hb, ← flagsOf_append] at htold
  off d := by
    cases d
    · exact (congrArg Reader.state (g.other : u.rdr.get .a = t.rdr.get .a)).trans h.off
    · exact g.off
  frame := by
    have hframe := g.frame
    obtain ⟨rdr, mem, port, rfl⟩ : ∃ rdr mem port, u = { t with rdr := rdr, mem := mem, port := port } := ⟨_, _, _, hframe⟩
    rw [h.frame]

end Sys2Proof.Machine
end

section
/-! PROOFS. STANDBY: its tests, the shutdown and the entry to STANDBY (R111, R120, R138, R159, R160). -/

namespace Sys2Proof.Machine

/-- The state of a fueling point without a sale as the device stops (R4, R76). -/
def State.outState (s : State) (d : Side) : FpState := if s.fpState d = .locked then .locked else .unavailable

/-- A fueling point that can no longer go on and has neither a sale nor an authorization (R4). -/
theorem State.reviewFp_out {s : State} {d : Side} (hf : s.fuelable d = false) (hs : s.inSale d = false) (ha : s.fpState d ≠ .authorized) :
    s.reviewFp d = s.setFpState d (s.outState d) := by
  have hstay : s.setFpState d (s.fpState d) = s := if_pos rfl
  unfold State.reviewFp State.outState
  unfold State.inSale at hs
  rw [hf]
  cases hst : s.fpState d
  case locked => exact (hst ▸ hstay).symm
  case unavailable => exact (hst ▸ hstay).symm
  case authorized => exact absurd hst ha
  case idle | calling | finished => rfl
  all_goals
    rw [hst] at hs
    cases hs

theorem State.setFpState_state (s : State) (d : Side) (st : FpState) : (s.setFpState d st).fpState d = st := by
  rw [State.fpState, s.setFpState_frame d st, Sides.get_set_same]

theorem State.setFpState_state_other (s : State) (d : Side) (st : FpState) : (s.setFpState d st).fpState d.other = s.fpState d.other := by
  rw [State.fpState, s.setFpState_frame d st, Sides.get_set_other]
  rfl

theorem State.not_fuelable {s : State} (h : s.pw.state ≠ .active) (d : Side) : s.fuelable d = false := by
  have hm : s.meets d .active = false := by simp [State.meets, h]
  rw [State.fuelable, hm]
  rfl

theorem State.reviewBoth_out {s : State} (h : s.pw.state ≠ .active) (hb : ∀ d, s.inSale d = false ∧ s.fpState d ≠ .authorized) (d : Side) :
    s.reviewBoth.fpState d = s.outState d := by
  obtain ⟨hsa, haa⟩ := hb .a
  obtain ⟨hsb, hab⟩ := hb .b
  rw [State.reviewBoth, State.reviewFp_out (State.not_fuelable h .a) hsa haa]
  obtain ⟨x, hx⟩ : ∃ x, x = s.setFpState .a (s.outState .a) := ⟨_, rfl⟩
  have hown : x.fpState .a = s.outState .a := by rw [hx, State.setFpState_state]
  have hother : x.fpState .b = s.fpState .b := by rw [hx]; exact s.setFpState_state_other .a _
  have hpw : x.pw = s.pw := by rw [hx, s.setFpState_frame]
  rw [← hx, State.reviewFp_out (State.not_fuelable (hpw ▸ h) .b) (by rw [State.inSale, hother]; exact hsb) (by rw [hother]; exact hab)]
  cases d
  · exact (x.setFpState_state_other .b _).trans hown
  · rw [State.setFpState_state, State.outState, hother]
    rfl

/-! ## The flags of a device that stops (R4, R117, R193) -/

/-- The flags of changes that concern fueling points and readers alone, each reader OFF in the end. -/
theorem State.changeFlags_stops {s t : State} (hr : ∀ d, (t.rdr.get d).state = .off) (hh : ∀ r, (s.head r).state = (t.head r).state)
    (hst : s.store.changeFlags t.store = []) : flagsOf (s.changeFlags t) =
      flagsOf (s.stateFlags .a (t.fpState .a)) ||| flagsOf (s.stateFlags .b (t.fpState .b)) ||| flagsOf
        ((if (s.rdr.get .a).state = .off then [] else [readerFlag .a]) ++ (if (s.rdr.get .b).state = .off then [] else [readerFlag .b])) := by
  have hhead : allRoles.all (fun r => decide ((s.head r).state = (t.head r).state)) = true :=
    List.all_eq_true.mpr fun r _ => decide_eq_true (hh r)
  unfold StorePort.changeFlags at hst
  unfold State.changeFlags State.stateFlags
  rw [hr .a, hr .b, if_pos hhead, hst]
  simp only [List.append_nil, flagsOf_append]
  rw [flagsOf_or]
  simp only [readerFlag, fpFlag]
  ac_rfl

/-! ## The shutdown (R76, R111, R113, R138, R160) -/

theorem State.closeAll_frame (s : State) : s.closeAll = { s with vlv := s.closeAll.vlv } := by
  unfold State.closeAll State.stopBlend State.closeSide State.updBlend State.updValveSide
  rfl

theorem State.shutDrives_frame {s : State} (h : s.pw.state ≠ .shuttingDown) : s.shutDrives = { s with
    pw := { s.pw with state := .shuttingDown }, port := { s.port with attn := s.port.attn ||| Attn.power.mask }
    vlv := s.shutDrives.vlv, mot := { recs := s.mot.recs.map MotorRec.stopped, queue := [] } } := by
  obtain ⟨x, hx⟩ : ∃ x, x = s.setPowerState .shuttingDown := ⟨_, rfl⟩
  have hset : x = { s with
    pw := { s.pw with state := .shuttingDown }, port := { s.port with attn := s.port.attn ||| Attn.power.mask } } := hx.trans (if_neg h)
  have hf := x.closeAll_frame
  have hv : s.shutDrives.vlv = x.closeAll.vlv := by rw [hx]; rfl
  have hstop : s.shutDrives = x.closeAll.stopDrives := by rw [hx]; rfl
  rw [hv, hstop]
  generalize x.closeAll = y at hf
  rw [hf, hset]
  rfl

theorem State.Told.messagesDropped {x y : State} {w : Word16} (h : x.Told y w) (hl : x.disp.lines = y.disp.lines) :
    x.messagesDropped.Told y.messagesDropped w := by
  unfold State.messagesDropped
  rw [hl]
  exact (h.completeOpt ..).completeOpt ..

/-- What a shutdown leaves at its start, no side having a sale in progress or an authorization. -/
structure State.ShutsDown (s t : State) : Prop where
  told : t.Told ((s.sendsDropped .a .standby).sendsDropped .b .standby).messagesDropped (flagsOf (.power :: s.changeFlags t))
  pw : t.pw = { s.pw with state := .shuttingDown, blanked := false }
  valve : ∀ v, t.valve v = .shut
  mot : t.mot = { recs := s.mot.recs.map MotorRec.stopped, queue := [] }
  fps : ∀ d, t.fpState d = s.outState d
  off : ∀ d, (t.rdr.get d).state = .off
  store : t.store = { s.store with reloadDue := false }
  call : t.disp.call.map GeneralCall.kind = some .blank
  disp : t.disp = { s.disp with lines := ⟨.cleared, .cleared⟩, call := t.disp.call, bus := t.disp.bus, wire := t.disp.wire }
  wire : t.disp.call = some ⟨.blank, true⟩ → t.disp.wire = CallKind.blank.wire
  frame : t = { s with pw := t.pw, vlv := t.vlv, mot := t.mot, fp := t.fp, met := t.met, rdr := t.rdr, store := t.store,
                       disp := t.disp, mem := t.mem, port := t.port }

/-- The BLANK that is asked for, whether it starts at once or waits (R113; log 14). -/
theorem Display.tryCall_asks (x : Display) (k : CallKind) (h : x.call = some ⟨k, false⟩) :
    x.tryCall.call.map GeneralCall.kind = some k ∧ (x.tryCall.call = some ⟨k, true⟩ → x.tryCall.wire = k.wire) := by
  rw [Display.tryCall, h]
  dsimp only
  split
  · exact ⟨rfl, fun _ => rfl⟩
  · exact ⟨by rw [h]; rfl, fun hc => by rw [h] at hc; cases hc⟩

/-- A reader at a standby entry (R138). -/
def State.readerStop (s : State) (d : Side) : State := if (s.rdr.get d).state = .off then s else s.readerOff d .standby

theorem State.readerStop_out {s : State} {d : Side} (ha : s.fpState d ≠ .authorized) : s.ReaderOut (s.readerStop d) d .standby :=
  State.readerOut_standby ha .standby

/-- The device as the shutdown has stopped its drives and its readers. -/
def State.shutOff (s : State) : State := (s.shutDrives.reviewBoth.readerStop .a).readerStop .b

theorem State.beginShutdown_eq (s : State) : s.beginShutdown = ({ s.shutOff with
      store := { s.shutOff.store with reloadDue := false }, pw := { s.shutOff.pw with blanked := false } } : State).dropMessages.askCall .blank := rfl

/-- The drives and the readers at the start of a shutdown. -/
structure State.ShutsOff (s t : State) : Prop where
  told : t.Told ((s.sendsDropped .a .standby).sendsDropped .b .standby) (Attn.power.mask ||| (flagsOf (s.stateFlags .a (t.fpState .a))
    ||| flagsOf (s.stateFlags .b (t.fpState .b)) ||| flagsOf
      ((if (s.rdr.get .a).state = .off then [] else [readerFlag .a]) ++ (if (s.rdr.get .b).state = .off then [] else [readerFlag .b]))))
  fps : ∀ d, t.fpState d = s.outState d
  off : ∀ d, (t.rdr.get d).state = .off
  frame : t = { s.shutDrives with fp := t.fp, met := t.met, rdr := t.rdr, mem := t.mem, port := t.port }

theorem State.shutOff_stops {s : State} (h : s.pw.state = .active) (hb : ∀ d, s.inSale d = false ∧ s.fpState d ≠ .authorized) :
    s.ShutsOff s.shutOff := by
  unfold State.shutOff
  obtain ⟨x, hxs⟩ : ∃ x, x = s.shutDrives := ⟨_, rfl⟩
  have hx := hxs.trans (s.shutDrives_frame (h ▸ nofun))
  rw [hxs] at hx
  rw [← hxs] at hx ⊢
  have hfp (d : Side) : x.fpState d = s.fpState d := by rw [hx]; rfl
  have htold : x.Told s Attn.power.mask := by rw [hx]; exact ⟨rfl, rfl, rfl⟩
  have hrdr : x.rdr = s.rdr := by rw [hx]
  have hout := State.reviewBoth_out (s := x) (by rw [hx]; nofun) (fun d => by rw [State.inSale, hfp]; exact hb d)
  obtain ⟨hrframe, hrport⟩ := x.reviewBoth_reviews
  clear hx
  generalize x.reviewBoth = r at hout hrframe hrport ⊢
  have hfps (d : Side) : r.fpState d = s.outState d := by rw [hout, State.outState, hfp]; rfl
  have hna (d : Side) : r.fpState d ≠ .authorized := by rw [hfps, State.outState]; split <;> nofun
  have hrtold : r.Told x (flagsOf (x.stateFlags .a (r.fpState .a)) ||| flagsOf (x.stateFlags .b (r.fpState .b))) := by
    refine ⟨by rw [hrframe], by rw [hrframe], hrport⟩
  have hrs : r.rdr = s.rdr := by rw [hrframe]; exact hrdr
  have houta := State.readerStop_out (hna .a)
  generalize r.readerStop .a = y at houta ⊢
  have hyb : y.fpState .b ≠ .authorized := by rw [houta.frame]; exact hna .b
  have hboth := houta.both (State.readerStop_out hyb)
  generalize y.readerStop .b = t at hboth ⊢
  have htfp (d : Side) : t.fpState d = r.fpState d := by rw [hboth.frame]; rfl
  have hflags (d : Side) (st : FpState) : x.stateFlags d st = s.stateFlags d st := by rw [State.stateFlags, hfp]; rfl
  refine ⟨?_, fun d => by rw [htfp, hfps], hboth.off, ?_⟩
  · have hall := hrtold.trans htold
    have hsends := (hall.sendsDropped (d := .a) (by rw [hrs]) .standby)
    have hra : (r.sendsDropped .a .standby).rdr = r.rdr := by rw [(r.sendsDropped_onlyTold .a _).frame]
    have hsa : (s.sendsDropped .a .standby).rdr = s.rdr := by rw [(s.sendsDropped_onlyTold .a _).frame]
    have hend := hboth.told.trans (hsends.sendsDropped (d := .b) (by rw [hra, hsa, hrs]) .standby)
    rw [hrs, hflags, hflags] at hend
    rw [htfp, htfp, ← BitVec.or_assoc]
    exact hend
  · have hframe := hboth.frame
    obtain ⟨rdr, mem, port, rfl⟩ : ∃ rdr mem port, t = { r with rdr := rdr, mem := mem, port := port } := ⟨_, _, _, hframe⟩
    rw [hrframe, ← hxs]

theorem State.beginShutdown_stops {s : State} (h : s.pw.state = .active) (hb : ∀ d, s.inSale d = false ∧ s.fpState d ≠ .authorized) :
    s.ShutsDown s.beginShutdown := by
  rw [State.beginShutdown_eq]
  obtain ⟨htold, hfps, hoff, hframe⟩ := State.shutOff_stops h hb
  generalize s.shutOff = x at htold hfps hoff hframe ⊢
  have hdrives := s.shutDrives_frame (h ▸ nofun)
  have hvalve := s.shutDrives_valve
  generalize s.shutDrives = y at hframe hdrives hvalve
  obtain ⟨z, hz⟩ : ∃ z : State, z = { x with store := { x.store with reloadDue := false }, pw := { x.pw with blanked := false } } := ⟨_, rfl⟩
  rw [← hz]
  obtain ⟨u, hu⟩ : ∃ u, u = z.messagesDropped := ⟨_, rfl⟩
  have hlines : z.disp.lines = ((s.sendsDropped .a .standby).sendsDropped .b .standby).disp.lines := by
    rw [((s.sendsDropped .a .standby).sendsDropped_onlyTold .b _).frame, (s.sendsDropped_onlyTold .a _).frame, hz, hframe, hdrives]
  have hutold := (htold.congr (z := z) (by rw [hz]) (by rw [hz]) (by rw [hz])).messagesDropped hlines
  have huframe := z.messagesDropped_onlyTold.frame
  rw [← hu] at hutold huframe
  rw [State.dropMessages_eq, ← hu]
  obtain ⟨q, hq⟩ : ∃ q : Display, q = { z.disp with lines := ⟨.cleared, .cleared⟩, call := some ⟨.blank, false⟩ } := ⟨_, rfl⟩
  have hask : ({ u with disp := { z.disp with lines := ⟨.cleared, .cleared⟩ } } : State).askCall .blank = { u with disp := q.tryCall } := by
    rw [hq]
    rfl
  obtain ⟨hkind, hwire⟩ := q.tryCall_asks .blank (by rw [hq])
  have hqframe := q.tryCall_frame
  rw [hask]
  generalize q.tryCall = w at hkind hwire hqframe
  have hzdisp : z.disp = s.disp := by rw [hz, hframe, hdrives]
  have hdisp : w = { s.disp with lines := ⟨.cleared, .cleared⟩, call := w.call, bus := w.bus, wire := w.wire } := by
    rw [← hzdisp]
    conv_lhs => rw [hqframe, hq]
  have hflags : flagsOf (.power :: s.changeFlags { u with disp := w }) = Attn.power.mask ||| (flagsOf (s.stateFlags .a (x.fpState .a))
      ||| flagsOf (s.stateFlags .b (x.fpState .b)) ||| flagsOf
        ((if (s.rdr.get .a).state = .off then [] else [readerFlag .a]) ++ (if (s.rdr.get .b).state = .off then [] else [readerFlag .b]))) := by
    have hfp (d : Side) : State.fpState { u with disp := w } d = x.fpState d := by rw [huframe, hz]; rfl
    rw [flagsOf_cons, State.changeFlags_stops (t := { u with disp := w }) ?_ ?_ ?_, hfp, hfp]
    · intro d
      rw [huframe, hz]
      exact hoff d
    · intro r
      change (s.disp.heads.get r).state = (w.heads.get r).state
      rw [hdisp]
    · rw [huframe, hz, hframe, hdrives]
      simp [StorePort.changeFlags]
  refine ⟨?_, ?_, fun v => ?_, ?_, fun d => ?_, fun d => ?_, ?_, hkind, hdisp, hwire, ?_⟩
  · rw [hflags]
    exact hutold.congr rfl rfl rfl
  · rw [huframe, hz, hframe, hdrives]
  · rw [← hvalve v, huframe, hz, hframe]
    rfl
  · rw [huframe, hz, hframe, hdrives]
  · rw [← hfps d, huframe, hz]
    rfl
  · rw [huframe, hz]
    exact hoff d
  · rw [huframe, hz, hframe, hdrives]
  · rw [huframe, hz, hframe, hdrives]

/-! ## The order and its tests (R159) -/

/-- The end of a shutdown: what stands as STANDBY is entered, the order completed (R160). -/
def State.standbyEntered (s : State) : State :=
  { s.disableDrives.stopDecoding with
    store := { s.store with check := none, reloading := false, reloadDue := false }
    pw := { s.pw with state := .standby, osc := false, pll := false, drives := false, decoding := false, standbyOrder := none, wakeRequest := none }
    port := { s.port with attn := s.port.attn ||| Attn.power.mask } }

theorem State.enterStandby_eq {s : State} (h : s.pw.state = .shuttingDown) (hw : s.pw.wakeRequest = none) :
    s.enterStandby = (s.standbyEntered.completeOpt s.pw.standbyOrder .ok 0).updPort (fun p => { p with posts := [], asleep := !p.awake }) := by
  have hdrives := s.disableDrives_frame
  unfold State.standbyEntered State.enterStandby
  generalize s.disableDrives = z at hdrives ⊢
  obtain ⟨vlv, rfl⟩ : ∃ vlv, z = { s with
    pw := { s.pw with drives := false }, vlv := vlv, mot := { recs := s.mot.recs.map MotorRec.stopped, queue := [] } } := ⟨_, hdrives⟩
  clear hdrives
  dsimp only
  rw [hw]
  dsimp only
  congr 2
  rw [State.setPowerState, if_neg (by rw [State.updStore_pw]; exact h ▸ nofun)]
  rfl

theorem sideStateDetail_at (d : Side) (st : FpState) : sideStateDetail d st = 0x1000000 * sideCode d + 0x100 + st.code :=
  (Nat.add_assoc ..).symm

/-- Settles O52: a test that fails, the start of the shutdown, and its end. -/
theorem standbyIsTestedAndEntered : Obligations.StandbyIsTestedAndEntered := by
  intro s
  refine ⟨fun n h => ?_, fun r hs hst hbl hl hw hr => ?_⟩
  · intro wake good busy answered
    have he : exec .standby s = .next (publish s ((s.takeSlot n).1.orderStandby (s.takeSlot n).2)) := h.plainEvent State.orderStandby
    obtain ⟨x, hx⟩ : ∃ x, x = (s.takeSlot n).1 := ⟨_, rfl⟩
    have hwake : x.bodyField (s.takeSlot n).2.ref.slot 0 4 = wake := by rw [hx, State.takeSlot_ref, State.takeSlot_bodyField]
    have hpw : x.pw = s.pw := by rw [hx]; rfl
    have hfp (d : Side) : x.fpState d = s.fpState d := by rw [hx]; rfl
    have hrtc : x.rtc = s.rtc := by rw [hx]; rfl
    have hgood : good ↔ ¬ (wake ≠ 0 ∧ wake ≤ x.rtc.toNat) := by
      rw [hrtc]
      exact ⟨fun hg hn => hg.elim hn.1 fun hlt => absurd hn.2 (by omega), fun hn => by
        by_cases h0 : wake = 0
        · exact .inl h0
        · exact .inr (by by_contra hc; exact hn ⟨h0, by omega⟩)⟩
    have hbusy (d : Side) : busy d ↔ (x.inSale d || decide (x.fpState d = .authorized)) = true := by
      rw [State.inSale, hfp]
      simp [busy, State.inSale]
    have hturned {code : ResultCode} {detail : Nat} (ht : x.orderStandby (s.takeSlot n).2 = x.complete (s.takeSlot n).2.ref code detail) :
        answered code detail := by
      refine h.turnedAway (he.trans ?_)
      rw [← hx, ht]
    rw [State.orderStandby] at hturned
    rw [hwake] at hturned
    refine ⟨fun hg => hturned ?_, fun hg hst => hturned ?_, fun hg hst ha => hturned ?_, fun hg hst ha hb => hturned ?_, fun hg hst hn => ?_⟩
    · exact if_pos (by by_contra hc; exact hg (hgood.mpr hc))
    · rw [if_neg (hgood.mp hg), if_pos (by rw [hpw, hst])]
      rfl
    · have hside : x.busySide = some .a := List.find?_cons_of_pos ((hbusy .a).mp ha)
      rw [if_neg (hgood.mp hg), if_neg (by rw [hpw, hst]; nofun), hside]
      dsimp only
      rw [hfp, sideStateDetail_at]
      rfl
    · have hna : (x.inSale .a || decide (x.fpState .a = .authorized)) = false := Bool.eq_false_iff.mpr fun hc => ha ((hbusy .a).mpr hc)
      have hside : x.busySide = some .b := by simp only [State.busySide, List.find?_cons, hna, (hbusy .b).mp hb]
      rw [if_neg (hgood.mp hg), if_neg (by rw [hpw, hst]; nofun), hside]
      dsimp only
      rw [hfp, sideStateDetail_at]
      rfl
    · intro dropped
      have hfree (d : Side) : (x.inSale d || decide (x.fpState d = .authorized)) = false :=
        Bool.eq_false_iff.mpr fun hc => hn d ((hbusy d).mpr hc)
      have hside : x.busySide = none := by simp only [State.busySide, List.find?_cons, hfree, List.find?_nil]
      obtain ⟨y, hy⟩ : ∃ y : State, y = (x.setWakeTime (BitVec.ofNat 32 wake)).updPower (fun p => { p with standbyOrder := some (s.takeSlot n).2.ref }) :=
        ⟨_, rfl⟩
      have hord : x.orderStandby (s.takeSlot n).2 = y.beginShutdown := by
        rw [State.orderStandby]
        rw [hwake, if_neg (hgood.mp hg), if_neg (by rw [hpw, hst]; nofun), hside, hy]
      have hyfp (d : Side) : y.fpState d = s.fpState d := by rw [hy, hx]; rfl
      have hstops := State.beginShutdown_stops (s := y) (by rw [hy, hx]; exact hst) fun d => by
        have hd : ¬ (s.inSale d = true ∨ s.fpState d = .authorized) := hn d
        rw [not_or, Bool.not_eq_true] at hd
        rw [State.inSale, hyfp]
        exact hd
      rw [← hx, hord] at he
      have hdropped : ((y.sendsDropped .a .standby).sendsDropped .b .standby).messagesDropped.Told dropped 0 := by
        have hyx : y.Told x 0 := by rw [hy]; exact ⟨rfl, rfl, by simp⟩
        have hrdr : y.rdr = x.rdr := by rw [hy]; rfl
        have hlines : y.disp.lines = x.disp.lines := by rw [hy]; rfl
        have hsa (z : State) (d : Side) : (z.sendsDropped d .standby).rdr = z.rdr := by rw [(z.sendsDropped_onlyTold d _).frame]
        have hla (z : State) (d : Side) : (z.sendsDropped d .standby).disp = z.disp := by rw [(z.sendsDropped_onlyTold d _).frame]
        have hall := ((hyx.sendsDropped (d := .a) (by rw [hrdr]) .standby).sendsDropped (d := .b) (by rw [hsa, hsa, hrdr]) .standby).messagesDropped
          (by rw [hla, hla, hla, hla, hlines])
        rw [hx] at hall
        exact hall
      obtain ⟨htold, hpw', hvalve, hmot, hfps, hoff, hstore, hcall, hdisp, hwire, hframe⟩ := hstops
      have hflags : y.changeFlags y.beginShutdown = s.changeFlags y.beginShutdown := by rw [State.changeFlags, hyfp, hyfp, hy, hx]; rfl
      have htelling := htold.trans hdropped
      rw [hflags] at htelling
      clear hord hflags htold hdropped hturned
      generalize y.beginShutdown = t at *
      refine ⟨_, he, htelling.mem, ?_, ?_, hvalve, fun m => ?_, ?_, fun d => ?_, hoff, ?_, hcall, ?_, fun hc _ => hwire hc, ?_, ?_⟩
      · exact hpw'.trans (by rw [hy, hx, State.takeSlot_ref]; rfl)
      · change t.ret = _
        rw [hframe, hy, hx]
        rfl
      · have hm : t.motor m = (y.motor m).stopped := by rw [State.motor, hmot]; exact Three.map_get ..
        refine Eq.trans (b := t.motor m) rfl (hm.trans ?_)
        rw [hy, hx]
        rfl
      · change t.mot.queue = _
        rw [hmot]
      · refine (hfps d).trans ?_
        rw [State.outState, hyfp]
      · exact hstore.trans (by rw [hy, hx]; rfl)
      · refine hdisp.trans ?_
        rw [hy, hx]
        rfl
      · exact htelling.port.trans (congrArg (fun a => ({ dropped.port with attn := dropped.port.attn ||| a } : Port)) BitVec.zero_or)
      · obtain ⟨pw, vlv, mot, fp, met, rdr, store, disp, mem, port, rfl⟩ : ∃ pw vlv mot fp met rdr store disp mem port, t = { y with
          pw := pw, vlv := vlv, mot := mot, fp := fp, met := met, rdr := rdr, store := store, disp := disp, mem := mem, port := port } :=
            ⟨_, _, _, _, _, _, _, _, _, _, hframe⟩
        rw [hy, hx]
        rfl
  · have he : exec .standbyEntry s = .next (publish s s.enterStandby) := (event_steady hs).trans (by rw [if_pos ⟨hst, hbl, hl⟩])
    rw [State.enterStandby_eq hst hw, hr] at he
    obtain ⟨x, hx⟩ : ∃ x, x = s.standbyEntered := ⟨_, rfl⟩
    have htold : x.Told s Attn.power.mask := by
      rw [hx]
      exact ⟨by rw [State.standbyEntered, s.disableDrives_frame]; rfl, by rw [State.standbyEntered, s.disableDrives_frame]; rfl, rfl⟩
    have hcomplete := htold.complete r .ok 0
    have honly := x.complete_onlyTold r .ok 0
    have hxpw : x.pw = { s.pw with state := .standby, osc := false, pll := false, drives := false, decoding := false, standbyOrder := none } := by
      rw [hx]
      dsimp only [State.standbyEntered]
      rw [hw]
    have hvalve (v : Meter) : x.valve v = .shut := by rw [hx]; exact s.disableDrives_shut v
    have hmotor (m : Product) : x.motor m = (s.motor m).stopped := by rw [hx]; exact s.disableDrives_motor m
    have hstore : x.store = { s.store with check := none, reloading := false, reloadDue := false } := by rw [hx]; rfl
    have hxport : x.port = { s.port with attn := s.port.attn ||| Attn.power.mask } := by rw [hx]; rfl
    have hxframe : x = { s with pw := x.pw, vlv := x.vlv, mot := x.mot, store := x.store, met := x.met, fp := x.fp, port := x.port } := by
      rw [hx, State.standbyEntered, s.disableDrives_frame]
      rfl
    rw [← hx] at he
    change exec .standbyEntry s = .next (publish s ((x.complete r .ok 0).updPort (fun p => { p with posts := [], asleep := !p.awake }))) at he
    have hmem := hcomplete.mem
    have hport := hcomplete.port
    have hframe := honly.frame
    obtain ⟨w, hscomplete⟩ := (s.complete_onlyTold r .ok 0).flags
    have hsport := congrArg State.port (s.complete_onlyTold r .ok 0).frame
    clear hcomplete honly htold
    generalize s.complete r .ok 0 = y at *
    generalize x.complete r .ok 0 = z at *
    clear hx
    refine ⟨_, he, ?_, hmem, ?_, fun v => ?_, fun m => ?_, ?_, ?_⟩
    · refine Eq.trans ?_ hxpw
      rw [hframe]
      rfl
    · have hp : z.port = { s.port with attn := y.port.attn ||| flagsOf [.power] } := by
        rw [hport, hsport, flagsOf_one]
      change ({ z.port with posts := [], asleep := !z.port.awake } : Port) = _
      rw [hp]
    · refine Eq.trans ?_ (hvalve v)
      rw [hframe]
      rfl
    · have hm : (publish s (z.updPort (fun p => { p with posts := [], asleep := !p.awake }))).motor m = (s.motor m).stopped := by
        refine Eq.trans ?_ (hmotor m)
        rw [hframe]
        rfl
      rw [hm, MotorRec.stopped]
      split
      · exact .inr ‹_›
      · exact .inl rfl
    · refine Eq.trans ?_ hstore
      rw [hframe]
      rfl
    · obtain ⟨mem, attn, rfl⟩ : ∃ mem attn, z = { x with mem := mem, port := { x.port with attn := attn } } := ⟨_, _, hframe⟩
      obtain ⟨pw, vlv, mot, store, met, fp, port, rfl⟩ : ∃ pw vlv mot store met fp port, x = { s with
        pw := pw, vlv := vlv, mot := mot, store := store, met := met, fp := fp, port := port } := ⟨_, _, _, _, _, _, _, hxframe⟩
      rfl

end Sys2Proof.Machine
end

section
/-! PROOFS. The end of a sale while the drives stand still, and the fueling points at a warning or a reset (R4, R26, R76, R164, R166). -/

namespace Sys2Proof.Machine

/-! ## Demands dropped while no motor runs or waits (R67, R76) -/

/-- The motors without the demand of side `d`. -/
def MotorRec.without (d : Side) (r : MotorRec) : MotorRec := { r with demand := r.demand.set d false }

theorem State.dropDemand_still {s : State} {m : Product} (h : (s.motor m).state.still = true) (d : Side) :
    s.dropDemand d m = s.updMotor m (MotorRec.without d) := by
  unfold State.dropDemand
  dsimp only
  split
  · revert h
    cases (s.motor m).state <;> first | exact fun _ => rfl | exact nofun
  · rfl

theorem State.dropAll_still {s : State} (h : ∀ m, (s.motor m).state.still = true) (d : Side) :
    s.dropAll d = { s with mot := { s.mot with recs := s.mot.recs.map (MotorRec.without d) } } := by
  obtain ⟨x, hx⟩ : ∃ x, x = s.updMotor .p1 (MotorRec.without d) := ⟨_, rfl⟩
  obtain ⟨y, hy⟩ : ∃ y, y = x.updMotor .p2 (MotorRec.without d) := ⟨_, rfl⟩
  have hx2 : x.motor .p2 = s.motor .p2 := by rw [hx]; rfl
  have hy3 : y.motor .p3 = s.motor .p3 := by rw [hy, hx]; rfl
  have hd1 : s.dropDemand d .p1 = x := (State.dropDemand_still (h .p1) d).trans hx.symm
  have hd2 : x.dropDemand d .p2 = y := (State.dropDemand_still (by rw [hx2]; exact h .p2) d).trans hy.symm
  rw [State.dropAll, hd1, hd2, State.dropDemand_still (by rw [hy3]; exact h .p3), hy, hx]
  rfl

/-- The motors as a sale ends that finds them still. -/
theorem State.endSale_mot {s : State} (h : ∀ m, (s.motor m).state.still = true) (d : Side) (c : Cause) :
    (s.endSale d c).mot = { s.mot with recs := s.mot.recs.map (MotorRec.without d) } := by
  obtain ⟨x, hx⟩ : ∃ x, x = ((s.updSale d [.endCause] (fun x => { x with endCause := some c })).closeSide d).stopBlend d := ⟨_, rfl⟩
  have hmot : x.mot = s.mot := by rw [hx]; rfl
  have hm (m : Product) : x.motor m = s.motor m := by rw [State.motor, hmot]; rfl
  unfold State.endSale
  dsimp only
  rw [← hx, State.dropAll_still (fun m => by rw [hm]; exact h m), State.setFpState_mot]
  split
  · exact congrArg (fun m : Motors => ({ m with recs := m.recs.map (MotorRec.without d) } : Motors)) hmot
  · exact congrArg (fun m : Motors => ({ m with recs := m.recs.map (MotorRec.without d) } : Motors)) hmot

theorem Side.eq_or_other (d e : Side) : e = d ∨ e = d.other := by cases d <;> cases e <;> decide

/-! ## A fueling point is interrupted (R4, R26) -/

/-- The state of a fueling point once the device has stopped. -/
def State.cutState (s : State) (d : Side) : FpState := if s.inSale d then .settling else s.outState d

/-- The sale of a side once the device has stopped for a cause. -/
def State.cutSale (s : State) (d : Side) (c : Cause) : Sale :=
  if s.inSale d then
    { (if (s.fpState d).endable then { s.sale d with endCause := some c } else s.sale d) with status := .interrupted }
  else s.sale d

/-- The fueling point of side `d` was interrupted between `s` and `t`. -/
structure State.Interrupts (s t : State) (d : Side) (c : Cause) : Prop where
  state : t.fpState d = s.cutState d
  settle : (t.fp.get d).settle = if s.inSale d then none else (s.fp.get d).settle
  sale : t.sale d = s.cutSale d c
  otherFp : t.fp.get d.other = s.fp.get d.other
  otherSale : t.sale d.other = s.sale d.other
  port : t.port = { s.port with attn := s.port.attn ||| flagsOf (s.stateFlags d (s.cutState d)) }
  shut : (∀ v, s.valve v = .shut) → ∀ v, t.valve v = .shut
  still : (∀ m, (s.motor m).state.still = true) → t.mot.queue = s.mot.queue ∧ ∀ m, (t.motor m).state.still = true
  asked : ∃ R, s.disp.Asked t.disp R
  frame : t = { s with ret := { s.ret with sides := t.ret.sides }, fp := t.fp, met := t.met, vlv := t.vlv, mot := t.mot, disp := t.disp
                       port := t.port, rev := t.rev }

/-- An open sale at a warning or a reset, its end cause written (R26). -/
def State.cutOpen (s : State) (d : Side) : State :=
  ((s.updSale d [.status] (fun x => { x with status := .interrupted })).updFp d (fun f => { f with settle := none })).requestSale d

theorem State.cutOpen_sale (s : State) (d : Side) : (s.cutOpen d).sale d = { s.sale d with status := .interrupted } :=
  congrArg RetSide.sale (Sides.get_set_same ..)

theorem State.cutOpen_otherSale (s : State) (d : Side) : (s.cutOpen d).sale d.other = s.sale d.other :=
  congrArg RetSide.sale (Sides.get_set_other ..)

theorem State.cutOpen_fp (s : State) (d : Side) : (s.cutOpen d).fp.get d = { s.fp.get d with settle := none } := Sides.get_set_same ..

theorem State.cutOpen_interrupts {s : State} {d : Side} (h : s.fpState d = .settling) (c : Cause) : s.Interrupts (s.cutOpen d) d c := by
  have hin : s.inSale d = true := by rw [State.inSale, h]; rfl
  refine ⟨?_, ?_, ?_, Sides.get_set_other .., s.cutOpen_otherSale d, ?_, fun hv => hv, fun hm => ⟨rfl, hm⟩, ⟨_, Display.requestAll_asked ..⟩, rfl⟩
  · rw [State.fpState, State.cutOpen_fp, State.cutState, if_pos hin]
    exact h
  · rw [State.cutOpen_fp, if_pos hin]
  · rw [State.cutOpen_sale, State.cutSale, if_pos hin, h]
    rfl
  · rw [State.cutState, if_pos hin, State.stateFlags, if_pos h, h]
    exact congrArg (fun a => ({ s.port with attn := a } : Port)) BitVec.or_zero.symm

/-- An interrupted sale that had not ended yet (R26). -/
theorem State.endSale_interrupts {s : State} {d : Side} (h : (s.fpState d).endable = true) (c : Cause) :
    s.Interrupts ((s.endSale d c).cutOpen d) d c := by
  have hns := FpState.endable_ne_settling h
  have hends := s.endSale_ends d c hns
  have hport := s.endSale_port d c hns
  have hframe := s.endSale_frame d c
  have hmot (hm : ∀ m, (s.motor m).state.still = true) := State.endSale_mot hm d c
  generalize s.endSale d c = u at *
  have hin : s.inSale d = true := by
    revert h
    unfold State.inSale
    cases s.fpState d <;> first | exact fun _ => rfl | exact nofun
  have hufp : u.fp.get d = (s.fp.get d).ended (s.sale d).volume := by rw [hends.fp, Sides.get_set_same]
  have husale : u.sale d = { s.sale d with endCause := some c } := by
    rw [State.sale, hends.ret]
    exact congrArg RetSide.sale (Sides.get_set_same ..)
  refine ⟨?_, ?_, ?_, ?_, ?_, ?_, fun hv v => ?_, fun hm => ?_, ?_, ?_⟩
  · rw [State.fpState, State.cutOpen_fp, State.cutState, if_pos hin, hufp]
    rfl
  · rw [State.cutOpen_fp, if_pos hin]
  · rw [State.cutOpen_sale, State.cutSale, if_pos hin, if_pos h, husale]
  · have ho : (u.cutOpen d).fp.get d.other = u.fp.get d.other := Sides.get_set_other ..
    rw [ho, hends.fp, Sides.get_set_other]
  · rw [State.cutOpen_otherSale, State.sale, hends.ret]
    exact congrArg RetSide.sale (Sides.get_set_other ..)
  · have hst : s.stateFlags d (s.cutState d) = [fpFlag d] := by
      rw [State.cutState, if_pos hin, State.stateFlags, if_neg hns]
      rfl
    rw [hst, flagsOf_one]
    exact hport
  · have hvlv : (u.cutOpen d).vlv = s.vlv.set d (s.vlv.get d).halted := hends.valves
    rw [State.valve, hvlv]
    obtain ⟨e, p⟩ := v
    rcases Side.eq_or_other d e with rfl | rfl
    · rw [Sides.get_set_same]
      exact Three.get_shut p
    · rw [Sides.get_set_other]
      exact hv ⟨d.other, p⟩
  · have hmu := hmot hm
    have hqueue : u.mot.queue = s.mot.queue := by rw [hmu]
    refine ⟨hqueue, fun m => ?_⟩
    have hmotor : u.motor m = (s.motor m).without d := by rw [State.motor, hmu]; exact Three.map_get ..
    change (u.motor m).state.still = true
    rw [hmotor]
    exact hm m
  · have hdisp : u.disp = s.disp := by rw [hframe]
    rw [← hdisp]
    exact ⟨_, Display.requestAll_asked ..⟩
  · have hret : u.ret = { s.ret with sides := u.ret.sides } := by rw [hends.ret]
    obtain ⟨fp, ret, vlv, mot, met, port, rev, rfl⟩ : ∃ fp ret vlv mot met port rev, u = { s with
      fp := fp, ret := ret, vlv := vlv, mot := mot, met := met, port := port, rev := rev } := ⟨_, _, _, _, _, _, _, hframe⟩
    obtain ⟨sides, rfl⟩ : ∃ sides, ret = { s.ret with sides := sides } := ⟨_, hret⟩
    rfl

/-- A fueling point without an open sale (R4). -/
theorem State.Reviews.interrupts {s t : State} {d : Side} (h : s.Reviews t d) (hs : s.inSale d = false) (ht : t.fpState d = s.outState d)
    (hset : (t.fp.get d).settle = (s.fp.get d).settle) (c : Cause) : s.Interrupts t d c := by
  have hcut : s.cutState d = s.outState d := if_neg (Bool.eq_false_iff.mp hs)
  have hframe := h.frame
  refine ⟨by rw [ht, hcut], by rw [hset, hs]; rfl, ?_, h.other, by rw [hframe]; rfl, by rw [hcut, ← ht]; exact h.port, fun hv v => ?_, fun hm => ?_, ?_, ?_⟩
  · rw [State.cutSale, hs, hframe]
    rfl
  · rw [hframe]
    exact hv v
  · rw [hframe]
    exact ⟨rfl, hm⟩
  · rw [hframe]
    exact ⟨_, .refl _⟩
  · obtain ⟨fp, met, port, rfl⟩ : ∃ fp met port, t = { s with fp := fp, met := met, port := port } := ⟨_, _, _, hframe⟩
    rfl

theorem State.interruptFp_interrupts (s : State) (d : Side) (c : Cause) : s.Interrupts (s.interruptFp d c) d c := by
  have out {st : FpState} (hs : s.fpState d = st) (hin : st.inSale = false) (hout : st ≠ .locked) :
      s.Interrupts (s.setFpState d .unavailable) d c := by
    refine (s.setFpState_reviews d _).interrupts (by rw [State.inSale, hs, hin]) ?_ ?_ c
    · rw [State.setFpState_state, State.outState, hs, if_neg hout]
    · rw [s.setFpState_frame, Sides.get_set_same]
  have stays {st : FpState} (hs : s.fpState d = st) (hin : st.inSale = false) (hout : s.outState d = st) : s.Interrupts s d c :=
    (State.Reviews.stays s d).interrupts (by rw [State.inSale, hs, hin]) (by rw [hs, hout]) rfl c
  unfold State.interruptFp
  split
  iterate 3
    rename_i h
    exact State.endSale_interrupts (by rw [h]; rfl) c
  · exact State.cutOpen_interrupts ‹_› c
  · rename_i h
    refine (State.withdrawn_reviews h).interrupts (by rw [State.inSale, h]; rfl) ?_ ?_ c
    · rw [State.setFpState_state, State.outState, h]
      rfl
    · have hfp : (s.endAuth d .authWithdrawn).fp.get d = { s.fp.get d with
          auth := none, refused := none, expiry := none
          lastEnd := some { kind := .authEnded, cause := .authWithdrawn, number := 0, time := s.rtc } } := by
        rw [State.endAuth_frame]
        exact Sides.get_set_same ..
      rw [State.setFpState_frame, Sides.get_set_same, hfp]
  iterate 3
    rename_i h
    exact out h rfl (by decide)
  · rename_i h
    exact stays h rfl (by rw [State.outState, h]; rfl)
  · rename_i h
    exact stays h rfl (by rw [State.outState, h]; rfl)

end Sys2Proof.Machine
end

section
/-! PROOFS. A power-fail warning and a device reset (R4, R26, R55, R76, R105, R120, R138, R149, R164, R166). -/

namespace Sys2Proof.Machine

/-! ## Both fueling points (R4, R26) -/

/-- Both fueling points were interrupted between `s` and `t`. -/
structure State.InterruptsBoth (s t : State) (c : Cause) : Prop where
  state : ∀ d, t.fpState d = s.cutState d
  settle : ∀ d, (t.fp.get d).settle = if s.inSale d then none else (s.fp.get d).settle
  sale : ∀ d, t.sale d = s.cutSale d c
  port : t.port = { s.port with attn :=
    s.port.attn ||| (flagsOf (s.stateFlags .a (s.cutState .a)) ||| flagsOf (s.stateFlags .b (s.cutState .b))) }
  shut : (∀ v, s.valve v = .shut) → ∀ v, t.valve v = .shut
  still : (∀ m, (s.motor m).state.still = true) → t.mot.queue = s.mot.queue ∧ ∀ m, (t.motor m).state.still = true
  asked : ∃ R, s.disp.Asked t.disp R
  frame : t = { s with ret := { s.ret with sides := t.ret.sides }, fp := t.fp, met := t.met, vlv := t.vlv, mot := t.mot, disp := t.disp
                       port := t.port, rev := t.rev }

theorem State.Interrupts.both {s x t : State} {c : Cause} (h : s.Interrupts x .a c) (g : x.Interrupts t .b c) : s.InterruptsBoth t c := by
  have hfp : x.fp.get .b = s.fp.get .b := h.otherFp
  have hsale : x.sale .b = s.sale .b := h.otherSale
  have hst : x.fpState .b = s.fpState .b := congrArg FuelPoint.state hfp
  have hin : x.inSale .b = s.inSale .b := congrArg FpState.inSale hst
  have hcut : x.cutState .b = s.cutState .b := by rw [State.cutState, State.cutState, hin, State.outState, hst]; rfl
  have hflags (st : FpState) : x.stateFlags .b st = s.stateFlags .b st := by rw [State.stateFlags, hst]; rfl
  have ha : t.fp.get .a = x.fp.get .a := g.otherFp
  refine ⟨fun d => ?_, fun d => ?_, fun d => ?_, ?_, fun hv => g.shut (h.shut hv), fun hm => ?_, ?_, ?_⟩
  · cases d
    · exact (congrArg FuelPoint.state ha).trans h.state
    · exact g.state.trans hcut
  · cases d
    · exact (congrArg FuelPoint.settle ha).trans h.settle
    · exact g.settle.trans (by rw [hin, hfp])
  · cases d
    · exact Eq.trans g.otherSale h.sale
    · exact g.sale.trans (by rw [State.cutSale, State.cutSale, hin, hst, hsale])
  · rw [g.port, hcut, hflags, h.port]
    exact congrArg (fun a => ({ s.port with attn := a } : Port)) (BitVec.or_assoc ..)
  · obtain ⟨hq, hs⟩ := h.still hm
    obtain ⟨hq', hs'⟩ := g.still hs
    exact ⟨hq'.trans hq, hs'⟩
  · obtain ⟨R, hR⟩ := h.asked
    obtain ⟨Q, hQ⟩ := g.asked
    exact ⟨_, hR.trans hQ⟩
  · have hframe := g.frame
    obtain ⟨sides, fp, met, vlv, mot, disp, port, rev, rfl⟩ : ∃ sides fp met vlv mot disp port rev, t = { x with
      ret := { x.ret with sides := sides }, fp := fp, met := met, vlv := vlv, mot := mot, disp := disp, port := port, rev := rev } :=
        ⟨_, _, _, _, _, _, _, _, hframe⟩
    rw [h.frame]

/-! ## The display bus controller as its sequence is cut (R105, R114) -/

theorem Display.resumeDeadlines_get (x : Display) (r : Role) : x.resumeDeadlines.heads.get r =
    if ((sideOfSale r).isSome && (x.heads.get r).state.shows && (x.heads.get r).stale.isNone) = true then
      { x.heads.get r with stale := some 2500 } else x.heads.get r := by
  rw [Display.resumeDeadlines, Eight.get_ofFun]

/-- The controller with its sequence at an end (R114). -/
def Display.cut (x : Display) (call : Option GeneralCall) : Display := { x with step := .idle, settle := none, segTest := none, call := call }

/-- The deadlines run again unless the BLANK is on the bus (R105; log 78). -/
theorem Display.cutSequence_eq (x : Display) : ∃ y : Display, y.heads = x.heads
    ∧ (x.cutSequence = y.resumeDeadlines ∨ (x.cutSequence = y ∧ x.call = some ⟨.blank, true⟩)) := by
  unfold Display.cutSequence
  rcases hx : x.call with _ | ⟨k, b⟩
  · exact ⟨x.cut none, rfl, .inl rfl⟩
  · cases b
    · exact ⟨x.cut none, rfl, .inl rfl⟩
    · cases k
      · exact ⟨x.cut (some ⟨.test, true⟩), rfl, .inl rfl⟩
      · exact ⟨x.cut (some ⟨.blank, true⟩), rfl, .inr ⟨rfl, rfl⟩⟩

theorem Display.cutSequence_state (x : Display) (r : Role) : (x.cutSequence.heads.get r).state = (x.heads.get r).state := by
  obtain ⟨y, hy, h | ⟨h, -⟩⟩ := x.cutSequence_eq
  · rw [h, Display.resumeDeadlines_get, ← hy]
    split <;> rfl
  · rw [h, hy]

theorem Display.cutSequence_stale {x : Display} {r : Role} (hc : x.call ≠ some ⟨.blank, true⟩) (hr : (sideOfSale r).isSome = true)
    (hs : (x.heads.get r).state.shows = true) (hn : (x.heads.get r).stale = none) : (x.cutSequence.heads.get r).stale = some 2500 := by
  obtain ⟨y, hy, h | ⟨-, h⟩⟩ := x.cutSequence_eq
  · rw [h, Display.resumeDeadlines_get, hy, hr, hs, hn]
    rfl
  · exact absurd h hc

/-! ## The actions of a warning and of a reset (R76, R138, R149, R164) -/

theorem State.failDrives_frame {s : State} (h : s.pw.state ≠ .powerFail) : s.failDrives = { s with
    pw := { s.pw with drives := false, state := .powerFail }, port := { s.port with attn := s.port.attn ||| Attn.power.mask }
    vlv := s.failDrives.vlv, mot := { recs := s.mot.recs.map MotorRec.stopped, queue := [] } } := by
  have hdrives := s.disableDrives_frame
  unfold State.failDrives
  generalize s.disableDrives = z at hdrives ⊢
  obtain ⟨vlv, rfl⟩ : ∃ vlv, z = { s with
    pw := { s.pw with drives := false }, vlv := vlv, mot := { recs := s.mot.recs.map MotorRec.stopped, queue := [] } } := ⟨_, hdrives⟩
  rw [State.setPowerState, if_neg h]
  rfl

/-- The device has stopped for a cause between `s` and `t`. -/
structure State.Fails (s t : State) (c : Cause) (off : OffCause) : Prop where
  told : t.Told ((s.sendsDropped .a off).sendsDropped .b off)
    (flagsOf (.power :: ((if s.halt.halted then [.halt] else []) ++ s.changeFlags t)))
  pw : t.pw = { s.pw with state := .powerFail, phase := .none, drives := false, crystalWatch := none, lockWait := none
                          wakeRequest := none, blanked := false }
  valve : ∀ v, t.valve v = .shut
  motor : ∀ m, (t.motor m).state.still = true
  queue : t.mot.queue = []
  state : ∀ d, t.fpState d = s.cutState d
  settle : ∀ d, (t.fp.get d).settle = if s.inSale d then none else (s.fp.get d).settle
  sale : ∀ d, t.sale d = s.cutSale d c
  readerOff : ∀ d, (t.rdr.get d).state = .off
  offCause : ∀ d, (s.rdr.get d).state ≠ .off → (t.rdr.get d).cause = some off
  halt : t.halt = { s.halt with halted := false }
  store : t.store = { s.store with check := none, reloading := false }
  stale : ∀ d, s.disp.call ≠ some ⟨.blank, true⟩ → (s.head (saleRole d)).state.shows = true → (s.head (saleRole d)).stale = none →
    (t.head (saleRole d)).stale = some 2500
  frame : t = { s with pw := t.pw, ret := { s.ret with sides := t.ret.sides }, fp := t.fp, met := t.met, vlv := t.vlv, mot := t.mot
                       disp := t.disp, rdr := t.rdr, halt := t.halt, store := t.store, mem := t.mem, port := t.port, rev := t.rev }

theorem State.failFps_interrupts (s : State) (c : Cause) : s.failDrives.InterruptsBoth (s.failFps c) c :=
  (s.failDrives.interruptFp_interrupts .a c).both (State.interruptFp_interrupts _ .b c)

theorem State.failActions_eq (s : State) (c : Cause) (off : OffCause) : s.failActions c off =
    ((((((s.failFps c).readerOffFor .a off).readerOffFor .b off).updDisp Display.cutSequence).leaveHalt).updPower
      (fun p => { p with phase := .none, crystalWatch := none, lockWait := none, blanked := false, wakeRequest := none })).updStore
        (fun x => { x with check := none, reloading := false }) := rfl

theorem State.leaveHalt_eq (s : State) : s.leaveHalt = { s with
    halt := { s.halt with halted := false }
    port := { s.port with attn := s.port.attn ||| flagsOf (if s.halt.halted then [.halt] else []) } } := by
  unfold State.leaveHalt
  split
  · rw [flagsOf_one]
    rfl
  · rename_i h
    rw [Bool.not_eq_true] at h
    have hh : ({ s.halt with halted := false } : HaltUnit) = s.halt := by rw [← h]
    rw [hh]
    exact congrArg (fun a => ({ s with port := { s.port with attn := a } } : State)) BitVec.or_zero.symm

/-- The send lists of two states with the same readers complete alike. -/
theorem State.Told.sendsBoth {x y : State} {w : Word16} (h : x.Told y w) (hr : x.rdr = y.rdr) (c : OffCause) :
    ((x.sendsDropped .a c).sendsDropped .b c).Told ((y.sendsDropped .a c).sendsDropped .b c) w := by
  have hsends (z : State) (d : Side) : (z.sendsDropped d c).rdr = z.rdr := by rw [(z.sendsDropped_onlyTold d c).frame]
  exact (h.sendsDropped (d := .a) (by rw [hr]) c).sendsDropped (d := .b) (by rw [hsends, hsends, hr]) c

theorem State.cutState_ne_authorized {s : State} {d : Side} : s.cutState d ≠ .authorized := by
  unfold State.cutState State.outState
  split
  · nofun
  · split <;> nofun

theorem State.failActions_fails {s : State} (h : s.pw.state ≠ .powerFail) (c : Cause) (off : OffCause) :
    s.Fails (s.failActions c off) c off := by
  rw [State.failActions_eq]
  have hfps := s.failFps_interrupts c
  generalize s.failFps c = x at hfps ⊢
  have hdrives := State.failDrives_frame h
  have hvalve := s.failDrives_valve
  generalize s.failDrives = y at hfps hdrives hvalve
  have hyfp : y.fp = s.fp := by rw [hdrives]
  have hysale (d : Side) : y.sale d = s.sale d := by rw [hdrives]; rfl
  have hcutState (d : Side) : y.cutState d = s.cutState d := by rw [hdrives]; rfl
  have hcutSale (d : Side) : y.cutSale d c = s.cutSale d c := by rw [hdrives]; rfl
  have hflags (d : Side) (st : FpState) : y.stateFlags d st = s.stateFlags d st := by rw [hdrives]; rfl
  have hmotor (m : Product) : (y.motor m).state.still = true := by
    have hm : y.motor m = (s.motor m).stopped := by rw [State.motor, hdrives]; exact Three.map_get ..
    rw [hm, MotorRec.stopped]
    split
    · rename_i hf
      rw [hf]
      rfl
    · rfl
  have hna (d : Side) : x.fpState d ≠ .authorized := by rw [hfps.state]; exact State.cutState_ne_authorized
  obtain ⟨z, hz⟩ : ∃ z, z = x.readerOffFor .a off := ⟨_, rfl⟩
  have houta : x.ReaderOut z .a off := by rw [hz]; exact State.readerOffFor_out (hna .a) off
  have hzb : z.fpState .b ≠ .authorized := by rw [houta.frame]; exact hna .b
  have hboth := houta.both (State.readerOffFor_out hzb off)
  have hcause (d : Side) (hd : (x.rdr.get d).state ≠ .off) : ((z.readerOffFor .b off).rdr.get d).cause = some off := by
    cases d
    · have ha : (z.readerOffFor .b off).rdr.get .a = z.rdr.get .a := (State.readerOffFor_out hzb off).other
      rw [ha, hz]
      exact State.readerOffFor_cause hd off
    · have hb : z.rdr.get .b = x.rdr.get .b := houta.other
      exact State.readerOffFor_cause (by rw [hb]; exact hd) off
  rw [← hz]
  generalize z.readerOffFor .b off = r at hboth hcause ⊢
  have hxtold : x.Told s ((flagsOf (s.stateFlags .a (s.cutState .a)) ||| flagsOf (s.stateFlags .b (s.cutState .b))) ||| Attn.power.mask) := by
    have hport := hfps.port
    rw [hcutState, hcutState, hflags, hflags] at hport
    have hxy : x.Told y _ := ⟨by rw [hfps.frame], by rw [hfps.frame], hport⟩
    have hys : y.Told s Attn.power.mask := by rw [hdrives]; exact ⟨rfl, rfl, rfl⟩
    have hxs := hxy.trans hys
    rwa [BitVec.or_comm] at hxs
  have hrdr : x.rdr = s.rdr := by rw [hfps.frame, hdrives]
  have hrtold := hboth.told.trans (hxtold.sendsBoth hrdr off)
  rw [hrdr] at hrtold hcause
  obtain ⟨R, hasked⟩ := hfps.asked
  have hxdisp : r.disp = x.disp := by rw [hboth.frame]
  have hydisp : y.disp = s.disp := by rw [hdrives]
  rw [← hxdisp, hydisp] at hasked
  have hheads := hasked.heads
  have hcall : r.disp.call = s.disp.call := by rw [hasked.frame]
  have hhead (e : Role) : (r.disp.cutSequence.heads.get e).state = (s.head e).state := by
    rw [Display.cutSequence_state, hheads]
    rfl
  have hstate (d : Side) : r.fpState d = s.cutState d := by
    rw [← hcutState, ← hfps.state, hboth.frame]
    rfl
  have hhalt : r.halt = s.halt := by rw [hboth.frame, hfps.frame, hdrives]
  have hstore : r.store = s.store := by rw [hboth.frame, hfps.frame, hdrives]
  obtain ⟨t, ht⟩ : ∃ t : State, t = { r with
      disp := r.disp.cutSequence, halt := { s.halt with halted := false }
      port := { r.port with attn := r.port.attn ||| flagsOf (if s.halt.halted then [.halt] else []) }
      pw := { r.pw with phase := .none, crystalWatch := none, lockWait := none, blanked := false, wakeRequest := none }
      store := { s.store with check := none, reloading := false } } := ⟨_, rfl⟩
  have heq : (((r.updDisp Display.cutSequence).leaveHalt).updPower
      (fun p => { p with phase := .none, crystalWatch := none, lockWait := none, blanked := false, wakeRequest := none })).updStore
        (fun x => { x with check := none, reloading := false }) = t := by
    rw [ht, State.leaveHalt_eq, ← hhalt, ← hstore]
    rfl
  rw [heq]
  clear heq
  have htstate (d : Side) : t.fpState d = s.cutState d := by rw [← hstate, ht]; rfl
  refine ⟨?_, ?_, fun v => ?_, fun m => ?_, ?_, htstate, fun d => ?_, fun d => ?_, fun d => ?_, fun d hd => ?_, ?_, ?_, fun d hc hs hn => ?_, ?_⟩
  · rw [flagsOf_cons, flagsOf_append, State.changeFlags_stops (t := t) ?_ ?_ ?_, htstate, htstate]
    · refine ⟨by rw [ht]; exact hrtold.mem, by rw [ht]; exact hrtold.rtc, ?_⟩
      rw [ht]
      dsimp only
      rw [hrtold.port]
      refine congrArg (fun a => ({ ((s.sendsDropped .a off).sendsDropped .b off).port with attn := a } : Port)) ?_
      dsimp only
      ac_rfl
    · rw [ht]
      exact hboth.off
    · intro e
      rw [ht]
      exact (hhead e).symm
    · rw [ht]
      simp [StorePort.changeFlags]
  · rw [ht, hboth.frame, hfps.frame, hdrives]
  · have hv : t.valve v = x.valve v := by rw [ht, hboth.frame]; rfl
    rw [hv]
    exact hfps.shut hvalve v
  · have hm : t.motor m = x.motor m := by rw [ht, hboth.frame]; rfl
    rw [hm]
    exact (hfps.still hmotor).2 m
  · have hq : t.mot.queue = x.mot.queue := by rw [ht, hboth.frame]
    rw [hq, (hfps.still hmotor).1, hdrives]
  · have hset := hfps.settle d
    have hfp : t.fp = x.fp := by rw [ht, hboth.frame]
    rw [hfp, hset, hyfp, State.inSale, State.fpState, hyfp]
    rfl
  · have hsale : t.sale d = x.sale d := by rw [ht, hboth.frame]; rfl
    rw [hsale, hfps.sale, hcutSale]
  · rw [ht]
    exact hboth.off d
  · rw [ht]
    exact hcause d hd
  · rw [ht]
  · rw [ht]
  · rw [ht]
    exact Display.cutSequence_stale (hcall ▸ hc) (by cases d <;> rfl) (by rw [hheads]; exact hs) (by rw [hheads]; exact hn)
  · rw [ht]
    have hrframe := hboth.frame
    have hxframe := hfps.frame
    obtain ⟨rdr, mem, port, rfl⟩ : ∃ rdr mem port, r = { x with rdr := rdr, mem := mem, port := port } := ⟨_, _, _, hrframe⟩
    obtain ⟨sides, fp, met, vlv, mot, disp, port', rev, rfl⟩ : ∃ sides fp met vlv mot disp port rev, x = { y with
      ret := { y.ret with sides := sides }, fp := fp, met := met, vlv := vlv, mot := mot, disp := disp, port := port, rev := rev } :=
        ⟨_, _, _, _, _, _, _, _, hxframe⟩
    rw [hdrives]

/-- The power sequencer as a warning or a reset leaves it. -/
def Power.failed (p : Power) (c : Instr) (cause : Cause) : Power :=
  let down : Power := { p with state := .powerFail, phase := .none, drives := false, crystalWatch := none, lockWait := none
                               standbyOrder := none, wakeRequest := none, blanked := false }
  if cause = .powerLoss then { down with warning := true, hold := none } else
    { down with devReset := true, resetPending := true, resetHold := some 500, resetMax := some 5000
                lastWake := if c = .resetPin then .resetPin else .resetRegister }

theorem exec_powerFailWarning {s : State} (hs : s.steady) (hst : s.pw.state ≠ .powerFail) (hh : s.pw.resetHold = none) :
    exec .powerFailWarning s = .next (publish s { (s.failActions .powerLoss .powerFail).completeOpt s.pw.standbyOrder .wrongState 0x506 with
      pw := s.pw.failed .powerFailWarning .powerLoss }) := by
  have hf := State.failActions_fails hst .powerLoss .powerFail
  generalize hx : s.failActions .powerLoss .powerFail = x at hf
  have hpw := hf.pw
  have hu := (x.completeOpt_onlyTold s.pw.standbyOrder .wrongState 0x506).frame
  have horder : x.pw.standbyOrder = s.pw.standbyOrder := by rw [hpw]
  have hu' : x.failStandby = { x.completeOpt s.pw.standbyOrder .wrongState 0x506 with pw := { x.pw with standbyOrder := none } } := by
    rw [State.failStandby, horder, show powerDetail .powerFail = 0x506 from rfl]
    generalize x.completeOpt s.pw.standbyOrder .wrongState 0x506 = u at hu
    have hp : u.pw = x.pw := by rw [hu]
    rw [← hp]
    rfl
  generalize x.completeOpt s.pw.standbyOrder .wrongState 0x506 = u at hu'
  have hhold : s.powerFailWarning = { u with pw := s.pw.failed .powerFailWarning .powerLoss } := by
    have hnone : ¬ ((x.failStandby.updPower (fun p => { p with warning := true, hold := none })).pw.resetHold.isSome = true) := by
      rw [State.updPower_pw, hu', hpw, hh]
      nofun
    rw [State.powerFailWarning, if_neg hst, hx, State.endResetHold, if_neg hnone, hu', hpw]
    rfl
  change execPowerFailWarning s = _
  have hb : (if s.pw.resetHold.isSome = true then s.mirrorCleared else s) = s := if_neg (by rw [hh]; nofun)
  rw [execPowerFailWarning, if_pos hs.1, hhold, hb, commit_steady hs rfl rfl]

theorem exec_reset {s : State} {k : WakeCause} {c : Instr} (hst : s.pw.state ≠ .powerFail) (he : exec c s = .next (publish s (s.deviceReset k)))
    (hk : k = if c = .resetPin then .resetPin else .resetRegister) :
    exec c s = .next (publish s { s.failActions .deviceReset .deviceReset with pw := s.pw.failed c .deviceReset }) := by
  have hpw := (State.failActions_fails hst .deviceReset .deviceReset).pw
  rw [he, State.deviceReset]
  dsimp only
  rw [if_neg hst]
  generalize s.failActions .deviceReset .deviceReset = x at hpw
  rw [State.updPower, hpw, hk]
  rfl

/-- Settles O55: the actions of a warning and those of a reset, which are the same but for the STANDBY order and the marks of the reset. -/
theorem warningsAndResetsStopTheDevice : Obligations.WarningsAndResetsStopTheDevice := by
  intro s c cause off hs hst hcase down
  have hf := State.failActions_fails hst cause off
  obtain ⟨u, hu⟩ : ∃ u, u = if cause = .powerLoss then (s.failActions cause off).completeOpt s.pw.standbyOrder .wrongState 0x506
      else s.failActions cause off := ⟨_, rfl⟩
  have he : exec c s = .next (publish s { u with pw := s.pw.failed c cause }) := by
    rw [hu]
    rcases hcase with ⟨rfl, rfl, rfl, hh⟩ | ⟨rfl, rfl, rfl⟩ | ⟨rfl, hp, rfl, rfl⟩
    · exact exec_powerFailWarning hs hst hh
    · exact exec_reset (k := .resetPin) hst (event_steady (f := fun s => s.deviceReset .resetPin) hs) rfl
    · exact exec_reset (k := .resetRegister) hst ((event_onPort hs hp _).trans rfl) rfl
  generalize s.failActions cause off = x at hf hu
  obtain ⟨htold, hpw, hvalve, hmotor, hqueue, hstate, hsettle, hsale, hroff, hcause, hhalt, hstore, hstale, hframe⟩ := hf
  have hframeu : u = { x with mem := u.mem, port := u.port } := by
    have hx := (x.completeOpt_onlyTold s.pw.standbyOrder .wrongState 0x506).frame
    rw [hu]
    split
    · generalize x.completeOpt s.pw.standbyOrder .wrongState 0x506 = y at hx
      rw [hx]
    · rfl
  have hret : u.ret = { s.ret with sides := x.ret.sides } :=
    (show u.ret = x.ret by rw [hframeu]).trans (congrArg State.ret hframe)
  have hfp (d : Side) : u.fpState d = s.cutState d := by rw [← hstate, hframeu]; rfl
  have hus (d : Side) : u.sale d = s.cutSale d cause := by rw [← hsale, hframeu]; rfl
  have hin {d : Side} (hd : (s.fpState d).endable = true) : s.inSale d = true := by
    revert hd
    unfold State.inSale
    cases s.fpState d <;> first | exact fun _ => rfl | exact nofun
  refine ⟨_, he, rfl, fun v => ?_, fun m => ?_, ?_, fun d hd => ⟨?_, ?_, ?_⟩, fun d hd => ⟨?_, ?_⟩, fun d hd => ⟨?_, ?_⟩, fun d => ?_,
    fun d => ⟨?_, fun hd => ?_⟩, ?_, ?_, ?_, fun d hc hsh hn => ?_, ?_, ?_, ?_, ?_, ?_⟩
  · exact (show u.valve v = x.valve v by rw [hframeu]; rfl).trans (hvalve v)
  · have hm : u.motor m = x.motor m := by rw [hframeu]; rfl
    have hstill := hmotor m
    change (u.motor m).state = _ ∨ (u.motor m).state = _
    rw [hm]
    revert hstill
    cases (x.motor m).state <;> simp [MotorState.still]
  · exact (show u.mot.queue = x.mot.queue by rw [hframeu]).trans hqueue
  · exact (hfp d).trans (if_pos (hin hd))
  · exact congrArg Sale.status ((hus d).trans (if_pos (hin hd)))
  · refine (congrArg Sale.endCause ((hus d).trans (if_pos (hin hd)))).trans ?_
    rw [if_pos hd]
  · exact (hfp d).trans (if_pos (by rw [State.inSale, hd]; rfl))
  · refine (hus d).trans ((if_pos (by rw [State.inSale, hd]; rfl)).trans ?_)
    rw [hd]
    rfl
  · exact (hfp d).trans (if_neg (by rw [hd]; nofun))
  · exact (hus d).trans (if_neg (by rw [hd]; nofun))
  · exact (show (u.fp.get d).settle = (x.fp.get d).settle by rw [hframeu]).trans (hsettle d)
  · exact (show (u.rdr.get d).state = (x.rdr.get d).state by rw [hframeu]).trans (hroff d)
  · exact (show (u.rdr.get d).cause = (x.rdr.get d).cause by rw [hframeu]).trans (hcause d hd)
  · exact (show u.halt = x.halt by rw [hframeu]).trans hhalt
  · exact (show u.store = x.store by rw [hframeu]).trans hstore
  · intro dropped told fs
    have hdropped : s.OnlyTold dropped := (s.sendsDropped_onlyTold .a off).trans (State.sendsDropped_onlyTold _ .b off)
    have hboth : u.Told told (flagsOf (.power :: ((if s.halt.halted then [.halt] else []) ++ s.changeFlags x))) ∧ s.OnlyTold told := by
      rw [hu]
      change State.Told _ (match s.pw.standbyOrder with
        | some r => if cause = .powerLoss then dropped.complete r .wrongState 0x506 else dropped
        | none => dropped) _ ∧ State.OnlyTold s (match s.pw.standbyOrder with
        | some r => if cause = .powerLoss then dropped.complete r .wrongState 0x506 else dropped
        | none => dropped)
      cases s.pw.standbyOrder with
      | none => exact ⟨by split <;> exact htold, hdropped⟩
      | some r =>
        dsimp only
        split
        · exact ⟨htold.complete r .wrongState 0x506, hdropped.trans (dropped.complete_onlyTold ..)⟩
        · exact ⟨htold, hdropped⟩
    obtain ⟨hmem, -, hport⟩ := hboth.1
    have hflags : s.changeFlags x = s.changeFlags u := by rw [hframeu]; rfl
    have htport : told.port = { s.port with attn := told.port.attn } := congrArg State.port hboth.2.frame
    rw [hflags] at hport
    refine ⟨hmem, hport.trans ?_⟩
    generalize told.port = p at htport ⊢
    obtain ⟨attn, rfl⟩ : ∃ attn, p = { s.port with attn := attn } := ⟨_, htport⟩
    rfl
  · exact (show u.head (saleRole d) = x.head (saleRole d) by rw [hframeu]; rfl) ▸ hstale d hc hsh hn
  · change u.ret.meters = _
    rw [hret]
  · change u.ret.appliedArea = _
    rw [hret]
  · change u.ret.pendingArea = _
    rw [hret]
  · change u.ret.marks = _
    rw [hret]
  · obtain ⟨mem, port, rfl⟩ : ∃ mem port, u = { x with mem := mem, port := port } := ⟨_, _, hframeu⟩
    clear hus hfp hframeu hret hu he
    obtain ⟨pw, sides, fp, met, vlv, mot, disp, rdr, halt, store, mem', port', rev, rfl⟩ :
        ∃ pw sides fp met vlv mot disp rdr halt store mem port rev, x = { s with
          pw := pw, ret := { s.ret with sides := sides }, fp := fp, met := met, vlv := vlv, mot := mot, disp := disp, rdr := rdr
          halt := halt, store := store, mem := mem, port := port, rev := rev } := ⟨_, _, _, _, _, _, _, _, _, _, _, _, _, hframe⟩
    rfl

end Sys2Proof.Machine
end

section
/-! PROOFS. A fueling point that locks, and the halt condition (R23, R25, R51, R144, R145). -/

namespace Sys2Proof.Machine

/-! ## A fueling point locks (R25, R51) -/

/-- The lock-flow measure as a lock of a cause is noted (R51). -/
def FuelPoint.lockNoted (f : FuelPoint) (c : Cause) : FuelPoint :=
  if c = .unauthFlow then { f with lockFlow := some 0, lockFlowMade := false } else f

/-- The lock in retention memory, the state of the fueling point still standing. -/
def State.lockNoted (s : State) (d : Side) (c : Cause) : State := { s with
  fp := s.fp.set d ((s.fp.get d).lockNoted c)
  ret := { s.ret with sides := s.ret.sides.set d { s.ret.sides.get d with locked := true, lockCause := some c } }
  rev := s.rev.wroteTo [.side d .lock] }

theorem State.lockFp_eq (s : State) (d : Side) (c : Cause) : s.lockFp d c = (s.lockNoted d c).setFpState d .locked := by
  unfold State.lockFp State.lockNoted FuelPoint.lockNoted
  by_cases hc : c = .unauthFlow
  · simp only [if_pos hc]
    rfl
  · simp only [if_neg hc, Sides.set_get]
    rfl

theorem FuelPoint.lockNoted_state (f : FuelPoint) (c : Cause) : (f.lockNoted c).state = f.state := by
  unfold FuelPoint.lockNoted
  split <;> rfl

theorem State.lockNoted_fpState (s : State) (d : Side) (c : Cause) : (s.lockNoted d c).fpState d = s.fpState d := by
  rw [State.fpState, State.lockNoted, Sides.get_set_same, FuelPoint.lockNoted_state]
  rfl

/-- What locking leaves alone. -/
theorem State.lockFp_frame (s : State) (d : Side) (c : Cause) : s.lockFp d c = { s with
    fp := s.fp.set d { (s.fp.get d).lockNoted c with state := .locked }
    ret := { s.ret with sides := s.ret.sides.set d { s.ret.sides.get d with locked := true, lockCause := some c } }
    met := (s.lockFp d c).met, port := (s.lockFp d c).port, rev := s.rev.wroteTo [.side d .lock] } := by
  rw [State.lockFp_eq]
  have h := (s.lockNoted d c).setFpState_frame d .locked
  have hset : (s.lockNoted d c).fp.set d { (s.lockNoted d c).fp.get d with state := .locked } =
      s.fp.set d { (s.fp.get d).lockNoted c with state := .locked } := by
    rw [State.lockNoted, Sides.get_set_same, Sides.set_set]
  rw [hset] at h
  generalize (s.lockNoted d c).setFpState d .locked = t at h
  obtain ⟨met, port, rfl⟩ : ∃ met port, t = { s.lockNoted d c with
    fp := s.fp.set d { (s.fp.get d).lockNoted c with state := .locked }, met := met, port := port } := ⟨_, _, h⟩
  rfl

theorem State.lockFp_port {s : State} {d : Side} (h : s.fpState d ≠ .locked) (c : Cause) :
    (s.lockFp d c).port = { s.port with attn := s.port.attn ||| (fpFlag d).mask } := by
  rw [State.lockFp_eq, State.setFpState_port, if_neg (by rw [State.lockNoted_fpState]; exact h)]
  rfl

theorem State.lockFp_meter {s : State} {d : Side} (h : s.fpState d ≠ .locked) (c : Cause) (p : Product) :
    (s.lockFp d c).meter ⟨d, p⟩ = (s.meter ⟨d, p⟩).under .unassigned := by
  rw [State.lockFp_eq, State.setFpState_meter _ _ _ _ (by rw [State.lockNoted_fpState]; exact h), if_pos rfl]
  rfl

theorem State.lockFp_otherMet (s : State) (d : Side) (c : Cause) : (s.lockFp d c).met.get d.other = s.met.get d.other := by
  rw [State.lockFp_eq, State.setFpState_met_other]
  rfl

/-! ## HALT reaches a fueling point (R23, R144 step 5) -/

/-- The fueling point of a side as HALT leaves it. -/
def State.haltedFp (s : State) (d : Side) : FuelPoint := match s.fpState d with
  | .starting | .fueling | .paused => (s.fp.get d).ended (s.sale d).volume
  | .settling | .locked => s.fp.get d
  | .authorized => { s.fp.get d with state := .locked, auth := none, refused := none, expiry := none
                                     lastEnd := some { kind := .authEnded, cause := .halt, number := 0, time := s.rtc } }
  | _ => { s.fp.get d with state := .locked }

/-- What retention memory holds of a side as HALT leaves it. -/
def State.haltedSide (s : State) (d : Side) : RetSide := match s.fpState d with
  | .starting | .fueling | .paused => { s.ret.sides.get d with sale := { s.sale d with endCause := some .halt } }
  | .settling => { s.ret.sides.get d with sale := { s.sale d with
      endCause := some .halt
      firstCause := if (s.sale d).endCause.any Cause.isLock then (s.sale d).endCause else (s.sale d).firstCause } }
  | .locked => s.ret.sides.get d
  | _ => { s.ret.sides.get d with locked := true, lockCause := some .halt }

/-- A meter as HALT leaves it. -/
def State.haltedMeter (s : State) (m : Meter) : Channel := match s.fpState m.side with
  | .starting | .fueling | .paused => (s.meter m).under ((s.sale m.side).claims m.product)
  | .settling | .locked => s.meter m
  | _ => (s.meter m).under .unassigned

/-- The flag of a fueling point that HALT reaches. -/
def State.haltFlags (s : State) (d : Side) : List Attn := if s.fpState d = .settling ∨ s.fpState d = .locked then [] else [fpFlag d]

/-- The motors as HALT leaves them, standing still. -/
def State.haltedMotors (s : State) (d : Side) : Motors :=
  { s.mot with recs := s.mot.recs.map (fun r => { r with demand := r.demand.set d (!(s.fpState d).endable && r.demand.get d) }) }

/-- HALT reached the fueling point of side `d` between `s` and `t`, the drives standing still and the side's valves shut. -/
structure State.HaltReaches (s t : State) (d : Side) : Prop where
  fp : t.fp = s.fp.set d (s.haltedFp d)
  ret : t.ret = { s.ret with sides := s.ret.sides.set d (s.haltedSide d) }
  meters : ∀ p, t.meter ⟨d, p⟩ = s.haltedMeter ⟨d, p⟩
  otherMet : t.met.get d.other = s.met.get d.other
  port : t.port = { s.port with attn := s.port.attn ||| flagsOf (s.haltFlags d) }
  vlv : t.vlv = s.vlv
  mot : t.mot = s.haltedMotors d
  frame : t = { s with fp := t.fp, ret := t.ret, met := t.met, port := t.port, vlv := t.vlv, mot := t.mot, rev := t.rev }

theorem State.haltedMotors_kept {s : State} {d : Side} (h : (s.fpState d).endable = false) : s.haltedMotors d = s.mot := by
  have hr (r : MotorRec) : ({ r with demand := r.demand.set d (!(s.fpState d).endable && r.demand.get d) } : MotorRec) = r := by
    rw [h, Bool.not_false, Bool.true_and, Sides.set_get]
  unfold State.haltedMotors
  simp only [hr]
  rfl

theorem State.endSale_haltReaches {s : State} {d : Side} (h : (s.fpState d).endable = true) (hv : (s.vlv.get d).halted = s.vlv.get d)
    (hm : ∀ m, (s.motor m).state.still = true) : s.HaltReaches (s.endSale d .halt) d := by
  have hns := FpState.endable_ne_settling h
  have hends := s.endSale_ends d .halt hns
  have hport := s.endSale_port d .halt hns
  have hmot := State.endSale_mot hm d .halt
  have hframe := s.endSale_frame d .halt
  generalize s.endSale d .halt = t at *
  refine ⟨?_, ?_, fun p => ?_, hends.otherMet, ?_, ?_, ?_, hframe⟩
  · rw [hends.fp]
    unfold State.haltedFp
    revert h
    cases s.fpState d <;> first | exact fun _ => rfl | exact nofun
  · rw [hends.ret]
    unfold State.haltedSide
    revert h
    cases s.fpState d <;> first | exact fun _ => rfl | exact nofun
  · rw [hends.meters]
    unfold State.haltedMeter
    dsimp only
    revert h
    cases s.fpState d <;> first | exact fun _ => rfl | exact nofun
  · rw [hport, State.haltFlags, if_neg, flagsOf_one]
    rintro (hc | hc) <;> rw [hc] at h <;> cases h
  · rw [hends.valves]
    refine Eq.trans (congrArg (s.vlv.set d) hv) ?_
    exact Sides.set_get ..
  · rw [hmot, State.haltedMotors, h]
    rfl

theorem State.locked_haltReaches {s : State} {d : Side} (hd : s.fpState d ≠ .locked) (hs : s.fpState d ≠ .settling)
    (hfp : s.haltedFp d = { s.fp.get d with state := .locked })
    (hside : s.haltedSide d = { s.ret.sides.get d with locked := true, lockCause := some .halt })
    (hmeter : ∀ p, s.haltedMeter ⟨d, p⟩ = (s.meter ⟨d, p⟩).under .unassigned) (he : (s.fpState d).endable = false) :
    s.HaltReaches (s.lockFp d .halt) d := by
  have hframe := s.lockFp_frame d .halt
  have hport := State.lockFp_port hd .halt
  have hmet := State.lockFp_meter hd .halt
  have hother := s.lockFp_otherMet d .halt
  generalize s.lockFp d .halt = t at *
  refine ⟨?_, ?_, fun p => by rw [hmet, hmeter], hother, ?_, ?_, ?_, ?_⟩
  · rw [hframe, hfp]
    rfl
  · rw [hframe, hside]
  · rw [hport, State.haltFlags, if_neg (not_or.mpr ⟨hs, hd⟩), flagsOf_one]
  · rw [hframe]
  · rw [hframe, State.haltedMotors_kept he]
  · obtain ⟨met, port, rfl⟩ : ∃ met port, t = { s with
      fp := s.fp.set d { (s.fp.get d).lockNoted .halt with state := .locked }
      ret := { s.ret with sides := s.ret.sides.set d { s.ret.sides.get d with locked := true, lockCause := some .halt } }
      met := met, port := port, rev := s.rev.wroteTo [.side d .lock] } := ⟨_, _, hframe⟩
    rfl

/-- HALT ends an authorization (R12, R144). -/
theorem State.endAuth_haltReaches {s : State} {d : Side} (h : s.fpState d = .authorized) :
    s.HaltReaches ((s.endAuth d .halt).lockFp d .halt) d := by
  obtain ⟨x, hx⟩ : ∃ x, x = s.endAuth d .halt := ⟨_, rfl⟩
  have hxframe := hx.trans (State.endAuth_frame s d .halt)
  have hd : x.fpState d ≠ .locked := by rw [hx, State.endAuth_fpState, h]; nofun
  have hframe := x.lockFp_frame d .halt
  have hport := State.lockFp_port hd .halt
  have hmet := State.lockFp_meter hd .halt
  have hother := x.lockFp_otherMet d .halt
  rw [← hx]
  generalize x.lockFp d .halt = t at *
  clear hx hd
  have hxfp : x.fp = s.fp.set d { s.fp.get d with
      auth := none, refused := none, expiry := none, lastEnd := some { kind := .authEnded, cause := .halt, number := 0, time := s.rtc } } := by
    rw [hxframe]
  have hxport : x.port = { s.port with attn := s.port.attn ||| (fpFlag d).mask } := by rw [hxframe]
  refine ⟨?_, ?_, fun p => ?_, ?_, ?_, ?_, ?_, ?_⟩
  · have hfp : t.fp = x.fp.set d { (x.fp.get d).lockNoted .halt with state := .locked } := by rw [hframe]
    rw [hfp, hxfp, Sides.get_set_same, Sides.set_set, State.haltedFp, h]
    rfl
  · rw [State.haltedSide, h, hframe, hxframe]
  · rw [hmet, State.haltedMeter, h, hxframe]
    rfl
  · rw [hother, hxframe]
  · have hn : ¬ (s.fpState d = .settling ∨ s.fpState d = .locked) := by rw [h]; rintro (hc | hc) <;> cases hc
    rw [State.haltFlags, if_neg hn, flagsOf_one, hport, hxport]
    exact congrArg (fun a => ({ s.port with attn := a } : Port)) (by rw [BitVec.or_assoc, BitVec.or_self])
  · rw [hframe, hxframe]
  · rw [State.haltedMotors_kept (by rw [h]; rfl), hframe, hxframe]
  · obtain ⟨fp, ret, met, port, rev, rfl⟩ : ∃ fp ret met port rev, t = { x with fp := fp, ret := ret, met := met, port := port, rev := rev } :=
      ⟨_, _, _, _, _, hframe⟩
    rw [hxframe]

/-- HALT at a sale in SETTLING (R23). -/
theorem State.settling_haltReaches {s : State} {d : Side} (h : s.fpState d = .settling) :
    s.HaltReaches (s.updSale d (s.sale d).haltParts Sale.takeHalt) d := by
  have hfirst (x : Sale) : x.takeHalt = { x with
      endCause := some .halt, firstCause := if x.endCause.any Cause.isLock then x.endCause else x.firstCause } := by
    unfold Sale.takeHalt
    cases x.endCause with
    | none => rfl
    | some e => rfl
  refine ⟨?_, ?_, fun p => ?_, rfl, ?_, rfl, ?_, rfl⟩
  · rw [State.haltedFp, h]
    exact (Sides.set_get ..).symm
  · rw [State.haltedSide, h, State.updSale_ret, hfirst]
    rfl
  · rw [State.haltedMeter, h]
    rfl
  · rw [State.haltFlags, if_pos (.inl h)]
    exact congrArg (fun a => ({ s.port with attn := a } : Port)) BitVec.or_zero.symm
  · exact (State.haltedMotors_kept (s := s) (by rw [h]; rfl)).symm

theorem State.haltFp_reaches {s : State} {d : Side} (hv : (s.vlv.get d).halted = s.vlv.get d) (hm : ∀ m, (s.motor m).state.still = true) :
    s.HaltReaches (s.haltFp d) d := by
  have locks {st : FpState} (h : s.fpState d = st) (hl : st = .unavailable ∨ st = .idle ∨ st = .calling ∨ st = .finished) :
      s.HaltReaches (s.lockFp d .halt) d := by
    rcases hl with rfl | rfl | rfl | rfl
    all_goals
      exact State.locked_haltReaches (h ▸ nofun) (h ▸ nofun) (by rw [State.haltedFp, h]) (by rw [State.haltedSide, h])
        (fun p => by rw [State.haltedMeter, h]) (by rw [h]; rfl)
  unfold State.haltFp
  split
  iterate 3
    rename_i h
    exact State.endSale_haltReaches (by rw [h]; rfl) hv hm
  · exact State.settling_haltReaches ‹_›
  · exact State.endAuth_haltReaches ‹_›
  iterate 4
    rename_i h
    exact locks h (by simp)
  · rename_i h
    refine ⟨?_, ?_, fun p => ?_, rfl, ?_, rfl, ?_, rfl⟩
    · rw [State.haltedFp, h]
      exact (Sides.set_get ..).symm
    · rw [State.haltedSide, h]
      exact congrArg (fun x => ({ s.ret with sides := x } : Retention)) (Sides.set_get ..).symm
    · rw [State.haltedMeter, h]
    · rw [State.haltFlags, if_pos (.inr h)]
      exact congrArg (fun a => ({ s.port with attn := a } : Port)) BitVec.or_zero.symm
    · exact (State.haltedMotors_kept (by rw [h]; rfl)).symm

/-! ## The halt condition is entered (R144) -/

/-- The drives and the halt record as the halt condition is entered. -/
theorem State.haltDrives_frame {s : State} {r : HaltReport} (hr : r.code ≠ .calibrationMismatch ∨ s.store.reloading = true ∨ s.store.reloadDue = true) :
    s.haltDrives r = { s with
      pw := { s.pw with state := .halted }, vlv := s.closeAll.vlv, mot := { recs := s.mot.recs.map MotorRec.stopped, queue := [] }
      halt := { s.halt with code := some r.code, time := s.rtc, first := r.first, second := r.second, flow := r.flow
                            reload := s.halt.reload || decide (r.code = .calibrationMismatch), halted := true } } := by
  obtain ⟨x, hx⟩ : ∃ x, x = (s.writeHaltRecord r).updPower (fun p => { p with state := .halted }) := ⟨_, rfl⟩
  have hmark : (if r.code = .calibrationMismatch then x.updStore StorePort.markReload else x) = x := by
    split
    · rename_i hc
      have hst : x.store.markReload = x.store := by
        rw [hx]
        unfold StorePort.markReload
        split
        · rfl
        · rename_i hl
          have hdue : s.store.reloadDue = true := hr.elim (fun h => absurd hc h) (fun h => h.elim (fun h => absurd h hl) id)
          change { s.store with reloadDue := true } = s.store
          rw [← hdue]
      exact congrArg (fun y => ({ x with store := y } : State)) hst
    · rfl
  unfold State.haltDrives
  dsimp only
  rw [← hx, hmark, x.closeAll_frame, hx]
  rfl

/-- HALT reached both fueling points between `y` and `t`. -/
structure State.HaltReachesBoth (y t : State) : Prop where
  fp : ∀ d, t.fp.get d = y.haltedFp d
  side : ∀ d, t.ret.sides.get d = y.haltedSide d
  meters : ∀ m, t.meter m = y.haltedMeter m
  port : t.port = { y.port with attn := y.port.attn ||| (flagsOf (y.haltFlags .a) ||| flagsOf (y.haltFlags .b)) }
  vlv : t.vlv = y.vlv
  queue : t.mot.queue = y.mot.queue
  motors : ∀ m, t.motor m =
    { y.motor m with demand := ⟨!(y.fpState .a).endable && (y.motor m).demand.a, !(y.fpState .b).endable && (y.motor m).demand.b⟩ }
  frame : t = { y with fp := t.fp, ret := { y.ret with sides := t.ret.sides }, met := t.met, port := t.port, vlv := t.vlv, mot := t.mot
                       rev := t.rev }

theorem State.HaltReaches.motor {s t : State} {d : Side} (h : s.HaltReaches t d) (m : Product) : t.motor m =
    { s.motor m with demand := (s.motor m).demand.set d (!(s.fpState d).endable && (s.motor m).demand.get d) } := by
  rw [State.motor, h.mot]
  exact Three.map_get ..

theorem State.HaltReaches.both {y x t : State} (ha : y.HaltReaches x .a) (hb : x.HaltReaches t .b) : y.HaltReachesBoth t := by
  have hxfp : x.fp.get .b = y.fp.get .b := by rw [ha.fp]; rfl
  have hxside : x.ret.sides.get .b = y.ret.sides.get .b := by rw [ha.ret]; rfl
  have hxmet : x.met.get .b = y.met.get .b := ha.otherMet
  have hxst : x.fpState .b = y.fpState .b := congrArg FuelPoint.state hxfp
  have hxrtc : x.rtc = y.rtc := by rw [ha.frame]
  refine ⟨fun d => ?_, fun d => ?_, fun m => ?_, ?_, hb.vlv.trans ha.vlv, ?_, fun m => ?_, ?_⟩
  · rw [hb.fp, ha.fp]
    cases d
    · rfl
    · change x.haltedFp .b = _
      rw [State.haltedFp, State.haltedFp, hxst, hxfp, State.sale, hxside, hxrtc]
      rfl
  · rw [hb.ret, ha.ret]
    cases d
    · rfl
    · change x.haltedSide .b = _
      rw [State.haltedSide, State.haltedSide, hxst, State.sale, hxside]
      rfl
  · obtain ⟨d, p⟩ := m
    cases d
    · have hoth : t.met.get .a = x.met.get .a := hb.otherMet
      exact (show t.meter ⟨.a, p⟩ = x.meter ⟨.a, p⟩ by rw [State.meter, hoth]; rfl).trans (ha.meters p)
    · rw [hb.meters]
      unfold State.haltedMeter State.meter State.sale
      dsimp only
      rw [hxst, hxmet, hxside]
  · have hflags : x.haltFlags .b = y.haltFlags .b := by rw [State.haltFlags, hxst]; rfl
    rw [hb.port, ha.port, hflags]
    exact congrArg (fun a => ({ y.port with attn := a } : Port)) (BitVec.or_assoc ..)
  · rw [hb.mot, State.haltedMotors, ha.mot]
    rfl
  · rw [hb.motor, ha.motor, hxst]
    rfl
  · have hframe := hb.frame
    have hret : t.ret = { x.ret with sides := t.ret.sides } := by rw [hb.ret]
    have hxret : x.ret = { y.ret with sides := x.ret.sides } := by rw [ha.ret]
    obtain ⟨fp, ret, met, port, vlv, mot, rev, rfl⟩ : ∃ fp ret met port vlv mot rev, t = { x with
      fp := fp, ret := ret, met := met, port := port, vlv := vlv, mot := mot, rev := rev } := ⟨_, _, _, _, _, _, _, hframe⟩
    have hret' : ret = { y.ret with sides := ret.sides } := hret.trans (by rw [hxret])
    rw [ha.frame, ← hret']

/-- The flags of HALT at both fueling points. -/
theorem State.haltFlags_both (s : State) : flagsOf (.halt :: ((if s.fpState .a = .settling ∨ s.fpState .a = .locked then [] else [.fpA])
    ++ (if s.fpState .b = .settling ∨ s.fpState .b = .locked then [] else [.fpB]))) =
      flagsOf (s.haltFlags .a) ||| flagsOf (s.haltFlags .b) ||| Attn.halt.mask := by
  rw [flagsOf_cons, flagsOf_append, BitVec.or_comm]
  rfl

theorem State.enterHalt_halts {s : State} {r : HaltReport}
    (hr : r.code ≠ .calibrationMismatch ∨ s.store.reloading = true ∨ s.store.reloadDue = true) : s.Halts (s.enterHalt r) r := by
  rw [State.enterHalt_eq]
  have hdrives := State.haltDrives_frame hr
  have hshut (d : Side) : (s.closeAll.vlv.get d) = (s.vlv.get d).halted := by cases d <;> rfl
  generalize s.haltDrives r = y at hdrives
  have hyv (d : Side) : (y.vlv.get d).halted = y.vlv.get d := by
    rw [hdrives, hshut]
    rfl
  have hymotor (m : Product) : y.motor m = (s.motor m).stopped := by rw [State.motor, hdrives]; exact Three.map_get ..
  have hym (m : Product) : (y.motor m).state.still = true := by
    rw [hymotor]
    exact MotorRec.stopped_still _
  have ha := State.haltFp_reaches (hyv .a) hym
  generalize y.haltFp .a = x at ha
  have hxm (m : Product) : (x.motor m).state.still = true := by
    rw [ha.motor]
    exact hym m
  have hboth := ha.both (State.haltFp_reaches (d := .b) (by rw [ha.vlv]; exact hyv .b) hxm)
  generalize x.haltFp .b = t at hboth
  clear ha hxm
  have hst (d : Side) : y.fpState d = s.fpState d := by rw [hdrives]; rfl
  obtain ⟨hfp, hside, hmeters, hport, hvlv, hqueue, hmotors, hframe⟩ := hboth
  refine ⟨?_, ?_, fun d => ?_, ?_, fun m => ?_, fun d => ?_, fun d => ?_, fun m => ?_, ?_, ?_⟩
  · change t.pw = _
    rw [hframe, hdrives]
  · change t.halt = _
    rw [hframe, hdrives]
  · change t.vlv.get d = _
    rw [hvlv, hdrives]
    exact hshut d
  · change t.mot.queue = _
    rw [hqueue, hdrives]
  · change t.motor m = _
    rw [hmotors, hymotor, hst, hst]
    unfold MotorRec.stopped
    split <;> rfl
  · exact (hfp d).trans (by rw [hdrives]; rfl)
  · exact (hside d).trans (by rw [hdrives]; rfl)
  · exact (hmeters m).trans (by rw [hdrives]; rfl)
  · have hya (d : Side) : y.haltFlags d = s.haltFlags d := by rw [hdrives]; rfl
    have hyport : y.port = s.port := by rw [hdrives]
    rw [State.attn_port, hport, hya, hya, hyport, State.haltFlags_both]
    exact congrArg (fun a => ({ s.port with attn := a } : Port)) (BitVec.or_assoc ..)
  · obtain ⟨fp, sides, met, port, vlv, mot, rev, rfl⟩ : ∃ fp sides met port vlv mot rev, t = { y with
      fp := fp, ret := { y.ret with sides := sides }, met := met, port := port, vlv := vlv, mot := mot, rev := rev } :=
        ⟨_, _, _, _, _, _, _, hframe⟩
    rw [hdrives]
    rfl

end Sys2Proof.Machine
end

section
/-! PROOFS. PULSER_FAULT, the replacement of a cause, a second fault, and both sides (R21, R23, R35, R139 to R145). -/

namespace Sys2Proof.Machine

/-! ## A report that halts the device (R143) -/

theorem State.Halts.publish {s t : State} {r : HaltReport} (h : s.Halts t r) (b : State) : s.Halts (publish b t) r := by
  obtain ⟨hpw, hhalt, hvalves, hqueue, hmotors, hfp, hsides, hmeters, hport, hothers⟩ := h
  refine ⟨hpw, hhalt, hvalves, hqueue, hmotors, hfp, hsides, hmeters, hport, ?_⟩
  obtain ⟨pw, halt, vlv, mot, fp, sides, met, port, rev, rfl⟩ : ∃ pw halt vlv mot fp sides met port rev, t = { s with
    pw := pw, halt := halt, vlv := vlv, mot := mot, fp := fp, ret := { s.ret with sides := sides }, met := met, port := port, rev := rev } :=
      ⟨_, _, _, _, _, _, _, _, _, hothers⟩
  rfl

/-- A halt code but CALIBRATION_MISMATCH that is reported while the device is ACTIVE halts it (R143). -/
theorem State.reportHalt_halts {s : State} {r : HaltReport} (h : s.pw.state = .active) (hr : r.code ≠ .calibrationMismatch) :
    s.Halts (s.reportHalt r) r := by
  rw [State.reportHalt, h]
  exact State.enterHalt_halts (.inl hr)

theorem State.reportsMade_active {s : State} (h : s.pw.state = .active) : s.reportsMade = true := by
  rw [State.reportsMade, h]

/-- A LOCK-class cause in SETTLING against a LOCK-class end cause (R23, R140). -/
theorem State.takeCause_second {s : State} {d : Side} {c e : Cause} (hc : c.isLock = true) (hd : s.fpState d = .settling)
    (he : (s.sale d).endCause = some e) (hel : e.isLock = true) (ha : s.pw.state = .active) :
    s.Halts (s.takeCause d c) ⟨.secondFault, some ⟨d, e⟩, some ⟨d, c⟩, 0⟩ := by
  have htake : s.takeCause d c = s.reportHalt ⟨.secondFault, some ⟨d, e⟩, some ⟨d, c⟩, 0⟩ := by
    unfold State.takeCause State.settlingLock
    simp only [hd, hc, he, hel, if_true]
    rfl
  rw [htake]
  exact State.reportHalt_halts ha nofun

/-- What the other side gives to a report (R141). -/
theorem State.lockPair_gives {s : State} {o : Side} {k : Cause} (h : (s.fpState o = .locked ∧ (s.ret.sides.get o).lockCause = some k)
    ∨ (s.fpState o = .settling ∧ (s.sale o).endCause = some k ∧ k.isLock = true)) : s.lockPair o = some ⟨o, k⟩ := by
  unfold State.lockPair
  rcases h with ⟨hl, hk⟩ | ⟨hs, hk, hlock⟩
  · rw [hl, hk]
    rfl
  · rw [hs, hk]
    exact if_pos hlock

theorem State.takeCause_both {s : State} {d : Side} {c : Cause} {p : CausePair} (hc : c.isLock = true) (hd : (s.fpState d).endable = true)
    (hp : (s.endSale d c).lockPair d.other = some p) :
    s.takeCause d c = (s.endSale d c).reportHalt ⟨.bothSides, some p, some ⟨d, c⟩, 0⟩ := by
  have hreport : (s.endSale d c).reportLock d c = (s.endSale d c).reportHalt ⟨.bothSides, some p, some ⟨d, c⟩, 0⟩ := by
    rw [State.reportLock, hp]
  unfold State.takeCause
  dsimp only
  rw [hreport, if_pos hc]
  revert hd
  cases s.fpState d <;> first | exact fun _ => rfl | exact nofun

/-! ## The limits of the pulser (R35) -/

/-- A channel whose limit was passed, as the pulse or the transition `c` leaves it. -/
def Channel.faulted (x : Channel) (m : Meter) (c : Instr) : Channel :=
  if c = .reversePulse m then
    { x with phase := pairBefore x.phase, position := 0, pendingRev := 51, quietAny := some 2000, pulserMade := true }
  else { x with phase := ⟨!x.phase.chA, !x.phase.chB⟩, position := 0, illegal := 4, pulserMade := true }

theorem State.pulserFault_reports {s : State} {m : Meter} (ha : (s.meter m).attr = .sale) (hm : (s.meter m).pulserMade = false)
    (hp : s.pw.state = .active) : s.pulserFault m = (s.updMeter m (fun c => { c with pulserMade := true })).takeCause m.side .pulserFault := by
  unfold State.pulserFault
  rw [if_pos ⟨ha, hm⟩]
  exact if_pos (State.reportsMade_active hp)

theorem State.updMeter_const (s : State) (m : Meter) (f : Channel → Channel) :
    s.updMeter m f = { s with met := s.met.set m.side ((s.met.get m.side).set m.product (f (s.meter m))) } := rfl

/-- The step whose pulse or transition passes a limit: PULSER_FAULT reaches the fueling point. -/
theorem exec_pulserFault {s : State} {m : Meter} {c : Instr} (hs : s.steady) (hd : s.pw.decoding = true) (ha : (s.meter m).attr = .sale)
    (hm : (s.meter m).pulserMade = false) (hp : s.pw.state = .active)
    (hc : (c = .reversePulse m ∧ (s.meter m).pendingRev = 50) ∨ (c = .illegalTransition m ∧ (s.meter m).illegal = 3)) :
    exec c s = .next (publish s (({ s with
      met := s.met.set m.side ((s.met.get m.side).set m.product ((s.meter m).faulted m c)) } : State).takeCause m.side .pulserFault)) := by
  have himm (f : Channel → Channel) (hf : f (s.meter m) = (s.meter m).faulted m c) :
      s.updMeter m f = { s with met := s.met.set m.side ((s.met.get m.side).set m.product ((s.meter m).faulted m c)) } := by
    rw [State.updMeter_const, hf]
  rcases hc with ⟨rfl, hl⟩ | ⟨rfl, hl⟩
  · have he : exec (.reversePulse m) s
        = .next (publish s ((s.updMeter m (fun c => { c with phase := pairBefore c.phase, position := 0 })).backward m)) := event_decoded hs hd
    rw [he, State.backward, State.updMeter_updMeter]
    dsimp only
    rw [State.updMeter_meter, if_pos (by simp [hl]), State.pulserFault_reports (by rw [State.updMeter_meter]; exact ha)
      (by rw [State.updMeter_meter]; exact hm) (by exact hp), State.updMeter_updMeter, himm]
    rw [Channel.faulted, if_pos rfl]
    simp only [Channel.pulseTaken, hl, ha]
    rfl
  · have he : exec (.illegalTransition m) s = .next (publish s (s.illegal m)) := event_decoded hs hd
    rw [he, State.illegal]
    rw [State.updMeter_meter, if_pos (by simp [hl, ha]), State.pulserFault_reports (by rw [State.updMeter_meter]; exact ha)
      (by rw [State.updMeter_meter]; exact hm) (by exact hp), State.updMeter_updMeter, himm]
    have hfault : (s.meter m).faulted m (.illegalTransition m) = { s.meter m with
        phase := ⟨!(s.meter m).phase.chA, !(s.meter m).phase.chB⟩, position := 0, illegal := 4, pulserMade := true } := if_neg (by simp)
    rw [hfault]
    simp only [hl, ha, if_true]
    rfl

/-! ## Both sides (R141, R144) -/

section both
variable {w u t : State} {d : Side} {r : HaltReport} {c : Cause}

theorem State.kept_of_both (hut : u.fpState d = .settling) (huo : u.fpState d.other = .settling ∨ u.fpState d.other = .locked) (e : Side) :
    u.fpState e = .settling ∨ u.fpState e = .locked := by
  rcases Side.eq_or_other d e with rfl | rfl
  · exact .inl hut
  · exact huo

/-- A halt that finds both sides SETTLING or LOCKED leaves the fueling points alone. -/
theorem State.Halts.keptFp (h : u.Halts t r) (hk : ∀ e, u.fpState e = .settling ∨ u.fpState e = .locked) : t.fp = u.fp :=
  Sides.ext_get fun e => by
    rw [h.fp]
    rcases hk e with he | he <;> rw [he]

theorem State.Halts.keptMet (h : u.Halts t r) (hk : ∀ e, u.fpState e = .settling ∨ u.fpState e = .locked) : t.met = u.met :=
  Sides.ext_get fun e => Three.ext_get fun p => by
    have hm := h.meters ⟨e, p⟩
    dsimp only at hm
    rcases hk e with he | he <;> rw [he] at hm <;> exact hm

theorem State.Halts.keptPort (h : u.Halts t r) (hk : ∀ e, u.fpState e = .settling ∨ u.fpState e = .locked) :
    t.port = { u.port with attn := u.port.attn ||| Attn.halt.mask } := by
  rw [h.port, if_pos (hk .a), if_pos (hk .b)]
  exact congrArg (fun a => ({ u.port with attn := u.port.attn ||| a } : Port)) BitVec.or_zero

theorem State.Halts.settlingSale (h : u.Halts t r) {e : Side} {k : Cause} (he : u.fpState e = .settling) (hc : (u.sale e).endCause = some k)
    (hk : k.isLock = true) : t.sale e = { u.sale e with endCause := some .halt, firstCause := some k } := by
  have hs := h.sides e
  rw [he] at hs
  have hany : (u.sale e).endCause.any Cause.isLock = true := by rw [hc]; exact hk
  have hsale : t.sale e = { u.sale e with
      endCause := some .halt, firstCause := if (u.sale e).endCause.any Cause.isLock then (u.sale e).endCause else (u.sale e).firstCause } :=
    congrArg RetSide.sale hs
  rw [hsale, if_pos hany, hc]

theorem State.Halts.keptSide (h : u.Halts t r) (hk : ∀ e, u.fpState e = .settling ∨ u.fpState e = .locked) (e : Side) :
    t.ret.sides.get e = { u.ret.sides.get e with sale := t.sale e } := by
  have hs := h.sides e
  rcases hk e with he | he <;> rw [he] at hs <;> rw [State.sale, hs]

theorem State.Halts.shut (h : u.Halts t r) (v : Meter) : t.valve v = .shut := by
  rw [State.valve, h.valves]
  exact Three.get_shut _

theorem State.Halts.still (h : u.Halts t r) (q : Product) : (t.motor q).state = .off ∨ (t.motor q).state = .fault := by
  rw [h.motors]
  dsimp only
  split
  · exact .inr ‹_›
  · exact .inl rfl

end both

/-- Settles O23: the cause reaches the fueling point, and what it meets there decides. -/
theorem pulserFaultEndsTheSale : Obligations.PulserFaultEndsTheSale := by
  intro s m c hs hdec hattr hmade hact hc d o x counted w side
  have he : exec c s = .next (publish s (w.takeCause d .pulserFault)) := exec_pulserFault hs hdec hattr hmade hact hc
  have hw : w = { s with met := s.met.set d ((s.met.get d).set m.product counted) } := rfl
  clear_value w
  have hfp (e : Side) : w.fpState e = s.fpState e := by rw [hw]; rfl
  refine ⟨fun hend hl hset => ?_, fun e hset hcause => ⟨fun hlock hl hs' => ?_, fun hlock => ?_⟩, fun k hend hother => ?_⟩
  · rw [State.takeCause_endsAlone (by rw [hfp]; exact hend) (by rw [hfp]; exact hl) (by rw [hfp]; exact hset)] at he
    have hns : w.fpState d ≠ .settling := by rw [hfp]; exact FpState.endable_ne_settling hend
    obtain ⟨t, ht, hends, hport, hframe⟩ := State.endsIn .pulserFault he hns
    refine ⟨t, ht, ?_, ?_, ?_⟩
    · have hf : w.fp.get d = s.fp.get d := by rw [hw]
      exact hf ▸ hends
    · rw [hport, hw, flagsOf_one]
    · obtain ⟨fp, ret, vlv, mot, met, port, rev, rfl⟩ : ∃ fp ret vlv mot met port rev, t = { w with
        fp := fp, ret := ret, vlv := vlv, mot := mot, met := met, port := port, rev := rev } := ⟨_, _, _, _, _, _, _, hframe⟩
      rw [hw]
  · rw [State.takeCause_replaces (e := e) rfl (by rw [hfp]; exact hset) (by rw [hw]; exact hcause) hlock (by rw [hfp]; exact hl)
      (by rw [hfp]; exact hs')] at he
    have hsale : (s.ret.sides.get d).sale.endCause = some e := hcause
    have hret : (w.updSale d [.endCause, .firstCause] (Sale.replaceCause .pulserFault)).ret = { s.ret with
        sides := s.ret.sides.set d { side with sale := { s.sale d with endCause := some .pulserFault, firstCause := some e } } } := by
      rw [State.updSale_ret, hw, Sale.replaceCause]
      dsimp only
      rw [hsale]
      rfl
    refine ⟨_, he, ?_⟩
    rw [← hret]
    rfl
  · exact ⟨_, he, (State.takeCause_second (e := e) rfl (by rw [hfp]; exact hset) (by rw [hw]; exact hcause) hlock (by rw [hw]; exact hact)).publish s⟩
  · have hns : w.fpState d ≠ .settling := by rw [hfp]; exact FpState.endable_ne_settling hend
    have hends := w.endSale_ends d .pulserFault hns
    have hport := w.endSale_port d .pulserFault hns
    have hframe := w.endSale_frame d .pulserFault
    have hstates (e : Side) := State.endSale_fpState w d e .pulserFault
    have huother : (w.endSale d .pulserFault).fpState o = s.fpState o := by rw [hstates, if_neg d.other_ne, hfp]
    have hoside : (w.endSale d .pulserFault).ret.sides.get o = s.ret.sides.get o := by
      rw [hends.ret, hw]
      exact Sides.get_set_other ..
    have hosale : (w.endSale d .pulserFault).sale o = s.sale o := congrArg RetSide.sale hoside
    have hpair : (w.endSale d .pulserFault).lockPair o = some ⟨o, k⟩ := by
      refine State.lockPair_gives ?_
      rw [huother, hoside, hosale]
      exact hother
    rw [State.takeCause_both (p := ⟨o, k⟩) rfl (by rw [hfp]; exact hend) hpair] at he
    generalize w.endSale d .pulserFault = u at *
    have hhalts := State.reportHalt_halts (s := u) (r := ⟨.bothSides, some ⟨o, k⟩, some ⟨d, .pulserFault⟩, 0⟩) (by rw [hframe, hw]; exact hact) nofun
    have hhalts := hhalts.publish s
    refine ⟨_, he, ?_⟩
    generalize publish s (u.reportHalt _) = t at hhalts
    have hut : u.fpState d = .settling := by rw [hstates, if_pos rfl]
    have hkept := State.kept_of_both hut (by rw [huother]; exact hother.elim (fun h => .inr h.1) (fun h => .inl h.1))
    have husale : u.sale d = { s.sale d with endCause := some .pulserFault } := by
      rw [State.sale, hends.ret, hw]
      exact congrArg RetSide.sale (Sides.get_set_same ..)
    have hsd : t.sale d = { s.sale d with endCause := some .halt, firstCause := some .pulserFault } := by
      rw [hhalts.settlingSale hut (by rw [husale]) rfl, husale]
    have hso : t.sale o = if s.fpState o = .settling then { s.sale o with endCause := some .halt, firstCause := some k } else s.sale o := by
      rcases hother with ⟨hl, hk⟩ | ⟨hse, hk, hlock⟩
      · have hside := hhalts.sides o
        rw [huother, hl] at hside
        rw [hl, if_neg nofun, ← hosale]
        exact congrArg RetSide.sale hside
      · rw [hhalts.settlingSale (huother.trans hse) (by rw [hosale]; exact hk) hlock, hosale, if_pos hse]
    refine ⟨?_, ?_, ?_, hsd, hso, hhalts.shut, hhalts.still, hhalts.queue, fun p => ?_, ?_, ?_, ?_⟩
    · rw [hhalts.pw, hframe, hw]
    · rw [hhalts.halt, hframe, hw]
      exact congrArg (fun b => ({ s.halt with
        code := some .bothSides, time := s.rtc, first := some ⟨o, k⟩, second := some ⟨d, .pulserFault⟩, flow := 0
        reload := b, halted := true } : HaltUnit)) (Bool.or_false _)
    · rw [hhalts.keptFp hkept, hends.fp, hw]
      rfl
    · rw [State.meter, hhalts.keptMet hkept]
      refine (hends.meters p).trans ?_
      rw [hw]
      rfl
    · rw [hhalts.keptMet hkept]
      refine hends.otherMet.trans ?_
      rw [hw]
      exact Sides.get_set_other ..
    · rw [hhalts.keptPort hkept, hport, hw]
      refine congrArg (fun a => ({ s.port with attn := a } : Port)) ?_
      simp only [flagsOf_cons, flagsOf_nil]
      rw [BitVec.or_assoc, BitVec.or_comm (fpFlag d).mask]
      exact congrArg (fun a => s.port.attn ||| (Attn.halt.mask ||| a)) BitVec.or_zero.symm
    · have hsides : t.ret.sides = ⟨{ s.ret.sides.a with sale := t.sale .a }, { s.ret.sides.b with sale := t.sale .b }⟩ := by
        have hside (e : Side) : t.ret.sides.get e = { s.ret.sides.get e with sale := t.sale e } := by
          rw [hhalts.keptSide hkept]
          rcases Side.eq_or_other d e with rfl | rfl
          · rw [hends.ret, hw, Sides.get_set_same]
          · rw [hoside]
        exact Sides.ext_get fun e => (hside e).trans (by cases e <;> rfl)
      rw [← hsides]
      have hothers := hhalts.others
      have huret : u.ret = { s.ret with sides := u.ret.sides } := by rw [hends.ret, hw]
      clear hhalts hsd hso hsides he
      obtain ⟨pw, halt, vlv, mot, fp, sides, met, port, rev, rfl⟩ : ∃ pw halt vlv mot fp sides met port rev, t = { u with
        pw := pw, halt := halt, vlv := vlv, mot := mot, fp := fp, ret := { u.ret with sides := sides }, met := met, port := port, rev := rev } :=
          ⟨_, _, _, _, _, _, _, _, _, hothers⟩
      rw [huret, hframe, hw]

end Sys2Proof.Machine
end

section
/-! PROOFS. Counted pulses of an UNASSIGNED meter, and UNAUTH_FLOW (R30, R34, R36, R37, R39, R41, R51, R166). -/

namespace Sys2Proof.Machine

section unassigned
variable {s : State} {m : Meter}

/-- The accumulator of unassigned volume after a counted pulse (R39). -/
def Channel.unSum (c : Channel) : Nat := (c.unAcc + (1000000 + c.correction).toNat) % 2 ^ 64

/-- The volume that a counted pulse of an unassigned meter adds (R39). -/
def Channel.unRise (c : Channel) : Nat := c.unSum / c.k - c.unV

/-- An unassigned meter after a counted pulse (R34, R37, R39). -/
def Channel.unCounted (c : Channel) : Channel :=
  { c with phase := pairAfter c.phase, position := 0, quietAny := some 2000, quietUn := some 2000, unAcc := c.unSum, unV := c.unSum / c.k
           w0 := c.w0 + c.unRise, tally := c.tally + 1 }

/-- The totals of a meter after a rise of its unassigned volume (R41). -/
def Retention.unCounted (r : Retention) (m : Meter) (rise : Nat) : Retention :=
  if 0 < rise then { r with meters := r.meters.set m.side ((r.meters.get m.side).set m.product
    ⟨(((r.meters.get m.side).get m.product).total + rise) % 10 ^ 12, (((r.meters.get m.side).get m.product).unassigned + rise) % 10 ^ 12⟩) }
  else r

/-- The state after a counted pulse of an unassigned meter, its report aside. -/
def State.unCounted (s : State) (m : Meter) : State := { s with
  met := s.met.set m.side ((s.met.get m.side).set m.product (s.meter m).unCounted)
  ret := s.ret.unCounted m (s.meter m).unRise
  pw := { s.pw with resetHold := s.pw.resetHold.map (fun _ => 500) }
  rev := if 0 < (s.meter m).unRise then s.rev.wroteTo [.unassigned m, .total m] else s.rev }

/-- The meter after the volume of an unassigned pulse, before the tally. -/
def Channel.unAdded (c : Channel) : Channel := { c.unCounted with tally := c.tally }

theorem State.unassigned_volume (ha : (s.meter m).attr = .unassigned) (hk : (s.meter m).k ≠ 0) (hl : (s.fp.get m.side).lockFlow = none) :
    (((s.updMeter m (fun c => { c with phase := pairAfter c.phase, position := 0 })).updMeter m Channel.pulseTaken).restartTimers m).countVolume m =
      { s.unCounted m with met := s.met.set m.side ((s.met.get m.side).set m.product (s.meter m).unAdded) } := by
  have htaken : Channel.pulseTaken { s.meter m with phase := pairAfter (s.meter m).phase, position := 0 } =
      { s.meter m with phase := pairAfter (s.meter m).phase, position := 0, quietAny := some 2000, quietUn := some 2000 } := by
    rw [Channel.pulseTaken, if_pos ha]
  obtain ⟨x, hx⟩ : ∃ x, x = { s with
    pw := { s.pw with resetHold := s.pw.resetHold.map (fun _ => 500) }
    met := s.met.set m.side ((s.met.get m.side).set m.product
      { s.meter m with phase := pairAfter (s.meter m).phase, position := 0, quietAny := some 2000, quietUn := some 2000 }) } := ⟨_, rfl⟩
  have hmeter : x.meter m = { s.meter m with phase := pairAfter (s.meter m).phase, position := 0, quietAny := some 2000, quietUn := some 2000 } := by
    rw [hx, State.meter, Sides.get_set_same, Three.get_set_same]
  have hrestart : ((s.updMeter m (fun c => { c with phase := pairAfter c.phase, position := 0 })).updMeter m Channel.pulseTaken).restartTimers m = x := by
    rw [State.updMeter_updMeter, State.updMeter_const, htaken, hx]
    unfold State.restartTimers
    dsimp only
    rw [if_neg]
    · rfl
    · rw [State.meter, Sides.get_set_same, Three.get_set_same]
      exact ha ▸ nofun
  have hkx : (x.meter m).k ≠ 0 := by rw [hmeter]; exact hk
  have hax : (x.meter m).attr = .unassigned := by rw [hmeter]; exact ha
  rw [hrestart]
  unfold State.countVolume
  dsimp only
  rw [if_neg hkx, hax]
  dsimp only
  have hsum : addMicro (x.meter m).unAcc (pulseWeight (x.meter m).correction) = (s.meter m).unSum := by rw [hmeter]; rfl
  have hxk : (x.meter m).k = (s.meter m).k := by rw [hmeter]
  have hxv : (x.meter m).unV = (s.meter m).unV := by rw [hmeter]
  rw [hsum, hxk, hxv]
  obtain ⟨y, hy⟩ : ∃ y : State, y = { s with
    pw := { s.pw with resetHold := s.pw.resetHold.map (fun _ => 500) }
    met := s.met.set m.side ((s.met.get m.side).set m.product (s.meter m).unAdded) } := ⟨_, rfl⟩
  have hadd : x.updMeter m (fun c => { c with
      unAcc := (s.meter m).unSum, unV := (s.meter m).unSum / (s.meter m).k
      w0 := c.w0 + ((s.meter m).unSum / (s.meter m).k - (s.meter m).unV) }) = y := by
    rw [State.updMeter_const, hmeter, hx, hy]
    simp only [Sides.get_set_same, Sides.set_set, Three.set_set]
    rfl
  rw [hadd]
  unfold State.unCounted Retention.unCounted
  change (if 0 < (s.meter m).unRise then y.addUnassigned m (s.meter m).unRise else y) = _
  split
  · have hflow : (y.addUnassigned m (s.meter m).unRise) = y.updRetMeter m [.unassigned m, .total m] (fun r => {
        total := (r.total + (s.meter m).unRise) % 10 ^ 12, unassigned := (r.unassigned + (s.meter m).unRise) % 10 ^ 12 }) := by
      unfold State.addUnassigned State.addLockFlow
      have hnone : ((y.updRetMeter m [.unassigned m, .total m] (fun r => {
        total := (r.total + (s.meter m).unRise) % 10 ^ 12, unassigned := (r.unassigned + (s.meter m).unRise) % 10 ^ 12 })).fp.get m.side).lockFlow = none := by
        rw [hy]
        exact hl
      rw [hnone]
    rw [hflow, hy]
    rfl
  · rw [hy]

theorem State.unassigned_forward (ha : (s.meter m).attr = .unassigned) (hp : (s.meter m).pendingRev = 0) (hk : (s.meter m).k ≠ 0)
    (hl : (s.fp.get m.side).lockFlow = none) (ht : (s.meter m).tally < 20) :
    (s.updMeter m (fun c => { c with phase := pairAfter c.phase, position := 0 })).forward m =
      if (s.meter m).tally + 1 = 20 ∧ s.reportsMade = true then (s.unCounted m).takeCause m.side .unauthFlow else s.unCounted m := by
  have hvolume := State.unassigned_volume ha hk hl
  obtain ⟨y, hy⟩ : ∃ y : State, y = { s.unCounted m with met := s.met.set m.side ((s.met.get m.side).set m.product (s.meter m).unAdded) } := ⟨_, rfl⟩
  have hmeter : y.meter m = (s.meter m).unAdded := by rw [hy, State.meter, Sides.get_set_same, Three.get_set_same]
  have hcounted : y.updMeter m (fun c => { c with tally := c.tally + 1 }) = s.unCounted m := by
    rw [State.updMeter_const, hmeter, hy]
    simp only [Sides.get_set_same, Sides.set_set, Three.set_set]
    rfl
  have htally : (y.meter m).tally = (s.meter m).tally := by rw [hmeter]; rfl
  have hya : (y.meter m).attr = .unassigned := by rw [hmeter]; exact ha
  unfold State.forward
  dsimp only
  rw [if_neg (by rw [State.updMeter_meter, hp]; exact Nat.lt_irrefl 0)]
  unfold State.countPulse
  dsimp only
  rw [hvolume, ← hy, if_pos, State.tallyPulse]
  · dsimp only
    have hreports : y.reportsMade = s.reportsMade := by rw [hy]; rfl
    rw [htally, if_pos ⟨hya, ht⟩, hcounted, hreports]
  · rw [State.updMeter_meter, State.updMeter_meter]
    exact decide_eq_true ha

end unassigned

theorem exec_forwardPulse {s : State} {m : Meter} (hs : s.steady) (hd : s.pw.decoding = true) :
    exec (.forwardPulse m) s = .next (publish s ((s.updMeter m (fun c => { c with phase := pairAfter c.phase, position := 0 })).forward m)) :=
  event_decoded hs hd

/-- A LOCK-class cause at a fueling point without a sale or an authorization, the other side having no fault (R30, R141). -/
theorem State.takeCause_locks {s : State} {d : Side} {c : Cause} (hc : c.isLock = true)
    (hd : s.fpState d = .unavailable ∨ s.fpState d = .idle ∨ s.fpState d = .calling ∨ s.fpState d = .finished) (hl : s.fpState d.other ≠ .locked)
    (hs : s.fpState d.other ≠ .settling) : s.takeCause d c = s.lockFp d c := by
  have ho : (s.lockFp d c).fpState d.other = s.fpState d.other := by rw [State.lockFp_fpState, if_neg d.other_ne]
  have hr : (s.lockFp d c).reportLock d c = s.lockFp d c := State.reportLock_alone (ho ▸ hl) (ho ▸ hs) c
  unfold State.takeCause
  rcases hd with hd | hd | hd | hd
  all_goals
    rw [hd]
    exact (if_pos hc).trans hr

/-- Settles O21: the pulse is counted, and the twentieth is reported. -/
theorem unassignedPulsesAddAndLock : Obligations.UnassignedPulsesAddAndLock := by
  refine ⟨fun s m hs hd ha hp hk ht hl => ?_, fun s m hs hd ha hp hk ht hl hh hf hst hol hos => ?_⟩
  · intro c acc rise r
    have he := exec_forwardPulse (m := m) hs hd
    rw [State.unassigned_forward ha hp hk hl (by omega), if_neg (by omega)] at he
    refine ⟨_, he, ?_, fun x hx => ?_, ?_, rfl, rfl⟩
    · exact (congrArg (fun y : Three Channel => y.get m.product) (Sides.get_set_same ..)).trans (Three.get_set_same ..)
    · exact State.updMeter_meter_ne s (fun _ => (s.meter m).unCounted) hx
    · change s.ret.unCounted m (s.meter m).unRise = _
      rfl
  · intro c acc rise r
    have he := exec_forwardPulse (m := m) hs hd
    have hreports : s.reportsMade = true := by
      unfold State.reportsMade
      split
      · exact absurd ‹_› hh
      · exact absurd ‹_› hf
      · rfl
    obtain ⟨x, hx⟩ : ∃ x, x = s.unCounted m := ⟨_, rfl⟩
    have hfp (e : Side) : x.fpState e = s.fpState e := by rw [hx]; rfl
    rw [State.unassigned_forward ha hp hk hl (by omega), if_pos ⟨by omega, hreports⟩, ← hx,
      State.takeCause_locks (d := m.side) rfl (by rw [hfp]; exact hst) (by rw [hfp]; exact hol) (by rw [hfp]; exact hos)] at he
    have hnl : x.fpState m.side ≠ .locked := by
      rw [hfp]
      rcases hst with h | h | h | h <;> rw [h] <;> nofun
    have hframe := x.lockFp_frame m.side .unauthFlow
    have hport := State.lockFp_port hnl .unauthFlow
    have hmeter := State.lockFp_meter hnl .unauthFlow
    have hother := x.lockFp_otherMet m.side .unauthFlow
    generalize x.lockFp m.side .unauthFlow = t at *
    refine ⟨_, he, ?_, ?_, ?_, ?_, fun y hy => ?_, ?_, ?_⟩
    · change t.fp = _
      rw [hframe, hx]
      rfl
    · have hret : x.ret = { s.ret with meters := if 0 < rise then s.ret.meters.set m.side ((s.ret.meters.get m.side).set m.product
          ⟨(r.total + rise) % 10 ^ 12, (r.unassigned + rise) % 10 ^ 12⟩) else s.ret.meters } := by
        rw [hx]
        change s.ret.unCounted m rise = _
        unfold Retention.unCounted
        split <;> rfl
      have htret : t.ret = { x.ret with sides := x.ret.sides.set m.side { x.ret.sides.get m.side with locked := true, lockCause := some .unauthFlow } } := by
        rw [hframe]
      change t.ret = _
      rw [htret, hret]
    · change t.pw = _
      rw [hframe, hx]
      rfl
    · have hxm : x.meter m = (s.meter m).unCounted := by rw [hx]; exact State.updMeter_meter s m (fun _ => (s.meter m).unCounted)
      refine (hmeter m.product).trans ?_
      change (x.meter m).under .unassigned = _
      have hca : (s.meter m).unCounted.attr = .unassigned := ha
      rw [hxm, Channel.under, if_pos hca]
      change { (s.meter m).unCounted with tally := (s.meter m).tally + 1 } = _
      rw [ht]
      rfl
    · have hxy : x.meter y = s.meter y := by rw [hx]; exact State.updMeter_meter_ne s (fun _ => (s.meter m).unCounted) hy
      change t.meter y = _
      obtain ⟨e, p⟩ := y
      rcases Side.eq_or_other m.side e with rfl | rfl
      · rw [hmeter, hxy, if_pos rfl]
      · rw [if_neg m.side.other_ne, ← hxy, State.meter, State.meter, hother]
    · change t.port = _
      rw [hport, hx, flagsOf_one]
      rfl
    · obtain ⟨fp, ret, met, port, rev, rfl⟩ : ∃ fp ret met port rev, t = { x with fp := fp, ret := ret, met := met, port := port, rev := rev } :=
        ⟨_, _, _, _, _, hframe⟩
      rw [hx]
      rfl

end Sys2Proof.Machine
end

section
/-! PROOFS. Counted pulses of a sale: the volume, the close target, the overrun (R17, R39, R41, R44, R48, R49, R50, R108). -/

namespace Sys2Proof.Machine

/-- The accumulator of a sale's meter after a counted pulse (R39). -/
def Channel.saleSum (c : Channel) : Nat := (c.saleAcc + (1000000 + c.correction).toNat) % 2 ^ 64

/-- The volume that a counted pulse of a sale's meter adds (R39). -/
def Channel.saleRise (c : Channel) : Nat := c.saleSum / c.k - c.saleV

/-- A sale's meter after a counted pulse (R34, R39). -/
def Channel.saleCounted (c : Channel) : Channel :=
  { c with phase := pairAfter c.phase, position := 0, quietAny := some 2000, saleAcc := c.saleSum, saleV := c.saleSum / c.k
           w0 := c.w0 + c.saleRise }

/-- A sale after a rise of one product's volume (R44, R45). -/
def Sale.metered (x : Sale) (p : Product) (rise : Nat) : Sale :=
  ({ x with products := x.products.set p (x.products.get p + rise) } : Sale).recompute

/-- The timers that a counted pulse of a sale restarts (R17, R23, R26). -/
def FuelPoint.pulsed (f : FuelPoint) : FuelPoint :=
  match f.state with
  | .fueling => { f with noFlow := some 60000 }
  | .settling => { f with settle := f.settle.map (fun _ => 500) }
  | _ => f

/-- The overrun measure at a volume (R49). -/
def FuelPoint.measured (f : FuelPoint) (volume : Nat) : FuelPoint :=
  { f with overrun := match f.base with
                      | some b => volume - b
                      | none => f.overrun }

/-- The state after a counted pulse that raised a sale's volume, the fueling point becoming `g`, before the reports. -/
def State.metered (s : State) (m : Meter) (g : FuelPoint) : State := { s with
  pw := { s.pw with resetHold := s.pw.resetHold.map (fun _ => 500) }
  met := s.met.set m.side ((s.met.get m.side).set m.product (s.meter m).saleCounted)
  fp := s.fp.set m.side g
  ret := { s.ret with
    meters := s.ret.meters.set m.side ((s.ret.meters.get m.side).set m.product { (s.ret.meters.get m.side).get m.product with
      total := (((s.ret.meters.get m.side).get m.product).total + (s.meter m).saleRise) % 10 ^ 12 })
    sides := s.ret.sides.set m.side { s.ret.sides.get m.side with sale := (s.sale m.side).metered m.product (s.meter m).saleRise } }
  disp := s.disp.requestAll (saleRole m.side) .sale }

theorem FuelPoint.pulsed_fueling {f : FuelPoint} (hs : f.state = .fueling) (hb : f.base = none) (v : Nat) :
    f.pulsed.measured v = { f with noFlow := some 60000 } := by
  unfold FuelPoint.pulsed FuelPoint.measured
  simp only [hs, hb]

theorem FuelPoint.pulsed_held {f : FuelPoint} (hs : f.state = .paused ∨ f.state = .settling) {b : Nat} (hb : f.base = some b) (v : Nat) :
    f.pulsed.measured v = { f with
      settle := if f.state = .settling then f.settle.map (fun _ => 500) else f.settle, overrun := v - b } := by
  unfold FuelPoint.pulsed FuelPoint.measured
  rcases hs with hs | hs <;> simp [hs, hb]

section pulse
variable {s : State} {m : Meter}

/-- The timers of a counted pulse (R34). -/
theorem State.sale_restart (ha : (s.meter m).attr = .sale) :
    ((s.updMeter m (fun c => { c with phase := pairAfter c.phase, position := 0 })).updMeter m Channel.pulseTaken).restartTimers m = { s with
      pw := { s.pw with resetHold := s.pw.resetHold.map (fun _ => 500) }
      met := s.met.set m.side ((s.met.get m.side).set m.product
        { s.meter m with phase := pairAfter (s.meter m).phase, position := 0, quietAny := some 2000 })
      fp := s.fp.set m.side (s.fp.get m.side).pulsed } := by
  have htaken : Channel.pulseTaken { s.meter m with phase := pairAfter (s.meter m).phase, position := 0 } =
      { s.meter m with phase := pairAfter (s.meter m).phase, position := 0, quietAny := some 2000 } := by
    rw [Channel.pulseTaken, if_neg (by exact ha ▸ nofun)]
  rw [State.updMeter_updMeter, State.updMeter_const, htaken]
  unfold State.restartTimers FuelPoint.pulsed
  dsimp only
  rw [if_pos (by rw [State.meter, Sides.get_set_same, Three.get_set_same]; exact ha)]
  change (match (s.fp.get m.side).state with
    | .fueling => _
    | .settling => _
    | _ => _) = _
  split
  · rfl
  · rfl
  · rw [Sides.set_get]
    rfl

/-- A counted pulse that raises the sale's volume: the reports follow (R44, R48 to R50). -/
theorem State.sale_forward (ha : (s.meter m).attr = .sale) (hp : (s.meter m).pendingRev = 0) (hk : (s.meter m).k ≠ 0)
    (hr : 0 < (s.meter m).saleRise) {volume : Nat} (hv : ((s.sale m.side).metered m.product (s.meter m).saleRise).volume = volume)
    (hne : volume ≠ (s.sale m.side).volume) : ∃ rev,
      (s.updMeter m (fun c => { c with phase := pairAfter c.phase, position := 0 })).forward m =
        ((({ s.metered m ((s.fp.get m.side).pulsed.measured volume) with rev := rev } : State).checkTargets m.side).checkOverrun m.side).checkFlow
          m.side := by
  have hrestart := State.sale_restart ha
  have hattr : (((s.updMeter m (fun c => { c with phase := pairAfter c.phase, position := 0 })).updMeter m Channel.pulseTaken).meter m).attr = .sale := by
    rw [State.updMeter_meter, State.updMeter_meter]
    exact ha
  have hforward : (s.updMeter m (fun c => { c with phase := pairAfter c.phase, position := 0 })).forward m =
      (((s.updMeter m (fun c => { c with phase := pairAfter c.phase, position := 0 })).updMeter m Channel.pulseTaken).restartTimers m).countVolume m := by
    unfold State.forward State.countPulse
    dsimp only
    rw [if_neg (by rw [State.updMeter_meter, hp]; exact Nat.lt_irrefl 0), hattr]
    exact if_neg (by decide)
  rw [hforward, hrestart]
  obtain ⟨x, hx⟩ : ∃ x : State, x = { s with
      pw := { s.pw with resetHold := s.pw.resetHold.map (fun _ => 500) }
      met := s.met.set m.side ((s.met.get m.side).set m.product
        { s.meter m with phase := pairAfter (s.meter m).phase, position := 0, quietAny := some 2000 })
      fp := s.fp.set m.side (s.fp.get m.side).pulsed } := ⟨_, rfl⟩
  have hmeter : x.meter m = { s.meter m with phase := pairAfter (s.meter m).phase, position := 0, quietAny := some 2000 } := by
    rw [hx, State.meter, Sides.get_set_same, Three.get_set_same]
  rw [← hx]
  have hkx : (x.meter m).k ≠ 0 := by rw [hmeter]; exact hk
  have hax : (x.meter m).attr = .sale := by rw [hmeter]; exact ha
  have hsum : addMicro (x.meter m).saleAcc (pulseWeight (x.meter m).correction) = (s.meter m).saleSum := by rw [hmeter]; rfl
  have hxk : (x.meter m).k = (s.meter m).k := by rw [hmeter]
  have hxv : (x.meter m).saleV = (s.meter m).saleV := by rw [hmeter]
  unfold State.countVolume
  dsimp only
  rw [if_neg hkx, hax]
  dsimp only
  rw [hsum, hxk, hxv]
  obtain ⟨y, hy⟩ : ∃ y : State, y = { s with
    pw := { s.pw with resetHold := s.pw.resetHold.map (fun _ => 500) }
    met := s.met.set m.side ((s.met.get m.side).set m.product (s.meter m).saleCounted)
    fp := s.fp.set m.side (s.fp.get m.side).pulsed } := ⟨_, rfl⟩
  have hadd : x.updMeter m (fun c => { c with
      saleAcc := (s.meter m).saleSum, saleV := (s.meter m).saleSum / (s.meter m).k
      w0 := c.w0 + ((s.meter m).saleSum / (s.meter m).k - (s.meter m).saleV) }) = y := by
    rw [State.updMeter_const, hmeter, hx, hy]
    simp only [Sides.get_set_same, Sides.set_set, Three.set_set]
    rfl
  have hrise : (s.meter m).saleSum / (s.meter m).k - (s.meter m).saleV = (s.meter m).saleRise := rfl
  rw [hadd, hrise, if_pos hr]
  change ∃ rev, y.addToSale m (s.meter m).saleRise = _
  obtain ⟨z, hz⟩ : ∃ z : State, z = (y.updSale m.side [.figures] (fun x => x.metered m.product (s.meter m).saleRise)).updRetMeter m [.total m]
    (fun r => { r with total := (r.total + (s.meter m).saleRise) % 10 ^ 12 }) := ⟨_, rfl⟩
  have hzsale : (z.sale m.side).volume = volume := by
    rw [← hv, hz, hy]
    exact congrArg (fun r : RetSide => r.sale.volume) (Sides.get_set_same ..)
  have hysale : (y.sale m.side).volume = (s.sale m.side).volume := by rw [hy]; rfl
  have hmeasured : (z.requestSale m.side).measureOverrun m.side =
      { s.metered m ((s.fp.get m.side).pulsed.measured volume) with rev := z.rev } := by
    have hm : (z.requestSale m.side).measureOverrun m.side = { z with
        disp := z.disp.requestAll (saleRole m.side) .sale, fp := z.fp.set m.side ((z.fp.get m.side).measured (z.sale m.side).volume) } := rfl
    rw [hm, hzsale, hz, hy]
    simp only [State.updRetMeter_fp, State.updSale_fp, Sides.get_set_same, Sides.set_set]
    rfl
  refine ⟨z.rev, ?_⟩
  have hfold : (y.updSale m.side [.figures] (fun x =>
      ({ x with products := x.products.set m.product (x.products.get m.product + (s.meter m).saleRise) } : Sale).recompute)).updRetMeter m [.total m]
        (fun r => { r with total := (r.total + (s.meter m).saleRise) % 10 ^ 12 }) = z := hz.symm
  unfold State.addToSale
  dsimp only
  rw [hfold, hzsale, hysale, if_neg hne, hmeasured]

end pulse

/-! ## The reports (R17, R48 to R50) -/

section reports
variable {s : State} {d : Side}

theorem State.checkTargets_out (h : s.fpState d ≠ .fueling) : s.checkTargets d = s := if_neg h

theorem State.checkOverrun_none (h : ¬ ((s.fp.get d).base.isSome = true ∧ (s.fp.get d).limit < (s.fp.get d).overrun
    ∧ (s.fp.get d).overrunMade = false)) : s.checkOverrun d = s := if_neg h

theorem State.checkFlow_none (h : ¬ ((s.fp.get d).base.isSome = true ∧ 2 * (s.fp.get d).limit < (s.fp.get d).overrun
    ∧ (s.fp.get d).flowMade = false)) : s.checkFlow d = s := if_neg h

theorem State.checkOverrun_passes (h : (s.fp.get d).base.isSome = true ∧ (s.fp.get d).limit < (s.fp.get d).overrun
    ∧ (s.fp.get d).overrunMade = false) (hr : s.reportsMade = true) :
    s.checkOverrun d = (s.updFp d (fun f => { f with overrunMade := true })).takeCause d .overrun :=
  (if_pos h).trans (if_pos hr)

theorem State.checkFlow_floods (h : (s.fp.get d).base.isSome = true ∧ 2 * (s.fp.get d).limit < (s.fp.get d).overrun
    ∧ (s.fp.get d).flowMade = false) (hr : s.reportsMade = true) : s.checkFlow d =
      (s.updFp d (fun f => { f with flowMade := true })).reportHalt ⟨.flowAfterClose, some ⟨d, .overrun⟩, none, (s.fp.get d).overrun⟩ :=
  (if_pos h).trans (if_pos hr)

/-- Where nothing is reported, a passed limit is marked alone (R49, R53). -/
theorem State.checkOverrun_silent (hb : (s.fp.get d).base.isSome = true) (hr : s.reportsMade = false) :
    s.checkOverrun d = s.updFp d (fun f => { f with overrunMade := f.overrunMade || decide (f.limit < f.overrun) }) := by
  by_cases h : (s.fp.get d).limit < (s.fp.get d).overrun ∧ (s.fp.get d).overrunMade = false
  · refine ((if_pos ⟨hb, h⟩).trans (if_neg (by rw [State.reportsMade] at hr; exact fun hc => absurd (hr.symm.trans hc) nofun))).trans ?_
    rw [State.updFp, State.updFp, h.2, decide_eq_true h.1]
    rfl
  · have hsame : ((s.fp.get d).overrunMade || decide ((s.fp.get d).limit < (s.fp.get d).overrun)) = (s.fp.get d).overrunMade := by
      cases hm : (s.fp.get d).overrunMade
      · exact decide_eq_false fun hl => h ⟨hl, hm⟩
      · rfl
    rw [State.checkOverrun_none (fun hc => h hc.2), State.updFp, hsame]
    exact congrArg (fun x => ({ s with fp := x } : State)) (Sides.set_get ..).symm

theorem State.checkFlow_silent (hb : (s.fp.get d).base.isSome = true) (hr : s.reportsMade = false) :
    s.checkFlow d = s.updFp d (fun f => { f with flowMade := f.flowMade || decide (2 * f.limit < f.overrun) }) := by
  by_cases h : 2 * (s.fp.get d).limit < (s.fp.get d).overrun ∧ (s.fp.get d).flowMade = false
  · refine ((if_pos ⟨hb, h⟩).trans (if_neg (by rw [State.reportsMade] at hr; exact fun hc => absurd (hr.symm.trans hc) nofun))).trans ?_
    rw [State.updFp, State.updFp, h.2, decide_eq_true h.1]
    rfl
  · have hsame : ((s.fp.get d).flowMade || decide (2 * (s.fp.get d).limit < (s.fp.get d).overrun)) = (s.fp.get d).flowMade := by
      cases hm : (s.fp.get d).flowMade
      · exact decide_eq_false fun hl => h ⟨hl, hm⟩
      · rfl
    rw [State.checkFlow_none (fun hc => h hc.2), State.updFp, hsame]
    exact congrArg (fun x => ({ s with fp := x } : State)) (Sides.set_get ..).symm

theorem State.Halts.fromRev {t : State} {r : HaltReport} (h : s.Halts t r) (rev : Revisions) : ({ s with rev := rev } : State).Halts t r := by
  obtain ⟨hpw, hhalt, hvalves, hqueue, hmotors, hfp, hsides, hmeters, hport, hothers⟩ := h
  exact ⟨hpw, hhalt, hvalves, hqueue, hmotors, hfp, hsides, hmeters, hport, hothers⟩

/-- No overrun is reported under no base, and none where the measure is 0. -/
theorem State.checks_none (h : (s.fp.get d).base = none ∨ (s.fp.get d).overrun = 0) : (s.checkOverrun d).checkFlow d = s := by
  rw [State.checkOverrun_none, State.checkFlow_none]
  · rintro ⟨hb, hl, -⟩
    rcases h with h | h
    · rw [h] at hb
      cases hb
    · omega
  · rintro ⟨hb, hl, -⟩
    rcases h with h | h
    · rw [h] at hb
      cases hb
    · omega

/-- The valves of a side as a volume in FUELING leaves them (R48, R60). -/
def State.slowed (s : State) (d : Side) : Sides ValveSide :=
  if (s.sale d).closeTarget ≤ (s.sale d).volume + (s.fp.get d).slowMargin ∧ (s.vlv.get d).slow = false then
    s.vlv.set d { s.vlv.get d with slow := true, valves := (s.vlv.get d).valves.map ValveDrive.slowed } else s.vlv

/-- A volume in FUELING: slow flow once it is due, and the close at the target (R17, R48). -/
theorem State.checkTargets_fueling (h : s.fpState d = .fueling) : s.checkTargets d =
    if (s.sale d).closeTarget ≤ (s.sale d).volume then
      ({ s with vlv := s.slowed d } : State).takeCause d (closeCause (s.fp.get d).closeReason) else { s with vlv := s.slowed d } := by
  have hslow : (if (s.sale d).slowDue (s.fp.get d).slowMargin && !(s.vlv.get d).slow then s.slowSide d else s) = { s with vlv := s.slowed d } := by
    have hdue : ((s.sale d).slowDue (s.fp.get d).slowMargin && !(s.vlv.get d).slow) = true ↔
        ((s.sale d).closeTarget ≤ (s.sale d).volume + (s.fp.get d).slowMargin ∧ (s.vlv.get d).slow = false) := by
      simp [Sale.slowDue]
    unfold State.slowed
    by_cases hc : (s.sale d).closeTarget ≤ (s.sale d).volume + (s.fp.get d).slowMargin ∧ (s.vlv.get d).slow = false
    · rw [if_pos (hdue.mpr hc), if_pos hc]
      rfl
    · rw [if_neg (fun h => hc (hdue.mp h)), if_neg hc]
  unfold State.checkTargets
  rw [if_pos h]
  dsimp only
  rw [hslow]
  have hclose : (State.sale { s with vlv := s.slowed d } d).closeDue = decide ((s.sale d).closeTarget ≤ (s.sale d).volume) := rfl
  rw [hclose]
  by_cases hc : (s.sale d).closeTarget ≤ (s.sale d).volume
  · rw [decide_eq_true hc, if_pos hc]
    rfl
  · rw [decide_eq_false hc, if_neg hc]
    rfl

end reports

/-- The law of the drives leaves the valves of a side in FUELING alone. -/
theorem State.DriveLaw.withValves {s w : State} {d : Side} (l : s.DriveLaw) (hd : s.fpState d = .fueling) (hm : w.pw.mains = s.pw.mains)
    (hs : w.pw.state = s.pw.state) (hfp : ∀ e, w.fpState e = s.fpState e) (hv : ∀ v : Meter, v.side ≠ d → w.valve v = s.valve v)
    (hmot : w.mot = s.mot) : w.DriveLaw := by
  have hmotor (m : Product) : w.motor m = s.motor m := by rw [State.motor, hmot]; rfl
  refine ⟨?_, fun e => ?_, fun v => ?_, ?_, hmot ▸ l.queueOnce, fun m => ?_, fun m n => ?_, ?_⟩
  · rw [hm, hs]; exact l.mainsAbsent
  · rw [hfp, hs]; exact l.liveActive e
  · by_cases hvd : v.side = d
    · exact fun _ => by rw [hfp, hvd, hd]
    · rw [hv v hvd, hfp]; exact l.valves v
  · simp only [hs, hmotor]; exact l.motors
  · rw [hmot, hmotor]; exact l.queued m
  · rw [hmotor, hmotor]; exact l.oneStart m n
  · rw [show w.arbiterFree = s.arbiterFree by simp only [State.arbiterFree, hmot], hmot]; exact l.granted

theorem closeCause_eq (r : Option CloseReason) : closeCause r = if r = some .preset then .presetReached else .amountLimit := by
  cases r with
  | none => rfl
  | some k => cases k <;> rfl

/-- Settles O22: the volume that the pulse raises is held against the close target, the overrun limit and twice that limit. -/
theorem salePulsesMeterTheSale : Obligations.SalePulsesMeterTheSale := by
  intro s m hs hd ha hp hk d c acc rise x products volume amount y r meters side slow pw counted asked hrise hne
  obtain ⟨rev, heq⟩ := State.sale_forward ha hp hk hrise (volume := volume) rfl hne
  have he := exec_forwardPulse (m := m) hs hd
  rw [heq] at he
  have hasked : s.disp.Asked (s.disp.requestAll (saleRole d) .sale) (fun q k => k = .sale ∧ s.disp.showsWith (saleRole d) q) :=
    Display.requestAll_asked ..
  refine ⟨fun hst hbase => ?_, fun b hst hbase => ?_⟩
  · intro f
    have hg : (s.fp.get d).pulsed.measured volume = f := FuelPoint.pulsed_fueling hst hbase volume
    obtain ⟨v, hv⟩ : ∃ v : State, v = { s.metered m f with rev := rev } := ⟨_, rfl⟩
    have hvfp : v.fp.get d = f := by rw [hv]; exact Sides.get_set_same ..
    have hvst : v.fpState d = .fueling := by rw [State.fpState, hvfp]; exact hst
    have hvsale : v.sale d = y := by rw [hv]; exact congrArg RetSide.sale (Sides.get_set_same ..)
    have hvv : v.slowed d = if x.closeTarget ≤ volume + f.slowMargin ∧ slow = false
        then s.vlv.set d { s.vlv.get d with slow := true, valves := (s.vlv.get d).valves.map ValveDrive.slowed } else s.vlv := by
      rw [State.slowed, hvsale, hvfp, hv]
      rfl
    rw [hg, ← hv, State.checkTargets_fueling hvst, hvsale, hvfp] at he
    have hvother : v.met.get d.other = s.met.get d.other := by rw [hv]; exact Sides.get_set_other ..
    by_cases hclose : x.closeTarget ≤ volume
    · obtain ⟨u, hu⟩ : ∃ u : State, u = { v with vlv := v.slowed d } := ⟨_, rfl⟩
      have hust : (u.fpState d).endable = true := by rw [hu]; exact hvst ▸ rfl
      have hns : u.fpState d ≠ .settling := FpState.endable_ne_settling hust
      have hcause : (closeCause f.closeReason).isLock = false := by
        unfold closeCause
        split <;> rfl
      rw [if_pos hclose, ← hu, State.takeCause_ends hust hcause] at he
      have hends := u.endSale_ends d (closeCause f.closeReason) hns
      have hport := u.endSale_port d (closeCause f.closeReason) hns
      have hframe := u.endSale_frame d (closeCause f.closeReason)
      generalize u.endSale d (closeCause f.closeReason) = t at *
      have hufp : u.fp.get d = f := by rw [hu]; exact hvfp
      have husale : u.sale d = y := by rw [hu]; exact hvsale
      rw [hufp] at hends
      have htfp : t.fp.get d = f.ended volume := by rw [hends.fp, husale, Sides.get_set_same]
      have hfst : f.state ≠ .paused := by
        have hfs : f.state = .fueling := hst
        rw [hfs]
        nofun
      have hzero : (t.fp.get d).overrun = 0 := by
        rw [htfp]
        exact if_neg hfst
      rw [State.checks_none (.inr hzero)] at he
      have huv : u.vlv = if slow = false then
          s.vlv.set d { s.vlv.get d with slow := true, valves := (s.vlv.get d).valves.map ValveDrive.slowed } else s.vlv := by
        have hm : x.closeTarget ≤ volume + f.slowMargin := Nat.le_trans hclose (Nat.le_add_right ..)
        rw [hu]
        refine hvv.trans ?_
        by_cases hsl : slow = false
        · rw [if_pos ⟨hm, hsl⟩, if_pos hsl]
        · rw [if_neg (fun h => hsl h.2), if_neg hsl]
      refine ⟨_, he, ?_, ?_, ?_, fun hc => absurd hclose (Nat.not_le.mpr hc), fun _ => ⟨?_, ?_, ?_, fun q => ?_, fun l => ?_, ?_, fun p hpm => ?_, ?_, ?_⟩⟩
      · change t.pw = _
        rw [hframe, hu, hv]
        rfl
      · change s.disp.Asked t.disp _
        rw [hframe, hu, hv]
        exact hasked
      · refine hends.otherMet.trans ?_
        rw [hu]
        exact hvother
      · change t.ret = _
        have hur : u.ret = { s.ret with meters := meters, sides := s.ret.sides.set d { side with sale := y } } := by rw [hu, hv]; rfl
        rw [hends.ret, husale, hur, Sides.get_set_same, Sides.set_set, closeCause_eq]
      · change t.fp = _
        rw [hends.fp, husale, hu, hv]
        exact Sides.set_set ..
      · change t.vlv = _
        rw [hends.valves, huv]
        cases hsl : slow
        · rw [if_pos rfl, Sides.get_set_same, Sides.set_set]
        · rw [if_neg nofun]
          exact congrArg (fun b => s.vlv.set d { s.vlv.get d with
            slow := b, valves := ⟨.shut, .shut, .shut⟩, blend := { (s.vlv.get d).blend with timer := none } }) hsl
      · refine (hends.demand q).trans ?_
        rw [hu, hv]
        rfl
      · have hmot : u.mot = s.mot := by rw [hu, hv]; rfl
        have hlaw : u.DriveLaw := l.withValves hst (by rw [hu, hv]; rfl) (by rw [hu, hv]; rfl) (fun e => ?_) (fun z hz => ?_) hmot
        · exact ((hends.motors hlaw).from hmot.symm (by rw [hu, hv]; rfl)).congr rfl
        · rcases Side.eq_or_other d e with rfl | rfl
          · exact ((show u.fpState d = v.fpState d by rw [hu]; rfl).trans hvst).trans hst.symm
          · rw [hu, hv]
            exact congrArg FuelPoint.state (Sides.get_set_other ..)
        · rw [State.valve, huv]
          have hz' : z.side = d.other := (Side.eq_or_other d z.side).resolve_left hz
          rw [hz']
          cases hsl : slow
          · rw [if_pos rfl, Sides.get_set_other, ← hz']
            rfl
          · rw [if_neg nofun, ← hz']
            rfl
      · refine (hends.meters m.product).trans ?_
        rw [husale, hu, hv]
        exact congrArg (fun a : Channel => a.under (x.claims m.product)) (State.updMeter_meter s m (fun _ => counted))
      · refine (hends.meters p).trans ?_
        rw [husale, hu, hv]
        exact congrArg (fun a : Channel => a.under (x.claims p)) (State.updMeter_meter_ne s (x := ⟨d, p⟩) (fun _ => counted)
          (fun hc => hpm (congrArg Meter.product hc)))
      · change t.port = _
        rw [hport, flagsOf_one, hu, hv]
        rfl
      · obtain ⟨fp, ret, vlv, mot, met, port, rev', rfl⟩ : ∃ fp ret vlv mot met port rev, t = { u with
          fp := fp, ret := ret, vlv := vlv, mot := mot, met := met, port := port, rev := rev } := ⟨_, _, _, _, _, _, _, hframe⟩
        rw [hu, hv]
        rfl
    · rw [if_neg hclose, State.checks_none (.inl (by exact congrArg FuelPoint.base hvfp ▸ hbase))] at he
      refine ⟨_, he, ?_, ?_, hvother, fun _ => ⟨?_, ?_, ?_, ?_, fun z hz => ?_, ?_⟩, fun hc => absurd hc hclose⟩
      · rw [hv]
        rfl
      · rw [hv]
        exact hasked
      · rw [hv]
        rfl
      · rw [hv]
        rfl
      · exact hvv
      · rw [hv]
        exact State.updMeter_meter s m (fun _ => counted)
      · rw [hv]
        exact State.updMeter_meter_ne s (fun _ => counted) hz
      · rw [hv]
        rfl
  · intro beyond limit passes floods settle f w
    have hg : (s.fp.get d).pulsed.measured volume = f := FuelPoint.pulsed_held hst hbase volume
    obtain ⟨v, hv⟩ : ∃ v : State, v = { w f with disp := s.disp.requestAll (saleRole d) .sale, rev := rev } := ⟨_, rfl⟩
    have hvm : ({ s.metered m f with rev := rev } : State) = v := hv.symm
    have hvfp : v.fp.get d = f := by rw [hv]; exact Sides.get_set_same ..
    have hvst : v.fpState d = s.fpState d := by rw [State.fpState, hvfp]; rfl
    have hvo : v.fpState d.other = s.fpState d.other := by rw [hv]; exact congrArg FuelPoint.state (Sides.get_set_other ..)
    have hne : v.fpState d ≠ .fueling := by
      rw [hvst]
      rcases hst with h | h <;> rw [h] <;> nofun
    have hfb : f.base.isSome = true := by
      have hb : f.base = some b := hbase
      rw [hb]
      rfl
    have hp : ((v.fp.get d).base.isSome = true ∧ (v.fp.get d).limit < (v.fp.get d).overrun ∧ (v.fp.get d).overrunMade = false) ↔ passes := by
      rw [hvfp]
      exact ⟨fun h => h.2, fun h => ⟨hfb, h⟩⟩
    have hf : ((v.fp.get d).base.isSome = true ∧ 2 * (v.fp.get d).limit < (v.fp.get d).overrun ∧ (v.fp.get d).flowMade = false) ↔ floods := by
      rw [hvfp]
      exact ⟨fun h => h.2, fun h => ⟨hfb, h⟩⟩
    rw [hg, hvm, State.checkTargets_out hne] at he
    clear heq
    obtain ⟨u, hu⟩ : ∃ u : State, u = { w { f with overrunMade := true } with disp := s.disp.requestAll (saleRole d) .sale, rev := rev } := ⟨_, rfl⟩
    have hmade : v.updFp d (fun f => { f with overrunMade := true }) = u := by
      have hset : v.fp.set d { f with overrunMade := true } = s.fp.set d { f with overrunMade := true } := by rw [hv]; exact Sides.set_set ..
      rw [State.updFp, hvfp, hset, hu, hv]
    have hflags (g : FuelPoint) (hgo : g.overrun = beyond) (hgl : g.limit = limit) (hgf : g.flowMade = f.flowMade) (hnf : ¬ floods) :
        ¬ (g.base.isSome = true ∧ 2 * g.limit < g.overrun ∧ g.flowMade = false) := by
      rw [hgo, hgl, hgf]
      exact fun hc => hnf hc.2
    have hufp : u.fp.get d = { f with overrunMade := true } := by rw [hu]; exact Sides.get_set_same ..
    have hust : u.fpState d = s.fpState d := by rw [State.fpState, hufp]; rfl
    have huo : u.fpState d.other = s.fpState d.other := by rw [hu]; exact congrArg FuelPoint.state (Sides.get_set_other ..)
    have hupw : u.pw.state = s.pw.state := by rw [hu]
    refine ⟨fun hnp hnf => ?_, fun hoff => ?_, fun hps hnf hact hpa hol hos => ?_, fun e hps hnf hact hse hec => ⟨fun hel hol hos => ?_, fun hel => ?_⟩,
      fun hnp hfl hact => ?_⟩
    · rw [State.checkOverrun_none (fun h => hnp (hp.mp h)), State.checkFlow_none (fun h => hnf (hf.mp h)), hv] at he
      exact ⟨_, he, hasked, rfl⟩
    · have hreports : v.reportsMade = false := by
        have hvp : v.pw.state = s.pw.state := by rw [hv]
        unfold State.reportsMade
        rw [hvp]
        rcases hoff with h | h <;> rw [h]
      have hfp2 (g : FuelPoint) : v.fp.set d g = s.fp.set d g := by rw [hv]; exact Sides.set_set ..
      have hover : v.checkOverrun d = { v with fp := s.fp.set d { f with overrunMade := f.overrunMade || decide (limit < beyond) } } := by
        rw [State.checkOverrun_silent (by rw [hvfp]; exact hfb) hreports, State.updFp, hvfp, hfp2]
      obtain ⟨u, hu⟩ : ∃ u, u = v.checkOverrun d := ⟨_, rfl⟩
      rw [← hu] at he
      rw [hover] at hu
      have hufp : u.fp.get d = { f with overrunMade := f.overrunMade || decide (limit < beyond) } := by rw [hu]; exact Sides.get_set_same ..
      rw [State.checkFlow_silent (by rw [hufp]; exact hfb) (by rw [hu]; exact hreports), State.updFp, hufp] at he
      obtain ⟨g, hgdef⟩ : ∃ g : FuelPoint, g = { f with
        overrunMade := f.overrunMade || decide (limit < beyond), flowMade := f.flowMade || decide (2 * limit < beyond) } := ⟨_, rfl⟩
      obtain ⟨z, hz⟩ : ∃ z : State, z = { w g with disp := s.disp.requestAll (saleRole d) .sale, rev := rev } := ⟨_, rfl⟩
      have hset : ({ u with fp := u.fp.set d g } : State) = z := by
        have hfp3 : u.fp.set d g = s.fp.set d g := by rw [hu]; exact Sides.set_set ..
        rw [hfp3, hu, hv, hz]
      have hzfp : z.fp.get d = g := by rw [hz]; exact Sides.get_set_same ..
      have hez : exec (.forwardPulse m) s = .next (publish s z) := by rw [he, ← hset, hgdef]
      have hzw : { f with overrunMade := (z.fp.get d).overrunMade, flowMade := (z.fp.get d).flowMade } = g := by rw [hzfp, hgdef]
      refine ⟨_, hez, ?_, ?_, ?_, ?_⟩
      · rw [hz]
        exact hasked
      · exact (congrArg FuelPoint.overrunMade hzfp).trans (by rw [hgdef])
      · exact (congrArg FuelPoint.flowMade hzfp).trans (by rw [hgdef])
      · change publish s z = { w { f with overrunMade := (z.fp.get d).overrunMade, flowMade := (z.fp.get d).flowMade } with
          disp := z.disp, rev := (publish s z).rev }
        rw [hzw, hz]
        rfl
    · rw [State.checkOverrun_passes (hp.mpr hps) (State.reportsMade_active (by rw [hv]; exact hact)), hmade,
        State.takeCause_endsAlone (by rw [hust, hpa]; rfl) (by rw [huo]; exact hol) (by rw [huo]; exact hos)] at he
      have hns : u.fpState d ≠ .settling := by rw [hust, hpa]; nofun
      have hends := u.endSale_ends d .overrun hns
      have hport := u.endSale_port d .overrun hns
      have hframe := u.endSale_frame d .overrun
      generalize u.endSale d .overrun = t at *
      rw [hufp] at hends
      have htfp : t.fp.get d = ({ f with overrunMade := true } : FuelPoint).ended (u.sale d).volume := by rw [hends.fp, Sides.get_set_same]
      have hfst : f.state = .paused := hpa
      rw [State.checkFlow_none (by rw [htfp]; exact hflags _ (if_pos hfst) rfl (if_pos hfst) hnf)] at he
      refine ⟨_, he, ?_, ?_, ?_, ?_⟩
      · change s.disp.Asked t.disp _
        rw [hframe, hu]
        exact hasked
      · refine (hends.publish s).from ?_ ?_ ?_ ?_ ?_ ?_ ?_
        all_goals rw [hu]
      · change t.port = _
        rw [hport, hu, flagsOf_one]
      · obtain ⟨fp, ret, vlv, mot, met, port, rev', rfl⟩ : ∃ fp ret vlv mot met port rev, t = { u with
          fp := fp, ret := ret, vlv := vlv, mot := mot, met := met, port := port, rev := rev } := ⟨_, _, _, _, _, _, _, hframe⟩
        rw [hu]
        rfl
    · have husale : u.sale d = y := by rw [hu]; exact congrArg RetSide.sale (Sides.get_set_same ..)
      rw [State.checkOverrun_passes (hp.mpr hps) (State.reportsMade_active (by rw [hv]; exact hact)), hmade,
        State.takeCause_replaces (e := e) rfl (by rw [hust, hse]) (by rw [husale]; exact hec) hel (by rw [huo]; exact hol) (by rw [huo]; exact hos)] at he
      obtain ⟨t, ht⟩ : ∃ t, t = u.updSale d [.endCause, .firstCause] (Sale.replaceCause .overrun) := ⟨_, rfl⟩
      have htfp : t.fp.get d = { f with overrunMade := true } := by rw [ht]; exact hufp
      have hret : t.ret = { s.ret with
          meters := meters, sides := s.ret.sides.set d { side with sale := { y with endCause := some .overrun, firstCause := some e } } } := by
        have hyc : y.endCause = some e := hec
        have hur : u.ret = { s.ret with meters := meters, sides := s.ret.sides.set d { side with sale := y } } := by rw [hu]
        rw [ht, State.updSale_ret, hur, Sides.get_set_same, Sides.set_set, Sale.replaceCause, hyc]
      rw [← ht, State.checkFlow_none (by rw [htfp]; exact hflags _ rfl rfl rfl hnf)] at he
      refine ⟨_, he, ?_, hret, ?_⟩
      · rw [ht, hu]
        exact hasked
      · rw [ht, hu]
        rfl
    · have husale : u.sale d = y := by rw [hu]; exact congrArg RetSide.sale (Sides.get_set_same ..)
      rw [State.checkOverrun_passes (hp.mpr hps) (State.reportsMade_active (by rw [hv]; exact hact)), hmade] at he
      have hhalts := State.takeCause_second (s := u) (d := d) (c := .overrun) (e := e) rfl (by rw [hust, hse]) (by rw [husale]; exact hec) hel
        (by rw [hupw]; exact hact)
      generalize u.takeCause d .overrun = t at he hhalts
      have htfp : t.fp.get d = { f with overrunMade := true } := by
        rw [hhalts.fp, hust, hse]
        exact hufp
      have htdisp : t.disp = s.disp.requestAll (saleRole d) .sale := by rw [hhalts.others, hu]
      rw [State.checkFlow_none (by rw [htfp]; exact hflags _ rfl rfl rfl hnf)] at he
      refine ⟨_, he, by change s.disp.Asked t.disp _; rw [htdisp]; exact hasked, ?_⟩
      change ({ w _ with disp := t.disp } : State).Halts _ _
      rw [htdisp]
      have hdone := (hhalts.publish s).fromRev s.rev
      rw [hu] at hdone
      exact hdone
    · obtain ⟨u', hu'⟩ : ∃ u : State, u = { w { f with flowMade := true } with disp := s.disp.requestAll (saleRole d) .sale, rev := rev } := ⟨_, rfl⟩
      have hmade' : v.updFp d (fun f => { f with flowMade := true }) = u' := by
        have hset : v.fp.set d { f with flowMade := true } = s.fp.set d { f with flowMade := true } := by rw [hv]; exact Sides.set_set ..
        rw [State.updFp, hvfp, hset, hu', hv]
      rw [State.checkOverrun_none (fun h => hnp (hp.mp h)), State.checkFlow_floods (hf.mpr hfl) (State.reportsMade_active (by rw [hv]; exact hact)),
        hmade', hvfp] at he
      have hhalts := State.reportHalt_halts (s := u') (r := ⟨.flowAfterClose, some ⟨d, .overrun⟩, none, beyond⟩) (by rw [hu']; exact hact) nofun
      change exec (.forwardPulse m) s = .next (publish s (u'.reportHalt ⟨.flowAfterClose, some ⟨d, .overrun⟩, none, beyond⟩)) at he
      generalize u'.reportHalt ⟨.flowAfterClose, some ⟨d, .overrun⟩, none, beyond⟩ = t at he hhalts
      have htdisp : t.disp = s.disp.requestAll (saleRole d) .sale := by rw [hhalts.others, hu']
      refine ⟨_, he, by change s.disp.Asked t.disp _; rw [htdisp]; exact hasked, ?_⟩
      change ({ w _ with disp := t.disp } : State).Halts _ _
      rw [htdisp]
      have hdone := (hhalts.publish s).fromRev s.rev
      rw [hu'] at hdone
      exact hdone

end Sys2Proof.Machine
end

section
/-! PROOFS. PRICE_SET. -/

namespace Sys2Proof.Machine

/-! ## A side applies the pending set (R81) -/

/-- The pending set applied on a side: the applied set, the mark, the BOARD frames asked for, and PRICE. -/
def State.pricedBy (s : State) (d : Side) (p : PriceSet) : State := { s with
  ret := { s.ret with appliedArea := s.ret.appliedArea.set d ⟨true, p⟩, marks := s.ret.marks.set d true }
  disp := s.disp.requestAll (priceRole d) .board
  port := { s.port with attn := s.port.attn ||| Attn.price.mask }
  rev := (s.rev.wroteTo (setParts.map (.applied d))).wroteTo [.mark d] }

/-- The state of a side stands against its prerequisites (R3). -/
def State.settledBy (s : State) (d : Side) : Prop := s.reviewFp d = s

section apply
variable {s : State} {d : Side} {p : PendingSet}

theorem State.settledBy_of_fuelable (hf : s.fuelable d = true) (hu : s.fpState d ≠ .unavailable) : s.settledBy d := by
  unfold State.settledBy State.reviewFp
  cases hst : s.fpState d <;> simp_all

theorem State.applied_isSome_set (r : Retention) (d : Side) (p : PriceSet) (marks : Sides Bool) :
    (({ r with appliedArea := r.appliedArea.set d ⟨true, p⟩, marks := marks } : Retention).applied.get d).isSome = true := by cases d <;> rfl

theorem State.meets_display_congr {x y : State} (h : x.disp.heads = y.disp.heads) (d : Side) : x.meets d .display = y.meets d .display := by
  have hh : x.head (saleRole d) = y.head (saleRole d) := congrArg (fun e : Eight Head => e.get (saleRole d)) h
  change decide ((x.head (saleRole d)).state = .ready) = decide ((y.head (saleRole d)).state = .ready)
  rw [hh]

/-- After the application the side lacks its prices no more. -/
theorem State.pricedBy_fuelable (s : State) (d : Side) (p : PriceSet) :
    (s.pricedBy d p).fuelable d = (s.meets d .active && s.meets d .display && s.meets d .metrology) := by
  have hd : (s.pricedBy d p).meets d .display = s.meets d .display :=
    State.meets_display_congr (s.disp.requestAll_asked (priceRole d) .board).heads d
  have hp : (s.pricedBy d p).meets d .noPrices = true := State.applied_isSome_set s.ret d p (s.ret.marks.set d true)
  rw [State.fuelable, hd, hp, Bool.and_true]
  rfl

theorem State.applySet_priced (hp : s.ret.pendingSet = some p) : s.applySet d true = (s.pricedBy d p.prices).reviewFp d := by
  unfold State.applySet
  rw [hp]
  rfl

/-- The set is due on a side without a sale (R81). -/
theorem State.applyIfDue_applies (hp : s.ret.pendingSet = some p) (hm : p.marks.get d = false) (hs : s.inSale d = false)
    (ha : s.pw.state = .active) (hw : (s.pricedBy d p.prices).settledBy d) : s.applyIfDue d = s.pricedBy d p.prices := by
  have h : s.applyIfDue d = s.applySet d true := by
    unfold State.applyIfDue
    rw [hp]
    exact if_pos ⟨hm, hs, ha⟩
  rw [h, State.applySet_priced hp, hw]

theorem State.applyIfDue_waits (hp : s.ret.pendingSet = some p) (h : p.marks.get d = true ∨ s.inSale d = true ∨ s.pw.state ≠ .active) :
    s.applyIfDue d = s := by
  unfold State.applyIfDue
  rw [hp]
  refine if_neg fun hc => ?_
  obtain ⟨hm, hs, ha⟩ := hc
  rcases h with h | h | h
  · rw [hm] at h; cases h
  · rw [hs] at h; cases h
  · exact h ha

theorem State.finishPending_open (hp : s.ret.pendingSet = some p) (h : (p.marks.a && p.marks.b) = false) : s.finishPending = s := by
  unfold State.finishPending
  rw [hp]
  exact if_neg (by simp [h])

theorem State.finishPending_done (hp : s.ret.pendingSet = some p) (h : (p.marks.a && p.marks.b) = true) :
    s.finishPending = (s.clearPending.setPriceOrder none).completeOpt s.price.order .ok p.prices.version := by
  unfold State.finishPending
  rw [hp]
  exact if_pos h

end apply

/-! ## A set that is held (R79 to R81) -/

/-- Between `s` and `u` the set `p` became the pending one under the order `r`, applied where the marks say; the slots are `told`'s. -/
structure State.Priced (s u told : State) (p : PriceSet) (r : OrderRef) (marks : Sides Bool) (R : Role → FrameKind → Prop) : Prop where
  ret : u.ret = { s.ret with
    appliedArea := ⟨if marks.a then ⟨true, p⟩ else s.ret.appliedArea.a, if marks.b then ⟨true, p⟩ else s.ret.appliedArea.b⟩
    pendingArea := ⟨true, p⟩, marks := marks }
  price : u.price = ⟨some r⟩
  told : u.Told told Attn.price.mask
  asked : s.disp.Asked u.disp R
  frame : u = { s with ret := u.ret, price := u.price, disp := u.disp, mem := u.mem, port := u.port, rev := u.rev }

section priced
variable {s u told : State} {p : PriceSet} {r : OrderRef} {marks : Sides Bool} {R : Role → FrameKind → Prop}

theorem State.Priced.pending (h : s.Priced u told p r marks R) : u.ret.pendingSet = some ⟨p, marks⟩ := by rw [h.ret]; rfl

theorem State.Priced.inSale (h : s.Priced u told p r marks R) (d : Side) : u.inSale d = s.inSale d := by rw [h.frame]; rfl

theorem State.Priced.settled (h : s.Priced u told p r marks R) (ha : s.pw.state = .active) {d : Side} (hu : s.fpState d ≠ .unavailable)
    (hd : s.meets d .display = true) (hm : s.meets d .metrology = true) : (u.pricedBy d p).settledBy d := by
  refine State.settledBy_of_fuelable ?_ ?_
  · have hdisp : u.meets d .display = s.meets d .display := State.meets_display_congr h.asked.heads d
    have hmet : u.meets d .metrology = s.meets d .metrology := by rw [h.frame]; rfl
    have hact : u.meets d .active = true := by rw [h.frame]; exact decide_eq_true ha
    rw [State.pricedBy_fuelable, hdisp, hmet, hact, hd, hm]
    rfl
  · change u.fpState d ≠ _
    rw [h.frame]
    exact hu

theorem State.Priced.stays (h : s.Priced u told p r marks R) {d : Side} (hs : s.inSale d = true) : u.applyIfDue d = u :=
  State.applyIfDue_waits h.pending (.inr (.inl ((h.inSale d).trans hs)))

/-- One side more applies the set that is held. -/
theorem State.Priced.applied (h : s.Priced u told p r marks R) (ha : s.pw.state = .active) {d : Side} (hu : s.fpState d ≠ .unavailable)
    (hd : s.meets d .display = true) (hm : s.meets d .metrology = true) (hs : s.inSale d = false) (hn : marks.get d = false) :
    s.Priced (u.applyIfDue d) told p r (marks.set d true) (fun q k => R q k ∨ (k = .board ∧ s.disp.showsWith (priceRole d) q)) := by
  rw [State.applyIfDue_applies h.pending hn ((h.inSale d).trans hs) (by rw [h.frame]; exact ha) (h.settled ha hu hd hm)]
  refine ⟨?_, h.price, ?_, ?_, ?_⟩
  · dsimp only [State.pricedBy]
    rw [h.ret]
    cases d <;> rfl
  · refine ⟨h.told.mem, h.told.rtc, ?_⟩
    dsimp only [State.pricedBy]
    rw [h.told.port]
    exact congrArg (fun a => ({ told.port with attn := a } : Port)) (by rw [BitVec.or_assoc, BitVec.or_self])
  · refine (h.asked.trans (u.disp.requestAll_asked (priceRole d) .board)).iff fun q k => ?_
    rw [Display.showsWith, h.asked.heads]
    rfl
  · obtain ⟨ret, price, disp, mem, port, rev, rfl⟩ : ∃ ret price disp mem port rev, u = { s with
      ret := ret, price := price, disp := disp, mem := mem, port := port, rev := rev } := ⟨_, _, _, _, _, _, h.frame⟩
    rfl

/-- The state after the owner has made the set of the body the pending one (R79, R80). -/
theorem State.priced_held {x z told : State} (hret : x.ret = s.ret) (hdisp : x.disp = s.disp) (hz : x.OnlyTold z) (ht : z.Told told 0)
    (hx : x = { s with mem := x.mem, port := x.port }) (o : Option OrderRef) :
    s.Priced ((((z.setPriceOrder o).setPending p).setPriceOrder (some r)).attn .price) told p r ⟨false, false⟩ (fun _ _ => False) := by
  obtain ⟨mem, attn, rfl⟩ : ∃ mem attn, z = { x with mem := mem, port := { x.port with attn := attn } } := ⟨_, _, hz.frame⟩
  refine ⟨?_, rfl, ⟨ht.mem, ht.rtc, ?_⟩, ?_, ?_⟩
  · change ({ x.ret with pendingArea := ⟨true, p⟩, marks := ⟨false, false⟩ } : Retention) = _
    rw [hret]
    rfl
  · have hp : ({ x.port with attn := attn } : Port) = told.port := by
      rw [show ({ x.port with attn := attn } : Port) = _ from ht.port]
      exact congrArg (fun a => ({ told.port with attn := a } : Port)) BitVec.or_zero
    exact congrArg (fun q : Port => ({ q with attn := q.attn ||| Attn.price.mask } : Port)) hp
  · change s.disp.Asked x.disp _
    rw [hdisp]
    exact .refl _
  · obtain ⟨m, q, rfl⟩ : ∃ m q, x = { s with mem := m, port := q } := ⟨_, _, hx⟩
    rfl

theorem State.applyBoth_eq (h : s.Priced u told p r ⟨false, false⟩ (fun _ _ => False)) (ha : s.pw.state = .active)
    (hu : ∀ d, s.fpState d ≠ .unavailable) (hd : ∀ d, s.meets d .display = true ∧ s.meets d .metrology = true) :
    s.Priced ((u.applyIfDue .a).applyIfDue .b) told p r ⟨!s.inSale .a, !s.inSale .b⟩ (fun q k => k = .board ∧
      ((s.inSale .a = false ∧ s.disp.showsWith .priceA q) ∨ (s.inSale .b = false ∧ s.disp.showsWith .priceB q))) := by
  have hfirst : s.Priced (u.applyIfDue .a) told p r ⟨!s.inSale .a, false⟩ (fun q k => k = .board ∧ s.inSale .a = false ∧
      s.disp.showsWith .priceA q) := by
    cases hs : s.inSale .a
    · have g := h.applied ha (hu .a) (hd .a).1 (hd .a).2 hs rfl
      exact ⟨g.ret, g.price, g.told, g.asked.iff fun q k => by simp [priceRole], g.frame⟩
    · rw [h.stays hs]
      exact ⟨h.ret, h.price, h.told, h.asked.iff fun q k => by simp, h.frame⟩
  cases hs : s.inSale .b
  · have g := hfirst.applied ha (hu .b) (hd .b).1 (hd .b).2 hs rfl
    exact ⟨g.ret, g.price, g.told, g.asked.iff fun q k => by simp [priceRole]; tauto, g.frame⟩
  · rw [hfirst.stays hs]
    exact ⟨hfirst.ret, hfirst.price, hfirst.told, hfirst.asked.iff fun q k => by simp, hfirst.frame⟩

end priced

/-! ## The order -/

theorem State.Offers.exec_priceSet {s : State} {n : Nat} (h : s.Offers .priceSet n 0) :
    exec .priceSet s = .next (publish s ((s.takeSlot n).1.orderPriceSet (s.takeSlot n).2)) := h.plainEvent State.orderPriceSet

section order
variable {s : State} {n : Nat}

theorem State.priceField_none (hv : s.bodyField n 0 2 ≠ 0) (hp : ∀ i, 1 ≤ i → i ≤ 10 → 1 ≤ s.bodyPrice n i ∧ s.bodyPrice n i ≤ 99999) :
    s.priceField n = none := by
  rw [State.priceField, if_neg hv]
  have hnone : [1, 2, 3, 4, 5, 6, 7, 8, 9, 10].find? (fun i => decide (s.bodyPrice n i = 0) || decide (99999 < s.bodyPrice n i)) = none := by
    refine List.find?_eq_none.mpr fun i hi => ?_
    have hb : 1 ≤ i ∧ i ≤ 10 := by simp at hi; omega
    have := hp i hb.1 hb.2
    simp
    omega
  rw [hnone]
  rfl

theorem State.priceField_some {i : Nat} (hv : s.bodyField n 0 2 ≠ 0) (h1 : 1 ≤ i) (h10 : i ≤ 10)
    (hi : s.bodyPrice n i = 0 ∨ 99999 < s.bodyPrice n i) (hp : ∀ j, 1 ≤ j → j < i → 1 ≤ s.bodyPrice n j ∧ s.bodyPrice n j ≤ 99999) :
    s.priceField n = some (4 * i) := by
  rw [State.priceField, if_neg hv]
  have hsome : [1, 2, 3, 4, 5, 6, 7, 8, 9, 10].find? (fun i => decide (s.bodyPrice n i = 0) || decide (99999 < s.bodyPrice n i)) = some i := by
    refine List.find?_eq_some_iff_append.mpr ⟨by simpa using hi, List.range' 1 (i - 1), List.range' (i + 1) (10 - i), ?_, fun j hj => ?_⟩
    · interval_cases i <;> rfl
    · obtain ⟨hj1, hj2⟩ := List.mem_range'_1.mp hj
      have := hp j hj1 (by omega)
      simp
      omega
  rw [hsome]
  rfl

theorem State.orderPriceSet_field {o : Order} {f : Nat} (h : s.priceField o.ref.slot = some f) : s.orderPriceSet o = s.complete o.ref .badOrder f := by
  unfold State.orderPriceSet
  rw [h]

theorem State.orderPriceSet_holds {o : Order} (h : s.priceField o.ref.slot = none) : s.orderPriceSet o =
    ((((s.supersede (s.bodySet o.ref.slot).version).setPending (s.bodySet o.ref.slot)).setPriceOrder (some o.ref)).attn .price).applyBoth := by
  unfold State.orderPriceSet
  rw [h]

theorem State.supersede_none (h : s.ret.pendingSet = none) (v : Nat) : s.supersede v = s.setPriceOrder s.price.order := by
  unfold State.supersede
  rw [h]
  rfl

theorem State.supersede_some {q : PendingSet} (h : s.ret.pendingSet = some q) (v : Nat) :
    s.supersede v = (s.completeOpt s.price.order .superseded (versionMarksDetail v q.marks)).setPriceOrder none := by
  unfold State.supersede
  rw [h]

/-- The marks in the detail of a superseded order. -/
theorem versionMarksDetail_eq (v : Nat) (m : Sides Bool) :
    versionMarksDetail v m = v + (if m.a then 0x10000 else 0) + (if m.b then 0x20000 else 0) := by
  obtain ⟨a, b⟩ := m
  cases a <;> cases b <;> rfl

end order

/-- Settles O18: the set is held as the pending one, and each side without a sale applies it in turn. -/
theorem priceSetIsAppliedOrWaits : Obligations.PriceSetIsAppliedOrWaits := by
  intro s n h hact p
  obtain ⟨x, hx⟩ : ∃ x : State, x = (s.takeSlot n).1 := ⟨_, rfl⟩
  have hxr : x.ret = s.ret := by rw [hx]; rfl
  have hxd : x.disp = s.disp := by rw [hx]; rfl
  have hxframe : x = { s with mem := x.mem, port := x.port } := by rw [hx]; rfl
  have he := h.exec_priceSet
  have href := State.takeSlot_ref s n
  have hslot : (s.takeSlot n).2.ref.slot = n := rfl
  have hfield : x.priceField n = s.priceField n := by rw [hx, State.takeSlot_priceField]
  have hbody : x.bodySet n = p := by rw [hx, State.takeSlot_bodySet]
  refine ⟨fun hv hprices hu hd => ?_, fun f hf => ?_⟩
  · have hno : x.priceField (s.takeSlot n).2.ref.slot = none := hfield.trans (State.priceField_none hv hprices)
    rw [← hx, State.orderPriceSet_holds hno, hslot, hbody] at he
    have hnone (hq : s.ret.pendingSet = none) : s.Priced
        ((((x.supersede p.version).setPending p).setPriceOrder (some (s.takeSlot n).2.ref)).attn .price) x p (s.takeSlot n).2.ref ⟨false, false⟩
        (fun _ _ => False) := by
      rw [State.supersede_none (by rw [hxr]; exact hq)]
      exact State.priced_held hxr hxd (.refl x) (.refl x) hxframe _
    refine ⟨fun hs hq => ?_, fun hs hq => ?_, fun d hs => ?_⟩
    · have hboth := State.applyBoth_eq (hnone hq) hact hu hd
      rw [State.applyBoth] at he
      generalize (State.applyIfDue _ .a).applyIfDue .b = u at hboth he
      rw [hs .a, hs .b] at hboth
      rw [State.finishPending_done hboth.pending rfl, hboth.price] at he
      have hport : u.port = { x.port with attn := s.port.attn ||| flagsOf [.price] } := by
        rw [flagsOf_one]
        exact hboth.told.port.trans (by rw [hx]; rfl)
      change exec _ _ = .next (publish s ((u.clearPending.setPriceOrder none).complete (s.takeSlot n).2.ref .ok p.version)) at he
      have hanswered := h.answeredNow (u := u.clearPending.setPriceOrder none) s .ok p.version [.price]
        (hboth.told.mem.trans (by rw [hx])) (hport.trans (by rw [hx]))
      have hframe := (State.complete_onlyTold (u.clearPending.setPriceOrder none) (s.takeSlot n).2.ref .ok p.version).frame
      generalize (u.clearPending.setPriceOrder none).complete _ _ _ = z at *
      obtain ⟨m, a, rfl⟩ : ∃ m a, z = { u.clearPending.setPriceOrder none with mem := m, port := { u.port with attn := a } } := ⟨_, _, hframe⟩
      refine ⟨_, he, hanswered, ?_, rfl, hboth.asked.iff fun q k => by simp, ?_⟩
      · change ({ u.ret with pendingArea := u.ret.pendingArea.cleared, marks := ⟨false, false⟩ } : Retention) = _
        rw [hboth.ret]
        rfl
      · obtain ⟨ret, price, disp, mem, port, rev, rfl⟩ : ∃ ret price disp mem port rev, u = { s with
          ret := ret, price := price, disp := disp, mem := mem, port := port, rev := rev } := ⟨_, _, _, _, _, _, hboth.frame⟩
        rfl
    · have hheld := hnone hq
      rw [State.applyBoth, hheld.stays (hs .a), hheld.stays (hs .b), State.finishPending_open hheld.pending rfl] at he
      have hdisp : ((((x.supersede p.version).setPending p).setPriceOrder (some (s.takeSlot n).2.ref)).attn .price).disp = s.disp := by
        rw [State.supersede_none (by rw [hxr]; exact hq)]
        exact hxd
      generalize State.attn _ .price = u at *
      refine ⟨_, he, h.heldTaken [.price] ?_ ?_, hheld.ret, congrArg PriceUnit.order hheld.price, ?_⟩
      · exact hheld.told.mem.trans (by rw [hx])
      · refine hheld.told.port.trans ?_
        rw [flagsOf_one, hx]
        rfl
      · obtain ⟨ret, price, disp, mem, port, rev, rfl⟩ : ∃ ret price disp mem port rev, u = { s with
          ret := ret, price := price, disp := disp, mem := mem, port := port, rev := rev } := ⟨_, _, _, _, _, _, hheld.frame⟩
        cases hdisp
        rfl
    · intro free told
      have hheld : s.Priced
          ((((x.supersede p.version).setPending p).setPriceOrder (some (s.takeSlot n).2.ref)).attn .price) told p (s.takeSlot n).2.ref
          ⟨false, false⟩ (fun _ _ => False) := by
        cases hq : s.ret.pendingSet with
        | none =>
          have htold : told = x := by
            dsimp only [told]
            rw [hq, hx]
          rw [htold]
          exact hnone hq
        | some q =>
          have htold : told = x.completeOpt s.price.order .superseded (versionMarksDetail p.version q.marks) := by
            dsimp only [told]
            rw [hq, hx, versionMarksDetail_eq]
          have hxp : x.price = s.price := by rw [hx]; rfl
          rw [htold, State.supersede_some (by rw [hxr]; exact hq), hxp]
          exact State.priced_held hxr hxd (x.completeOpt_onlyTold _ _ _) (.refl _) hxframe _
      have hboth := State.applyBoth_eq hheld hact hu hd
      rw [State.applyBoth] at he
      generalize (State.applyIfDue _ .a).applyIfDue .b = u at hboth he
      have hmarks : (⟨!s.inSale .a, !s.inSale .b⟩ : Sides Bool) = (⟨false, false⟩ : Sides Bool).set d.other free := by
        cases d
        · exact congrArg (fun c => (⟨!c, !s.inSale .b⟩ : Sides Bool)) hs
        · exact congrArg (fun c => (⟨!s.inSale .a, !c⟩ : Sides Bool)) hs
      have hfree : free = !s.inSale d.other := rfl
      rw [hmarks] at hboth
      clear_value told free
      rw [State.finishPending_open hboth.pending (by cases d <;> cases free <;> rfl)] at he
      refine ⟨_, he, hboth.told.mem, ?_, ?_, congrArg PriceUnit.order hboth.price, ?_, ?_⟩
      · rw [flagsOf_one]
        exact hboth.told.port
      · refine hboth.ret.trans ?_
        cases d <;> cases free <;> rfl
      · refine hboth.asked.iff fun q k => ?_
        cases d <;> simp [hs, hfree, priceRole, Side.other] <;> tauto
      · obtain ⟨ret, price, disp, mem, port, rev, rfl⟩ : ∃ ret price disp mem port rev, u = { s with
          ret := ret, price := price, disp := disp, mem := mem, port := port, rev := rev } := ⟨_, _, _, _, _, _, hboth.frame⟩
        rfl
  · have hfield' : s.priceField n = some f := by
      rcases hf with ⟨hv, rfl⟩ | ⟨hv, i, h1, h10, rfl, hi, hp⟩
      · rw [State.priceField, if_pos hv]
      · exact State.priceField_some hv h1 h10 hi hp
    rw [State.orderPriceSet_field (by rw [hslot, State.takeSlot_priceField]; exact hfield')] at he
    exact h.turnedAway he

end Sys2Proof.Machine
end

section
/-! PROOFS. The settle timer and the completion of a sale. -/

namespace Sys2Proof.Machine

/-! ## The sale and the fueling point as the sale completes (R24, R29) -/

/-- The current sale as it completes or is discarded. -/
def Sale.closedOut (x : Sale) (n : Nat) (now : Word32) : Sale :=
  if x.volume = 0 then { x with endTime := some now, status := .discarded } else { x with endTime := some now, number := n, status := .completed }

theorem RetSide.completeSale_sale (r : RetSide) (now : Word32) : (r.completeSale now).sale = r.sale.closedOut (nextNumber r.counter) now := by
  unfold RetSide.completeSale Sale.closedOut
  by_cases h : r.sale.volume = 0 <;> simp only [h, ↓reduceIte]

theorem Sale.closedOut_volume (x : Sale) (n : Nat) (now : Word32) : (x.closedOut n now).volume = x.volume := by
  unfold Sale.closedOut
  split <;> rfl

theorem Sale.closedOut_endCause (x : Sale) (n : Nat) (now : Word32) : (x.closedOut n now).endCause = x.endCause := by
  unfold Sale.closedOut
  split <;> rfl

theorem Sale.closedOut_firstCause (x : Sale) (n : Nat) (now : Word32) : (x.closedOut n now).firstCause = x.firstCause := by
  unfold Sale.closedOut
  split <;> rfl

theorem Sale.closedOut_hose (x : Sale) (n : Nat) (now : Word32) : (x.closedOut n now).hose = x.hose := by
  unfold Sale.closedOut
  split <;> rfl

/-- The fueling point as its sale completes. -/
def FuelPoint.closedOut (f : FuelPoint) (x : Sale) (now : Word32) : FuelPoint :=
  { f with lastEnd := some (x.lastEnd now), auth := none, button := none, pressTimer := none, settle := none }

theorem State.closeOut_frame (s : State) (d : Side) : s.closeOut d = { s with
    ret := { s.ret with sides := s.ret.sides.set d ((s.ret.sides.get d).completeSale s.rtc) }
    fp := s.fp.set d ((s.fp.get d).closedOut ((s.sale d).closedOut (nextNumber (s.ret.sides.get d).counter) s.rtc) s.rtc)
    vlv := s.vlv.set d { s.vlv.get d with slow := false }
    disp := s.disp.requestAll (saleRole d) .sale
    port := { s.port with attn := s.port.attn ||| flagsOf ((if (s.sale d).volume = 0 then [] else [saleFlag d]) ++ [fpFlag d]) }
    rev := (s.closeOut d).rev } := by
  have hsale : (s.updRetSide d (s.sale d).closeParts (fun r => r.completeSale s.rtc)).sale d =
      (s.sale d).closedOut (nextNumber (s.ret.sides.get d).counter) s.rtc := by
    rw [State.sale, State.updRetSide_ret, Sides.get_set_same, RetSide.completeSale_sale]
    rfl
  have hfold : s.closeOut d = (((((s.updRetSide d (s.sale d).closeParts (fun r => r.completeSale s.rtc)).updFp d
      (fun f => f.closedOut ((s.updRetSide d (s.sale d).closeParts (fun r => r.completeSale s.rtc)).sale d) s.rtc)).attn (fpFlag d)).attnIf
        (decide (((s.updRetSide d (s.sale d).closeParts (fun r => r.completeSale s.rtc)).sale d).volume ≠ 0)) (saleFlag d)).updValveSide d
          (fun x => { x with slow := false })).requestSale d := rfl
  rw [hfold, hsale, Sale.closedOut_volume]
  by_cases hv : (s.sale d).volume = 0
  · simp only [hv, ↓reduceIte, ne_eq, not_true_eq_false, decide_false, List.nil_append, flagsOf_one]
    rfl
  · simp only [hv, ↓reduceIte, ne_eq, not_false_eq_true, decide_true, List.cons_append, List.nil_append, flagsOf_cons, flagsOf_nil]
    have hattn : s.port.attn ||| (fpFlag d).mask ||| (saleFlag d).mask = s.port.attn ||| ((saleFlag d).mask ||| ((fpFlag d).mask ||| 0)) := by
      rw [show (fpFlag d).mask ||| 0 = (fpFlag d).mask from BitVec.or_zero, or_or_swap, BitVec.or_assoc]
    rw [← hattn]
    rfl

/-! ## The state that follows a completion (R25) -/

/-- A completion that locks the side (R25, R30). -/
def State.locksAfter (s : State) (d : Side) : Bool := decide (s.pw.state = .halted) || (s.sale d).endsInLock

/-- The state of a side as its sale has completed (R25). -/
def State.afterSale (s : State) (d : Side) : FpState :=
  if s.locksAfter d then .locked
  else if s.fuelable d = false then .unavailable
  else if ((s.fp.get d).lift (s.sale d).hose).isSome then .finished
  else (s.fp.get d).readyState

/-- The side as its sale has completed, its state still standing. -/
def State.afterNoted (s : State) (d : Side) : State := if s.locksAfter d then s.lockNoted d (s.sale d).lockCause else s

theorem State.afterCompletion_eq (s : State) (d : Side) : s.afterCompletion d = (s.afterNoted d).setFpState d (s.afterSale d) := by
  unfold State.afterCompletion State.afterNoted State.afterSale State.locksAfter
  by_cases hh : s.pw.state = .halted
  · simp only [hh, if_true, decide_true, Bool.true_or, State.lockFp_eq]
  · by_cases he : (s.sale d).endsInLock = true
    · simp only [hh, he, if_true, if_false, Bool.or_true, State.lockFp_eq]
    · rw [Bool.not_eq_true] at he
      simp only [hh, he, if_false, decide_false, Bool.or_false, Bool.false_eq_true]
      split
      · rfl
      · split <;> rfl

/-- The lock that a completion notes in the side's record (R25, R51). -/
def FuelPoint.afterSale (f : FuelPoint) (locks : Bool) (c : Cause) (st : FpState) : FuelPoint :=
  { (if locks then f.lockNoted c else f) with state := st }

/-- The lock that a completion notes in retention memory (R25). -/
def RetSide.afterSale (r : RetSide) (locks : Bool) (c : Cause) : RetSide := if locks then { r with locked := true, lockCause := some c } else r

theorem State.afterSale_cases (s : State) (d : Side) : s.afterSale d = .locked ∨ (s.afterSale d = .unavailable ∧ s.fuelable d = false)
    ∨ (s.fuelable d = true ∧ (s.afterSale d = .finished ∨ s.afterSale d = .calling ∨ s.afterSale d = .idle)) := by
  unfold State.afterSale FuelPoint.readyState
  split
  · exact .inl rfl
  · cases s.fuelable d
    · exact .inr (.inl ⟨rfl, rfl⟩)
    · refine .inr (.inr ⟨rfl, ?_⟩)
      rw [if_neg (by decide)]
      split
      · exact .inl rfl
      · split
        · exact .inr (.inl rfl)
        · exact .inr (.inr rfl)

theorem State.afterSale_outOfSale (s : State) (d : Side) : (s.afterSale d).inSale = false := by
  rcases s.afterSale_cases d with h | ⟨h, -⟩ | ⟨-, h | h | h⟩ <;> rw [h] <;> rfl

theorem attributed_outOfSale {st : FpState} (h : st.inSale = false) (x : Sale) (p : Product) : attributed st x p = .unassigned := by
  cases st <;> first | rfl | cases h

theorem State.afterCompletion_otherMet (s : State) (d : Side) : (s.afterCompletion d).met.get d.other = s.met.get d.other := by
  rw [State.afterCompletion_eq, State.setFpState_met_other]
  unfold State.afterNoted
  split <;> rfl

section after
variable {s : State} {d : Side} (h : s.fpState d = .settling)
include h

theorem State.afterNoted_fpState : (s.afterNoted d).fpState d = .settling := by
  unfold State.afterNoted
  split
  · rw [State.lockNoted_fpState, h]
  · exact h

theorem State.afterNoted_ne : (s.afterNoted d).fpState d ≠ s.afterSale d := by
  rw [State.afterNoted_fpState h]
  intro hc
  have := s.afterSale_outOfSale d
  rw [← hc] at this
  cases this

/-- A completion leads to the next state, and a lock is noted where it locks. -/
theorem State.afterCompletion_frame : s.afterCompletion d = { s with
    fp := s.fp.set d ((s.fp.get d).afterSale (s.locksAfter d) (s.sale d).lockCause (s.afterSale d))
    ret := { s.ret with sides := s.ret.sides.set d ((s.ret.sides.get d).afterSale (s.locksAfter d) (s.sale d).lockCause) }
    met := (s.afterCompletion d).met
    port := { s.port with
      attn := s.port.attn ||| flagsOf ((if s.afterSale d = .calling then [.call] else []) ++ [fpFlag d]) }
    rev := (s.afterCompletion d).rev } := by
  have hport := (s.afterNoted d).setFpState_port d (s.afterSale d)
  have hframe := (s.afterNoted d).setFpState_frame d (s.afterSale d)
  rw [if_neg (State.afterNoted_ne h)] at hport
  rw [hport] at hframe
  rw [s.afterCompletion_eq d]
  refine hframe.trans ?_
  have hnp : (s.afterNoted d).port = s.port := by
    unfold State.afterNoted
    split <;> rfl
  have hattn : (if s.afterSale d = .calling then (s.port.attn ||| (fpFlag d).mask) ||| Attn.call.mask else s.port.attn ||| (fpFlag d).mask)
      = s.port.attn ||| flagsOf ((if s.afterSale d = .calling then [.call] else []) ++ [fpFlag d]) := by
    split
    · rw [flagsOf_append, flagsOf_one, flagsOf_one, BitVec.or_assoc, BitVec.or_comm (fpFlag d).mask]
    · rw [List.nil_append, flagsOf_one]
  rw [hnp, hattn]
  have hrev : ((s.afterNoted d).setFpState d (s.afterSale d)).rev = (s.afterNoted d).rev := State.setFpState_rev ..
  rw [hrev]
  generalize ((s.afterNoted d).setFpState d (s.afterSale d)).met = met
  generalize s.port.attn ||| _ = w
  unfold State.afterNoted FuelPoint.afterSale RetSide.afterSale
  cases s.locksAfter d
  · simp only [Bool.false_eq_true, ↓reduceIte, Sides.set_get]
  · simp only [↓reduceIte, State.lockNoted, Sides.get_set_same, Sides.set_set]

theorem State.afterCompletion_meter (p : Product) : (s.afterCompletion d).meter ⟨d, p⟩ = (s.meter ⟨d, p⟩).under .unassigned := by
  rw [State.afterCompletion_eq, State.setFpState_meter _ _ _ _ (State.afterNoted_ne h), if_pos rfl,
    attributed_outOfSale (s.afterSale_outOfSale d)]
  unfold State.afterNoted
  split <;> rfl

end after

/-! ## The completion as a whole -/

theorem or_or_merge (a b c f : Word16) : a ||| (b ||| f) ||| (c ||| f) = a ||| (c ||| b ||| f) := by
  apply BitVec.eq_of_getLsbD_eq
  intro i _
  simp only [BitVec.getLsbD_or]
  cases a.getLsbD i <;> cases b.getLsbD i <;> cases c.getLsbD i <;> cases f.getLsbD i <;> rfl

section closes
variable {s : State} {d : Side}

theorem State.closeOut_sale (s : State) (d : Side) :
    (s.closeOut d).sale d = (s.sale d).closedOut (nextNumber (s.ret.sides.get d).counter) s.rtc := by
  rw [s.closeOut_frame d, State.sale]
  dsimp only
  rw [Sides.get_set_same, RetSide.completeSale_sale]
  rfl

theorem State.closeOut_locksAfter (s : State) (d : Side) : (s.closeOut d).locksAfter d = s.locksAfter d := by
  have hpw : (s.closeOut d).pw = s.pw := by rw [s.closeOut_frame d]
  unfold State.locksAfter Sale.endsInLock
  rw [s.closeOut_sale d, Sale.closedOut_endCause, hpw]

theorem State.closeOut_lockCause (s : State) (d : Side) : ((s.closeOut d).sale d).lockCause = (s.sale d).lockCause := by
  unfold Sale.lockCause
  rw [s.closeOut_sale d, Sale.closedOut_endCause, Sale.closedOut_firstCause]

theorem State.closeOut_fuelable (s : State) (d e : Side) : (s.closeOut d).fuelable e = s.fuelable e := by
  have hdisp : (s.closeOut d).meets e .display = s.meets e .display := State.meets_display_congr (by
    rw [s.closeOut_frame d]
    exact (s.disp.requestAll_asked (saleRole d) .sale).heads) e
  unfold State.fuelable
  rw [hdisp, s.closeOut_frame d]
  rfl

theorem State.closeOut_afterSale (s : State) (d : Side) : (s.closeOut d).afterSale d = s.afterSale d := by
  have hfp : (s.closeOut d).fp.get d = (s.fp.get d).closedOut ((s.sale d).closedOut (nextNumber (s.ret.sides.get d).counter) s.rtc) s.rtc := by
    rw [s.closeOut_frame d]
    exact Sides.get_set_same ..
  unfold State.afterSale
  rw [s.closeOut_locksAfter d, s.closeOut_fuelable d, s.closeOut_sale d, Sale.closedOut_hose, hfp]
  rfl

/-- The sale closed out and the side in its next state. -/
theorem State.closes (h : s.fpState d = .settling) : (s.closeOut d).afterCompletion d = { s with
    fp := s.fp.set d (((s.fp.get d).closedOut ((s.sale d).closedOut (nextNumber (s.ret.sides.get d).counter) s.rtc) s.rtc).afterSale
      (s.locksAfter d) (s.sale d).lockCause (s.afterSale d))
    ret := { s.ret with
      sides := s.ret.sides.set d (((s.ret.sides.get d).completeSale s.rtc).afterSale (s.locksAfter d) (s.sale d).lockCause) }
    vlv := s.vlv.set d { s.vlv.get d with slow := false }
    disp := s.disp.requestAll (saleRole d) .sale
    met := ((s.closeOut d).afterCompletion d).met
    port := { s.port with attn := s.port.attn ||| flagsOf ((if s.afterSale d = .calling then [.call] else [])
      ++ (if (s.sale d).volume = 0 then [] else [saleFlag d]) ++ [fpFlag d]) }
    rev := ((s.closeOut d).afterCompletion d).rev } := by
  have hset : (s.closeOut d).fpState d = .settling := by rw [State.closeOut_fpState, h]
  have hframe := State.afterCompletion_frame hset
  rw [s.closeOut_locksAfter d, s.closeOut_lockCause d, s.closeOut_afterSale d] at hframe
  refine hframe.trans ?_
  generalize (s.closeOut d).afterCompletion d = v
  have hflags := or_or_merge s.port.attn (flagsOf (if (s.sale d).volume = 0 then [] else [saleFlag d]))
    (flagsOf (if s.afterSale d = .calling then [.call] else [])) (flagsOf [fpFlag d])
  rw [← flagsOf_append, ← flagsOf_append, ← flagsOf_append, ← flagsOf_append] at hflags
  rw [← hflags]
  rw [s.closeOut_frame d]
  simp only [Sides.get_set_same, Sides.set_set]

theorem State.closes_meter (h : s.fpState d = .settling) (p : Product) :
    ((s.closeOut d).afterCompletion d).meter ⟨d, p⟩ = (s.meter ⟨d, p⟩).under .unassigned := by
  rw [State.afterCompletion_meter (by rw [State.closeOut_fpState, h]), s.closeOut_frame d]
  rfl

theorem State.closes_otherMet (s : State) (d : Side) : ((s.closeOut d).afterCompletion d).met.get d.other = s.met.get d.other := by
  rw [State.afterCompletion_otherMet, s.closeOut_frame d]

end closes

end Sys2Proof.Machine
end

section
/-! PROOFS. SETTLE_TIMER_EXPIRY. -/

namespace Sys2Proof.Machine

section settled
variable {s : State} {d : Side} {e : Cause}

theorem Sale.endsInLock_of (x : Sale) (he : x.endCause = some e) : x.endsInLock = e.isLock := by
  unfold Sale.endsInLock
  rw [he]

theorem Sale.lockCause_of (x : Sale) (he : x.endCause = some e) : x.lockCause =
    if e.isLock then e else if x.firstCause.any Cause.isLock then x.firstCause.getD .halt else .halt := by
  unfold Sale.lockCause
  rw [he]
  cases x.firstCause with
  | none => rfl
  | some f => rfl

theorem State.locksAfter_iff (he : (s.sale d).endCause = some e) : s.locksAfter d = true ↔ s.pw.state = .halted ∨ e.isLock = true := by
  unfold State.locksAfter
  rw [(s.sale d).endsInLock_of he, Bool.or_eq_true, decide_eq_true_eq]

theorem State.settledBy_of_unfuelable (hf : s.fuelable d = false) (hu : s.fpState d = .unavailable) : s.settledBy d := by
  unfold State.settledBy State.reviewFp
  rw [hu]
  exact if_neg (by simp [hf])

end settled

theorem Display.Asked.showsWith_iff {x y : Display} {R : Role → FrameKind → Prop} (h : x.Asked y R) (r q : Role) :
    y.showsWith r q ↔ x.showsWith r q := by
  rw [Display.showsWith, h.heads]
  rfl

/-- What a price set that is held says of its place. -/
theorem State.pendingSet_some {s : State} {p : PendingSet} (h : s.ret.pendingSet = some p) :
    s.ret.pendingArea.present = true ∧ p.prices = s.ret.pendingArea.set ∧ p.marks = s.ret.marks := by
  unfold Retention.pendingSet SetArea.held at h
  cases hp : s.ret.pendingArea.present with
  | false => rw [hp] at h; cases h
  | true =>
    rw [hp] at h
    cases h
    exact ⟨rfl, rfl, rfl⟩

theorem bothMarks_set (m : Sides Bool) (d : Side) : ((m.set d true).a && (m.set d true).b) = m.get d.other := by
  cases d
  · exact Bool.true_and _
  · exact Bool.and_true _

/-- Settles O17: the sale is closed out, the side goes on by the next state, and a price set that waited for it is applied. -/
theorem settleTimerCompletesTheSale : Obligations.SettleTimerCompletesTheSale := by
  intro s d e hs hset htimer he x side zero number done totals locks cause next flags starts closed completed
  have hexec : exec (.settleTimerExpiry d) s = .next (publish s ((((s.closeOut d).afterCompletion d).applyIfDue d).finishPending)) :=
    (event_steady hs).trans (by rw [if_pos ⟨hset, htimer⟩]; rfl)
  have hlocks := State.locksAfter_iff he
  have hcause : (s.sale d).lockCause = cause := (s.sale d).lockCause_of he
  have hnext : s.afterSale d = next := by
    unfold State.afterSale
    by_cases hl : locks
    · dsimp only [next]
      rw [if_pos (hlocks.mpr hl), if_pos hl]
    · dsimp only [next]
      rw [if_neg (fun hc => hl (hlocks.mp hc)), if_neg hl]
      rfl
  have hnumber : nextNumber side.counter = number := rfl
  have hframe := State.closes hset
  have hmeter := State.closes_meter hset
  have hother := s.closes_otherMet d
  rw [hcause, hnext] at hframe
  have htotals : addTotals side.grades { x with endTime := some s.rtc, number := number, status := .completed } = totals := by
    dsimp only [totals]
    unfold addTotals
    cases x.grade <;> rfl
  have hclosed : side.completeSale s.rtc = { side with
      sale := done, counter := if zero then side.counter else number, list := if zero then side.list else side.list ++ [done]
      grades := if zero then side.grades else totals } := by
    unfold RetSide.completeSale
    by_cases hz : zero
    · have hv : side.sale.volume = 0 := hz
      simp only [done, if_pos hz, if_pos hv]
      rfl
    · have hv : ¬ side.sale.volume = 0 := hz
      simp only [done, if_neg hz, if_neg hv]
      rw [← htotals]
      rfl
  have hside : (side.completeSale s.rtc).afterSale (s.locksAfter d) cause = closed := by
    rw [hclosed]
    unfold RetSide.afterSale
    by_cases hl : locks
    · rw [if_pos (hlocks.mpr hl)]
      simp only [closed, if_pos hl]
    · rw [if_neg (fun hc => hl (hlocks.mp hc))]
      simp only [closed, if_neg hl]
  have hlast : (x.closedOut (nextNumber side.counter) s.rtc).lastEnd s.rtc =
      { kind := if zero then .saleDiscarded else .saleCompleted, cause := e, number := if zero then 0 else number, time := s.rtc } := by
    unfold Sale.lastEnd
    rw [Sale.closedOut_endCause, Sale.closedOut_volume, he]
    unfold Sale.closedOut
    by_cases hz : zero
    · have hv : x.volume = 0 := hz
      simp only [if_pos hz, if_pos hv]
      rfl
    · have hv : ¬ x.volume = 0 := hz
      simp only [if_neg hz, if_neg hv]
      rfl
  have hrec : ((s.fp.get d).closedOut (x.closedOut (nextNumber side.counter) s.rtc) s.rtc).afterSale (s.locksAfter d) cause next =
      { s.fp.get d with
          state := next, auth := none, button := none, pressTimer := none, settle := none
          lockFlow := if starts then some 0 else (s.fp.get d).lockFlow, lockFlowMade := if starts then false else (s.fp.get d).lockFlowMade
          lastEnd := some { kind := if zero then .saleDiscarded else .saleCompleted, cause := e, number := if zero then 0 else number
                            time := s.rtc } } := by
    unfold FuelPoint.closedOut FuelPoint.afterSale FuelPoint.lockNoted
    rw [hlast]
    by_cases hl : locks
    · rw [if_pos (hlocks.mpr hl)]
      by_cases hc : cause = .unauthFlow
      · rw [if_pos hc]
        simp only [if_pos (show starts from ⟨hl, hc⟩)]
      · rw [if_neg hc]
        simp only [if_neg (show ¬ starts from fun h => hc h.2)]
    · rw [if_neg (fun hc => hl (hlocks.mp hc))]
      simp only [if_neg (show ¬ starts from fun h => hl h.1)]
  have hcompleted {t : State} (hx : exec (.settleTimerExpiry d) s = .next t) (hf : t.fp = ((s.closeOut d).afterCompletion d).fp)
      (hv : t.vlv = ((s.closeOut d).afterCompletion d).vlv) (hm : t.met = ((s.closeOut d).afterCompletion d).met) : completed t := by
    refine ⟨hx, ?_, ?_, ?_, fun p => ?_⟩
    · rw [hf, hframe, ← hrec]
    · rw [hv, hframe]
    · rw [hm, hother]
    · rw [State.meter, hm]
      exact hmeter p
  have hret : ((s.closeOut d).afterCompletion d).ret = { s.ret with sides := s.ret.sides.set d closed } := by rw [hframe, ← hside]
  have hport : ((s.closeOut d).afterCompletion d).port = { s.port with attn := s.port.attn ||| flagsOf flags } := by
    rw [hframe]
  have hdisp : ((s.closeOut d).afterCompletion d).disp = s.disp.requestAll (saleRole d) .sale := by rw [hframe]
  have hrest : ((s.closeOut d).afterCompletion d) = { s with
      ret := ((s.closeOut d).afterCompletion d).ret, fp := ((s.closeOut d).afterCompletion d).fp, vlv := ((s.closeOut d).afterCompletion d).vlv
      met := ((s.closeOut d).afterCompletion d).met, disp := ((s.closeOut d).afterCompletion d).disp
      port := ((s.closeOut d).afterCompletion d).port, rev := ((s.closeOut d).afterCompletion d).rev } := by
    rw [hframe]
  have hstate : ((s.closeOut d).afterCompletion d).fpState d = next := by
    rw [hframe, State.fpState]
    exact congrArg FuelPoint.state (Sides.get_set_same ..)
  have hfuel : next = .locked ∨ (next = .unavailable ∧ s.fuelable d = false) ∨ (s.fuelable d = true ∧ next ≠ .unavailable) := by
    rw [← hnext]
    rcases s.afterSale_cases d with h | h | ⟨hf, h⟩
    · exact .inl h
    · exact .inr (.inl h)
    · refine .inr (.inr ⟨hf, ?_⟩)
      rcases h with h | h | h <;> rw [h] <;> decide
  have hout : next.inSale = false := by rw [← hnext]; exact s.afterSale_outOfSale d
  clear hframe hmeter hother hrec hside hclosed
  generalize (s.closeOut d).afterCompletion d = v at *
  clear_value flags closed completed next
  have hpending : v.ret.pendingSet = s.ret.pendingSet := by rw [hret]; rfl
  have hpw : v.pw = s.pw := by rw [hrest]
  have hprice : v.price = s.price := by rw [hrest]
  refine ⟨fun hp => ?_, fun p hp hm ha hi => ?_⟩
  · have hwait : (v.applyIfDue d).finishPending = v := by
      cases hq : s.ret.pendingSet with
      | none => rw [State.applyIfDue_none (hpending.trans hq), State.finishPending_none (hpending.trans hq)]
      | some p =>
        obtain ⟨hdue, hmarks⟩ := hp p hq
        rw [State.applyIfDue_waits (hpending.trans hq) (hdue.imp_right fun h => .inr (by rw [hpw]; exact h)),
          State.finishPending_open (hpending.trans hq) hmarks]
    rw [hwait] at hexec
    refine ⟨_, hcompleted hexec rfl rfl rfl, hret, hport, ?_, ?_⟩
    · change s.disp.Asked v.disp _
      rw [hdisp]
      exact s.disp.requestAll_asked _ _
    · obtain ⟨ret, fp, vlv, met, disp, port, rev, rfl⟩ : ∃ ret fp vlv met disp port rev, v = { s with
        ret := ret, fp := fp, vlv := vlv, met := met, disp := disp, port := port, rev := rev } := ⟨_, _, _, _, _, _, _, hrest⟩
      rfl
  · intro both told
    have hfuelable : (v.pricedBy d p.prices).fuelable d = s.fuelable d := by
      have hd : v.meets d .display = s.meets d .display := State.meets_display_congr (by
        rw [hdisp]
        exact (s.disp.requestAll_asked (saleRole d) .sale).heads) d
      have hn : s.meets d .noPrices = true := hi
      rw [State.pricedBy_fuelable, State.fuelable, hd, hn, Bool.and_true, hrest]
      rfl
    have hpstate : (v.pricedBy d p.prices).fpState d = next := hstate
    have hsettled : (v.pricedBy d p.prices).settledBy d := by
      rcases hfuel with h | ⟨h, hf⟩ | ⟨hf, h⟩
      · exact State.reviewFp_locked (hpstate.trans h)
      · exact State.settledBy_of_unfuelable (hfuelable.trans hf) (hpstate.trans h)
      · exact State.settledBy_of_fuelable (hfuelable.trans hf) (by rw [hpstate]; exact h)
    rw [State.applyIfDue_applies (hpending.trans hp) hm (by rw [State.inSale, hstate, hout]) (by rw [hpw]; exact ha) hsettled] at hexec
    obtain ⟨y, hy⟩ : ∃ y, y = v.pricedBy d p.prices := ⟨_, rfl⟩
    rw [← hy] at hexec
    obtain ⟨hpresent, hset, hmarks⟩ := State.pendingSet_some hp
    have hyret : y.ret = { s.ret with
        sides := s.ret.sides.set d closed, appliedArea := s.ret.appliedArea.set d ⟨true, p.prices⟩, marks := p.marks.set d true } := by
      rw [hy]
      change ({ v.ret with appliedArea := v.ret.appliedArea.set d ⟨true, p.prices⟩, marks := v.ret.marks.set d true } : Retention) = _
      rw [hret, ← hmarks]
    have hypending : y.ret.pendingSet = some ⟨p.prices, p.marks.set d true⟩ := by
      rw [hyret, Retention.pendingSet, SetArea.held]
      dsimp only
      rw [hpresent, ← hset]
      rfl
    have hytold : y.Told s (flagsOf (.price :: flags)) := by
      have hmem : v.mem = s.mem := by rw [hrest]
      have hrtc : v.rtc = s.rtc := by rw [hrest]
      rw [hy]
      refine ⟨hmem, hrtc, ?_⟩
      change ({ v.port with attn := v.port.attn ||| Attn.price.mask } : Port) = _
      rw [hport, flagsOf_cons, BitVec.or_comm Attn.price.mask, ← BitVec.or_assoc]
    have hyprice : y.price = s.price := by rw [hy]; exact hprice
    have hasked : s.disp.Asked y.disp (fun q k =>
        (k = .sale ∧ s.disp.showsWith (saleRole d) q) ∨ (k = .board ∧ s.disp.showsWith (priceRole d) q)) := by
      have hfirst : s.disp.Asked v.disp (fun q k => k = .sale ∧ s.disp.showsWith (saleRole d) q) := by
        rw [hdisp]
        exact s.disp.requestAll_asked _ _
      rw [hy]
      refine (hfirst.trans (v.disp.requestAll_asked (priceRole d) .board)).iff fun q k => ?_
      rw [hfirst.showsWith_iff]
    have hyrest : y = { s with
        ret := y.ret, fp := v.fp, vlv := v.vlv, met := v.met, disp := y.disp, port := y.port, rev := y.rev } := by
      rw [hy]
      obtain ⟨ret, fp, vlv, met, disp, port, rev, rfl⟩ : ∃ ret fp vlv met disp port rev, v = { s with
        ret := ret, fp := fp, vlv := vlv, met := met, disp := disp, port := port, rev := rev } := ⟨_, _, _, _, _, _, _, hrest⟩
      rfl
    have hyfp : y.fp = v.fp := by rw [hy]; rfl
    have hyvlv : y.vlv = v.vlv := by rw [hy]; rfl
    have hymet : y.met = v.met := by rw [hy]; rfl
    have hboth : ((p.marks.set d true).a && (p.marks.set d true).b) = both := bothMarks_set p.marks d
    clear hy hrest hpstate hsettled hfuelable
    clear_value both
    cases both
    · rw [State.finishPending_open hypending hboth] at hexec
      refine ⟨_, hcompleted hexec ?_ ?_ ?_, ?_, hyprice, hytold.mem, hytold.port, hasked, ?_⟩
      · exact hyfp
      · exact hyvlv
      · exact hymet
      · refine hyret.trans ?_
        have harea : ({ s.ret.pendingArea with present := true } : SetArea) = s.ret.pendingArea := by rw [← hpresent]
        change _ = ({ s.ret with
          sides := s.ret.sides.set d closed, appliedArea := s.ret.appliedArea.set d ⟨true, p.prices⟩
          pendingArea := { s.ret.pendingArea with present := true }, marks := p.marks.set d true } : Retention)
        rw [harea]
      · obtain ⟨ret, fp, vlv, met, disp, port, rev, rfl⟩ : ∃ ret fp vlv met disp port rev, y = { s with
          ret := ret, fp := fp, vlv := vlv, met := met, disp := disp, port := port, rev := rev } := ⟨_, _, _, _, _, _, _, hyrest⟩
        rfl
    · rw [State.finishPending_done hypending hboth, hyprice] at hexec
      have htold : (y.clearPending.setPriceOrder none).Told s (flagsOf (.price :: flags)) := hytold.congr rfl rfl rfl
      have hz := htold.completeOpt s.price.order .ok p.prices.version
      have hzframe := ((y.clearPending.setPriceOrder none).completeOpt_onlyTold s.price.order .ok p.prices.version).frame
      generalize (y.clearPending.setPriceOrder none).completeOpt _ _ _ = z at *
      obtain ⟨m, a, rfl⟩ : ∃ m a, z = { y.clearPending.setPriceOrder none with mem := m, port := { y.port with attn := a } } := ⟨_, _, hzframe⟩
      refine ⟨_, hcompleted hexec hyfp hyvlv hymet, ?_, rfl, hz.mem, hz.port, hasked, ?_⟩
      · change ({ y.ret with pendingArea := y.ret.pendingArea.cleared, marks := ⟨false, false⟩ } : Retention) = _
        rw [hyret]
        rfl
      · obtain ⟨ret, fp, vlv, met, disp, port, rev, rfl⟩ : ∃ ret fp vlv met disp port rev, y = { s with
          ret := ret, fp := fp, vlv := vlv, met := met, disp := disp, port := port, rev := rev } := ⟨_, _, _, _, _, _, _, hyrest⟩
        rfl

end Sys2Proof.Machine
end

section
/-! PROOFS. The opening of a sale. -/

namespace Sys2Proof.Machine

/-! ## The message line as a sale opens (R111) -/

/-- The display with the message line of a side cleared. -/
def Display.lineCleared (x : Display) (d : Side) : Display := { x with lines := x.lines.set d .cleared }

theorem Display.Asked.lineCleared {x y : Display} {R : Role → FrameKind → Prop} (h : x.Asked y R) (d : Side) :
    (x.lineCleared d).Asked (y.lineCleared d) R where
  frame := by
    obtain ⟨queue, age, rfl⟩ : ∃ queue age, y = { x with queue := queue, nextAge := age } := ⟨_, _, h.frame⟩
    rfl
  kept := h.kept
  queued := h.queued
  only := h.only

/-! ## The state in which the gates of the new sale are tested (R13) -/

section opening
variable (s : State) (d : Side) (h : Hose) (a : AuthRecord)

/-- The record, the fueling point and the valves of a sale that opens, before the fueling point is in STARTING. -/
def State.opensIn (st : FpState) : State := { s with
  ret := { s.ret with sides := s.ret.sides.set d { s.ret.sides.get d with sale := openedSale d h a s.pw.degraded } }
  fp := s.fp.set d { (s.fp.get d).opened h a with state := st }
  vlv := s.vlv.set d { s.vlv.get d with slow := false, blend := { (s.vlv.get d).blend with setUp := false } }
  rev := s.rev.wroteTo ((allSaleParts.map SidePart.sale).map (RetPart.side d)) }

/-- The sale opened, its gates not tested. -/
def State.opening : State := (((s.opensIn d h a (s.fpState d)).setFpState d .starting).requestSale d).dropMessage d

/-- The record, the fueling point and the valves as the opening writes them one by one. -/
def State.openWritten : State :=
  ((((s.updSale d allSaleParts (fun _ => Sale.opening d h a s.pw.degraded)).updFp d (fun f =>
    { f with refused := none, expiry := none, gate1 := false, gate2 := false, gate3 := false, closeReason := none, base := none,
             overrun := 0, overrunMade := false, flowMade := false, saleSerial := f.saleSerial + 1 })).updValveSide d
    (fun x => { x with slow := false })).updBlend d (fun b => { b with setUp := false }))

variable {s d h a}

theorem State.openWritten_hose : ((s.openWritten d h a).sale d).hose = h := by
  change (((s.ret.sides.set d { s.ret.sides.get d with sale := Sale.opening d h a s.pw.degraded }).get d).sale).hose = h
  rw [Sides.get_set_same]
  rfl

variable (ha : (s.fp.get d).auth = some a)
include ha

theorem State.openWritten_enters : (s.openWritten d h a).updFp d (FuelPoint.entering h) = s.opensIn d h a (s.fpState d) := by
  have hfp : ((s.openWritten d h a).updFp d (FuelPoint.entering h)).fp = (s.opensIn d h a (s.fpState d)).fp := by
    refine Eq.trans (b := (s.openWritten d h a).fp.set d (FuelPoint.entering h ((s.openWritten d h a).fp.get d))) rfl ?_
    rw [show (s.openWritten d h a).fp = s.fp.set d _ from rfl, Sides.get_set_same, Sides.set_set]
    unfold State.opensIn FuelPoint.entering FuelPoint.opened
    rw [← ha]
    rfl
  have hvlv : ((s.openWritten d h a).updFp d (FuelPoint.entering h)).vlv = (s.opensIn d h a (s.fpState d)).vlv := by
    refine Eq.trans (b := (s.vlv.set d { s.vlv.get d with slow := false }).set d
      { (s.vlv.set d { s.vlv.get d with slow := false }).get d with
        blend := { ((s.vlv.set d { s.vlv.get d with slow := false }).get d).blend with setUp := false } }) rfl ?_
    rw [Sides.get_set_same, Sides.set_set]
    rfl
  refine Eq.trans (b := { s.opensIn d h a (s.fpState d) with
    fp := ((s.openWritten d h a).updFp d (FuelPoint.entering h)).fp, vlv := ((s.openWritten d h a).updFp d (FuelPoint.entering h)).vlv }) rfl ?_
  rw [hfp, hvlv]

theorem State.openSale_eq : s.openSale d h = (s.opening d h a).evalStarting d := by
  have hunfold : s.openSale d h = ((((s.openWritten d h a).enterStarting d).requestSale d).dropMessage d).evalStarting d := by
    unfold State.openSale
    rw [ha]
    rfl
  rw [hunfold, State.enterStarting, State.openWritten_hose, State.openWritten_enters ha]
  rfl

end opening

section opened
variable {s : State} {d : Side} {h : Hose} {a : AuthRecord}

theorem State.opensIn_starts (s : State) (d : Side) (h : Hose) (a : AuthRecord) :
    (s.opensIn d h a (s.fpState d)).setFpState d .starting = { s.opensIn d h a .starting with
      met := ((s.opensIn d h a (s.fpState d)).setFpState d .starting).met
      port := ((s.opensIn d h a (s.fpState d)).setFpState d .starting).port } := by
  refine ((s.opensIn d h a (s.fpState d)).setFpState_frame d .starting).trans ?_
  generalize (s.opensIn d h a (s.fpState d)).setFpState d .starting = v
  have hfp : (s.opensIn d h a (s.fpState d)).fp.set d { (s.opensIn d h a (s.fpState d)).fp.get d with state := .starting }
      = (s.opensIn d h a .starting).fp := by
    rw [State.opensIn, Sides.get_set_same, Sides.set_set]
    rfl
  rw [hfp]
  rfl

/-- What the opening gives the sale, the fueling point and the valves, and what it leaves alone. -/
structure State.Opening (s u : State) (d : Side) (h : Hose) (a : AuthRecord) : Prop where
  frame : u = { s with
    ret := { s.ret with sides := s.ret.sides.set d { s.ret.sides.get d with sale := openedSale d h a s.pw.degraded } }
    fp := s.fp.set d ((s.fp.get d).opened h a)
    vlv := s.vlv.set d { s.vlv.get d with slow := false, blend := { (s.vlv.get d).blend with setUp := false } }
    met := u.met, disp := (s.disp.requestAll (saleRole d) .sale).lineCleared d, mem := u.mem, port := u.port, rev := u.rev }
  told : u.Told (s.completeOpt (s.disp.lines.get d).order .superseded 0x10C) (fpFlag d).mask
  meters : ∀ m, u.meter m = if m.side = d then (s.meter m).under .unassigned else s.meter m

theorem State.opening_opens (hd : s.fpState d ≠ .starting) : s.Opening (s.opening d h a) d h a := by
  obtain ⟨v, hv⟩ : ∃ v, v = (s.opensIn d h a (s.fpState d)).setFpState d .starting := ⟨_, rfl⟩
  have hne : (s.opensIn d h a (s.fpState d)).fpState d ≠ .starting := by
    rw [State.fpState, State.opensIn, Sides.get_set_same]
    exact hd
  have hframe := s.opensIn_starts d h a
  have hport := (s.opensIn d h a (s.fpState d)).setFpState_port d .starting
  rw [if_neg hne, if_neg (by decide)] at hport
  have hmeter (m : Meter) := (s.opensIn d h a (s.fpState d)).setFpState_meter d .starting m hne
  have hunfold : s.opening d h a = (v.requestSale d).dropMessage d := by rw [hv]; rfl
  rw [← hv] at hframe hport hmeter
  have hvdisp : v.disp = s.disp := by rw [hframe]; rfl
  have hlines : (v.requestSale d).disp.lines = s.disp.lines := by
    have hasked := v.disp.requestAll_asked (saleRole d) .sale
    have hl : v.disp.lines = s.disp.lines := by rw [hvdisp]
    exact (congrArg Display.lines hasked.frame).trans hl
  have htold : (v.requestSale d).Told s (fpFlag d).mask := by
    refine ⟨?_, ?_, hport⟩
    · change v.mem = s.mem
      rw [hframe]
      rfl
    · change v.rtc = s.rtc
      rw [hframe]
      rfl
  have hcomplete := htold.completeOpt (s.disp.lines.get d).order .superseded 0x10C
  have hw := ((v.requestSale d).completeOpt_onlyTold (s.disp.lines.get d).order .superseded 0x10C).frame
  have hdrop : s.opening d h a = ((v.requestSale d).completeOpt (s.disp.lines.get d).order .superseded 0x10C).updLine d (fun _ => .cleared) := by
    rw [hunfold, State.dropMessage, hlines]
    rfl
  rw [hdrop]
  clear hdrop hunfold hv hne
  generalize (v.requestSale d).completeOpt _ _ _ = w at *
  obtain ⟨mem, attn, rfl⟩ : ∃ mem attn, w = { v.requestSale d with mem := mem, port := { v.port with attn := attn } } := ⟨_, _, hw⟩
  refine ⟨?_, hcomplete.congr rfl rfl rfl, fun m => ?_⟩
  · have hdisp : (v.requestSale d).disp = s.disp.requestAll (saleRole d) .sale := by rw [← hvdisp]; rfl
    obtain ⟨met, port, rfl⟩ : ∃ met port, v = { s.opensIn d h a .starting with met := met, port := port } := ⟨_, _, hframe⟩
    rfl
  · exact hmeter m

end opened


end Sys2Proof.Machine
end

section
/-! PROOFS. The gates of a sale as it opens. -/

namespace Sys2Proof.Machine

/-- A state `y` of an event that began at `s` in which a sale opens: the fueling point reads `f`, the slots and the port may differ. -/
structure State.OpensAt (s y : State) (d : Side) (f : FuelPoint) (a : AuthRecord) : Prop where
  frame : y = { s with free := y.free, fp := s.fp.set d f, mem := y.mem, port := y.port, rev := y.rev }
  auth : f.auth = some a
  state : f.state ≠ .starting
  before : s.fpState d ≠ .starting
  press : f.pressTimer = (s.fp.get d).pressTimer ∧ f.button = (s.fp.get d).button

section opens
variable {s y : State} {d : Side} {f : FuelPoint} {h : Hose} {a : AuthRecord}

/-- What is left to show of the state `t` in which the gates of the new sale have been tested. -/
structure State.OpenedFrom (s y t : State) (d : Side) (f : FuelPoint) (h : Hose) (a : AuthRecord) : Prop where
  opens : s.SaleOpens t d f h a
  told : t.Told (y.completeOpt (s.disp.lines.get d).order .superseded 0x10C) (fpFlag d).mask
  frame : t = { y with
    ret := t.ret, fp := t.fp, met := t.met, vlv := t.vlv, mot := t.mot, disp := t.disp, mem := t.mem, port := t.port, rev := t.rev }

/-- The opening at `y`, its gates not tested, in the words of `s`. -/
structure State.OpeningAt (s y u : State) (d : Side) (f : FuelPoint) (h : Hose) (a : AuthRecord) : Prop where
  frame : u = { s with
    free := y.free
    ret := { s.ret with sides := s.ret.sides.set d { s.ret.sides.get d with sale := openedSale d h a s.pw.degraded } }
    fp := s.fp.set d (f.opened h a)
    vlv := s.vlv.set d { s.vlv.get d with slow := false, blend := { (s.vlv.get d).blend with setUp := false } }
    met := u.met, disp := (s.disp.requestAll (saleRole d) .sale).lineCleared d, mem := u.mem, port := u.port, rev := u.rev }
  told : u.Told (y.completeOpt (s.disp.lines.get d).order .superseded 0x10C) (fpFlag d).mask
  meters : ∀ m, u.meter m = if m.side = d then (s.meter m).under .unassigned else s.meter m

theorem State.OpensAt.opening (hy : s.OpensAt y d f a) : s.OpeningAt y (y.opening d h a) d f h a := by
  have hyd : y.fp.get d = f := by
    rw [hy.frame]
    exact Sides.get_set_same ..
  have hne : y.fpState d ≠ .starting := by
    rw [State.fpState, hyd]
    exact hy.state
  have hdisp : y.disp = s.disp := by rw [hy.frame]
  obtain ⟨hframe, htold, hmeters⟩ := State.opening_opens (h := h) (a := a) hne
  rw [hyd] at hframe
  rw [hdisp] at htold
  refine ⟨?_, htold, fun m => ?_⟩
  · refine hframe.trans ?_
    clear hframe htold hmeters hyd hne hdisp
    generalize y.opening d h a = u
    obtain ⟨free, mem, port, rev, rfl⟩ : ∃ free mem port rev, y = { s with
      free := free, fp := s.fp.set d f, mem := mem, port := port, rev := rev } := ⟨_, _, _, _, hy.frame⟩
    simp only [Sides.set_set]
  · refine (hmeters m).trans ?_
    rw [hy.frame]
    rfl

section tested
variable {u : State} (hu : s.OpeningAt y u d f h a) (hy : s.OpensAt y d f a)
include hu

theorem State.OpeningAt.fp : u.fp.get d = f.opened h a := by
  rw [hu.frame]
  exact Sides.get_set_same ..

theorem State.OpeningAt.sale : u.sale d = openedSale d h a s.pw.degraded := by
  rw [hu.frame, State.sale]
  exact congrArg RetSide.sale (Sides.get_set_same ..)

theorem State.OpeningAt.starting : u.fpState d = .starting := by
  rw [State.fpState, hu.fp]
  rfl

theorem State.OpeningAt.applied : u.ret.applied = s.ret.applied := by
  rw [hu.frame]
  rfl

include hy in
theorem State.OpeningAt.offers_iff (g : Grade) : s.offers d h a g ↔ (u.offeredGrade d = some g ∧ u.gradeFixable d g = true) := by
  refine State.offers_iff (by rw [hu.sale]; rfl) (by rw [hu.fp]; rfl) (fun hh => ?_) (fun hh => ?_) (by rw [hu.frame]) (by rw [hu.frame]) g
  · rw [hu.fp, hh]
    exact hy.press.2
  · rw [hu.fp, hh, ← hy.press.1, ← hy.press.2]
    rfl

theorem State.OpeningAt.asked : (s.disp.lineCleared d).Asked u.disp (fun q k => k = .sale ∧ s.disp.showsWith (saleRole d) q) := by
  rw [hu.frame]
  exact (s.disp.requestAll_asked (saleRole d) .sale).lineCleared d

theorem State.OpeningAt.otherMet : u.met.get d.other = s.met.get d.other := by
  have hm (p : Product) : (u.met.get d.other).get p = (s.met.get d.other).get p := by
    have := hu.meters ⟨d.other, p⟩
    rw [if_neg d.other_ne] at this
    exact this
  exact Three.ext_get hm

theorem State.OpeningAt.shows_heads (q : Role) : u.disp.showsWith (saleRole d) q ↔ s.disp.showsWith (saleRole d) q :=
  hu.asked.showsWith_iff _ _

end tested

theorem State.OpeningAt.frame_start {u : State} (hu : s.OpeningAt y u d f h a) (hy : s.OpensAt y d f a) : u = { y with
    ret := u.ret, fp := u.fp, met := u.met, vlv := u.vlv, mot := u.mot, disp := u.disp, mem := u.mem, port := u.port, rev := u.rev } := by
  obtain ⟨ret, fp, vlv, met, disp, mem, port, rev, rfl⟩ : ∃ ret fp vlv met disp mem port rev, u = { s with
    free := y.free, ret := ret, fp := fp, vlv := vlv, met := met, disp := disp, mem := mem, port := port, rev := rev } :=
      ⟨_, _, _, _, _, _, _, _, hu.frame⟩
  obtain ⟨free, fp', mem', port', rev', rfl⟩ : ∃ free fp mem port rev, y = { s with
    free := free, fp := fp, mem := mem, port := port, rev := rev } := ⟨_, _, _, _, _, hy.frame⟩
  rfl

/-- A sale that opens with no grade to fix. -/
theorem State.OpeningAt.waits {u : State} (hu : s.OpeningAt y u d f h a) (hy : s.OpensAt y d f a) (ha : s.pw.state = .active)
    (hno : (∀ g, ¬ s.offers d h a g) ∨ s.ret.applied.get d = none) : s.OpenedFrom y (u.evalStarting d) d f h a := by
  have hact : u.pw.state = .active := by rw [hu.frame]; exact ha
  have heval : u.evalStarting d = u.updFp d (fun f => { f with gate3 := false }) :=
    State.evalStarting_waits hu.starting hact (by rw [hu.fp]; rfl) (by rw [hu.sale]; rfl)
      (hno.imp (fun h g hc => h g ((hu.offers_iff hy g).mpr hc)) (fun h => by rw [hu.applied]; exact h))
  have hsame : u.updFp d (fun f => { f with gate3 := false }) = u := by
    have hfp : u.fp.set d { u.fp.get d with gate3 := false } = u.fp := by
      have hg : ({ u.fp.get d with gate3 := false } : FuelPoint) = u.fp.get d := by rw [hu.fp]; rfl
      rw [hg, Sides.set_get]
    exact congrArg (fun fp => ({ u with fp := fp } : State)) hfp
  rw [heval, hsame]
  refine ⟨⟨fun _ => ⟨?_, ?_, ?_, hu.meters⟩, fun g p hg hp => ?_, ?_, ?_⟩, hu.told, hu.frame_start hy⟩
  · rw [hu.frame]
  · rw [hu.frame]
  · rw [hu.frame]
  · rcases hno with hno | hno
    · exact absurd hg (hno g)
    · rw [hno] at hp
      cases hp
  · rw [hu.frame]
  · refine hu.asked.iff fun q k => (or_iff_left ?_).symm
    rintro ⟨-, -, hsome, g, hg⟩
    rcases hno with hno | hno
    · exact hno g hg
    · rw [hno] at hsome
      cases hsome

/-- A sale that opens with a grade to fix. -/
theorem State.OpeningAt.fixes {u : State} (hu : s.OpeningAt y u d f h a) (hy : s.OpensAt y d f a) (ha : s.pw.state = .active) {g : Grade}
    {p : PriceSet} (hg : s.offers d h a g) (hp : s.ret.applied.get d = some p) : s.OpenedFrom y (u.evalStarting d) d f h a := by
  have hact : u.pw.state = .active := by rw [hu.frame]; exact ha
  obtain ⟨hoff, hfix⟩ := (hu.offers_iff hy g).mp hg
  have heval : u.evalStarting d = (u.fixGrade d g p).testGate3 d :=
    State.evalStarting_fixes hu.starting hact (by rw [hu.fp]; rfl) (by rw [hu.sale]; rfl) hoff (by rw [hu.applied]; exact hp) hfix
  have hfixed (g' : Grade) (p' : PriceSet) : s.GradeFixed ((u.fixGrade d g' p').testGate3 d) d (f.opened h a)
      (openedSale d h a s.pw.degraded) g' p' :=
    State.gradeFixed (by rw [hu.frame]) (by rw [hu.frame]) (by rw [hu.frame]) (by rw [hu.frame]) (by rw [hu.frame]) (by rw [hu.frame])
      (fun m hm _ => by rw [hu.meters, if_pos hm]) hu.otherMet
  have hframe := u.fixGrade_frame d g p
  have hasked := u.fixGrade_asked d g p
  rw [heval]
  refine ⟨⟨fun hno => ?_, fun g' p' hg' hp' => ?_, ?_, ?_⟩, ?_, ?_⟩
  · rcases hno with hno | hno
    · exact absurd hg (hno g)
    · rw [hno] at hp
      cases hp
  · have hgg : g' = g := Option.some.inj (((hu.offers_iff hy g').mp hg').1.symm.trans hoff)
    have hpp : p' = p := Option.some.inj (hp'.symm.trans hp)
    rw [hgg, hpp]
    exact hfixed g p
  · change (u.fixGrade d g p).vlv = _
    rw [hframe, hu.frame]
  · refine (hu.asked.trans hasked).iff fun q k => ?_
    rw [hu.shows_heads, hp]
    constructor
    · rintro (hs | hs | ⟨hk, hq⟩)
      · exact .inl hs
      · exact .inl hs
      · exact .inr ⟨hk, hq, rfl, g, hg⟩
    · rintro (hs | ⟨hk, hq, -⟩)
      · exact .inl hs
      · exact .inr (.inr ⟨hk, hq⟩)
  · have hmem : (u.fixGrade d g p).mem = u.mem := by rw [hframe]
    have hrtc : (u.fixGrade d g p).rtc = u.rtc := by rw [hframe]
    have hport : (u.fixGrade d g p).port = u.port := by rw [hframe]
    exact hu.told.congr hmem hrtc hport
  · have hstart := hu.frame_start hy
    clear hasked hfixed heval
    generalize u.fixGrade d g p = w at hframe ⊢
    obtain ⟨ret, fp, met, mot, disp, rev, rfl⟩ : ∃ ret fp met mot disp rev, w = { u with
      ret := ret, fp := fp, met := met, mot := mot, disp := disp, rev := rev } := ⟨_, _, _, _, _, _, hframe⟩
    clear hframe hoff hfix hact hu
    obtain ⟨ret', fp', met', vlv', mot', disp', mem', port', rev', rfl⟩ : ∃ ret fp met vlv mot disp mem port rev, u = { y with
      ret := ret, fp := fp, met := met, vlv := vlv, mot := mot, disp := disp, mem := mem, port := port, rev := rev } :=
        ⟨_, _, _, _, _, _, _, _, _, hstart⟩
    rfl

/-- The opening of a sale (R13, R14). -/
theorem State.OpensAt.openSale (hy : s.OpensAt y d f a) (ha : s.pw.state = .active) : s.OpenedFrom y (y.openSale d h) d f h a := by
  have hyd : (y.fp.get d).auth = some a := by
    rw [hy.frame]
    exact (congrArg FuelPoint.auth (Sides.get_set_same ..)).trans hy.auth
  have hu := hy.opening (h := h)
  rw [State.openSale_eq hyd]
  by_cases hg : ∃ g, s.offers d h a g
  · obtain ⟨g, hg⟩ := hg
    cases hp : s.ret.applied.get d with
    | none => exact hu.waits hy ha (.inr hp)
    | some p => exact hu.fixes hy ha hg hp
  · exact hu.waits hy ha (.inl fun g hc => hg ⟨g, hc⟩)

end opens

end Sys2Proof.Machine
end

section
/-! PROOFS. Hoses and grade buttons. -/

namespace Sys2Proof.Machine

/-! ## The state that a hose movement leads to (R5, R6) -/

theorem meetsMask_iff (m : Five Bool) (h : Hose) : meetsMask m h = true ↔ HoseMeets m h := by
  cases h <;> simp [meetsMask, HoseMeets, or_assoc]

/-- A fueling point rewritten, and then in the state `next`, which is that it had or one without a sale (R2, R36, file 10 ATTENTION). -/
theorem State.movedState {s u : State} {d : Side} {f : FuelPoint} {next : FpState} (hst : f.state = s.fpState d)
    (hout : next = s.fpState d ∨ next.inSale = false) (hu : u = (s.updFp d (fun _ => f)).setFpState d next) :
    u.fp = s.fp.set d { f with state := next }
      ∧ u.port = { s.port with attn := s.port.attn ||| flagsOf (if next = s.fpState d then []
          else fpFlag d :: (if next = .calling then [.call] else [])) }
      ∧ (∀ m, m.side ≠ d ∨ (s.meter m).attr = .unassigned ∨ next = s.fpState d → u.meter m = s.meter m)
      ∧ u = { s with fp := u.fp, met := u.met, port := u.port } := by
  have hstate : (s.updFp d (fun _ => f)).fpState d = s.fpState d := by
    rw [State.fpState, State.updFp_fp, Sides.get_set_same, hst]
  have hframe := (s.updFp d (fun _ => f)).setFpState_frame d next
  have hport := (s.updFp d (fun _ => f)).setFpState_port d next
  have hfp : ((s.updFp d (fun _ => f)).setFpState d next).fp = s.fp.set d { f with state := next } := by
    rw [hframe]
    simp only [State.updFp_fp, Sides.get_set_same, Sides.set_set]
  rw [hstate] at hport
  subst hu
  refine ⟨hfp, hport.trans ?_, fun m hm => ?_, ?_⟩
  · by_cases h : next = s.fpState d
    · rw [if_pos h.symm, if_pos h]
      exact congrArg (fun a => ({ s.port with attn := a } : Port)) BitVec.or_zero.symm
    · rw [if_neg (fun hc => h hc.symm), if_neg h]
      refine congrArg (fun a => ({ s.port with attn := a } : Port)) ?_
      by_cases hc : next = .calling
      · rw [if_pos hc, if_pos hc, flagsOf_cons, flagsOf_one, ← BitVec.or_assoc]
        rfl
      · rw [if_neg hc, if_neg hc, flagsOf_one]
        rfl
  · rcases hm with hm | hm | hm
    · exact State.setFpState_meter_kept _ _ _ _ (.inl hm) fun hc => absurd hc hm
    · rcases hout with hn | hn
      · rw [State.setFpState, if_pos (hstate.trans hn.symm)]
        rfl
      · exact State.setFpState_meter_kept _ _ _ _ (.inr hm) fun _ => attributed_outOfSale hn _ _
    · rw [State.setFpState, if_pos (hstate.trans hm.symm)]
      rfl
  · clear hport hfp
    generalize (s.updFp d (fun _ => f)).setFpState d next = u at hframe
    obtain ⟨fp, met, port, rfl⟩ : ∃ fp met port, u = { s with fp := fp, met := met, port := port } := ⟨_, _, _, hframe⟩
    rfl

/-- The same in the published state. -/
theorem State.movedTo {s : State} {d : Side} {f : FuelPoint} {next : FpState} (hst : f.state = s.fpState d)
    (hout : next = s.fpState d ∨ next.inSale = false) {t : State} (ht : t = publish s ((s.updFp d (fun _ => f)).setFpState d next)) :
    t.fp = s.fp.set d { f with state := next }
      ∧ t.port = { s.port with attn := s.port.attn ||| flagsOf (if next = s.fpState d then []
          else fpFlag d :: (if next = .calling then [.call] else [])) }
      ∧ (∀ m, m.side ≠ d ∨ (s.meter m).attr = .unassigned ∨ next = s.fpState d → t.meter m = s.meter m)
      ∧ t = { s with fp := t.fp, met := t.met, port := t.port, rev := t.rev } := by
  obtain ⟨u, hu⟩ : ∃ u, u = (s.updFp d (fun _ => f)).setFpState d next := ⟨_, rfl⟩
  obtain ⟨hfp, hport, hmet, hframe⟩ := State.movedState hst hout hu
  rw [← hu] at ht
  subst ht
  clear hu
  refine ⟨hfp, hport, hmet, ?_⟩
  obtain ⟨fp, met, port, rfl⟩ : ∃ fp met port, u = { s with fp := fp, met := met, port := port } := ⟨_, _, _, hframe⟩
  rfl

/-- The fueling point of a side, rewritten with its state kept, is in that state. -/
theorem State.setFpState_same (s : State) (d : Side) (f : FuelPoint) (h : f.state = s.fpState d) :
    (s.updFp d (fun _ => f)).setFpState d (s.fpState d) = s.updFp d (fun _ => f) :=
  if_pos (by rw [State.fpState, State.updFp_fp, Sides.get_set_same, h])

/-- With one hose hung, a hose is lifted where the other one is. -/
theorem FuelPoint.hung_anyLifted (f : FuelPoint) (h : Hose) : (f.hung h).anyLifted = (f.lift (otherHose h)).isSome := by
  cases h
  · exact Bool.false_or _
  · exact Bool.or_false _

section hoses
variable {s : State} {d : Side} {h : Hose}

/-- A lift outside AUTHORIZED (R5). -/
theorem State.liftHose_moves (hl : (s.fp.get d).lift h = none) (ha : s.fpState d ≠ .authorized) : s.liftHose d h =
    (s.updFp d (fun _ => (s.fp.get d).lifted h s.rtc)).setFpState d (if s.fpState d = .idle then .calling else s.fpState d) := by
  have hsame := s.setFpState_same d ((s.fp.get d).lifted h s.rtc) (FuelPoint.lifted_state ..)
  have hupd : s.updFp d (fun f => f.lifted h s.rtc) = s.updFp d (fun _ => (s.fp.get d).lifted h s.rtc) := rfl
  unfold State.liftHose
  rw [hl, if_neg (by decide), hupd]
  cases hst : s.fpState d <;> rw [hst] at hsame ha <;> first | rfl | exact hsame.symm | exact absurd rfl ha

/-- The state of a side as a hose is hung and no sale ends (R5, R6, R25). -/
def State.afterHang (s : State) (d : Side) (h : Hose) : FpState := match s.fpState d with
  | .calling => if ((s.fp.get d).lift (otherHose h)).isSome then .calling else .idle
  | .finished => if ((s.fp.get d).lift (otherHose h)).isSome = false then .idle else if (s.sale d).hose = h then .calling else .finished
  | st => st

theorem State.afterHang_out (s : State) (d : Side) (h : Hose) : s.afterHang d h = s.fpState d ∨ (s.afterHang d h).inSale = false := by
  unfold State.afterHang
  cases s.fpState d
  case calling =>
    dsimp only
    split
    · exact .inl rfl
    · exact .inr rfl
  case finished =>
    dsimp only
    split
    · exact .inr rfl
    · split
      · exact .inr rfl
      · exact .inl rfl
  all_goals exact .inl rfl

/-- A hang that ends no sale. -/
theorem State.hangHose_moves (hl : ((s.fp.get d).lift h).isSome = true) (he : (s.fpState d).endable = false ∨ (s.sale d).hose ≠ h) :
    s.hangHose d h = (s.updFp d (fun _ => (s.fp.get d).hung h)).setFpState d (s.afterHang d h) := by
  have hsame := s.setFpState_same d ((s.fp.get d).hung h) (FuelPoint.hung_state ..)
  have hupd : s.updFp d (fun f => f.hung h) = s.updFp d (fun _ => (s.fp.get d).hung h) := rfl
  have hany : ((s.updFp d (fun _ => (s.fp.get d).hung h)).fp.get d).anyLifted = ((s.fp.get d).lift (otherHose h)).isSome := by
    rw [State.updFp_fp, Sides.get_set_same, FuelPoint.hung_anyLifted]
  have hlift : ¬ ((s.fp.get d).lift h).isNone = true := by
    intro hn
    rw [Option.isNone_iff_eq_none.mp hn] at hl
    cases hl
  unfold State.hangHose State.afterHang
  rw [if_neg hlift, hupd]
  dsimp only
  rw [hany]
  cases hst : s.fpState d <;> rw [hst] at hsame he
  case starting => rw [if_neg (he.resolve_left (by decide)), hsame]
  case fueling => rw [if_neg (he.resolve_left (by decide)), hsame]
  case paused => rw [if_neg (he.resolve_left (by decide)), hsame]
  case calling =>
    dsimp only
    split
    · exact hsame.symm
    · rfl
  case finished =>
    dsimp only
    split
    · rfl
    · split
      · rfl
      · exact hsame.symm
  all_goals exact hsame.symm

/-- A lift in AUTHORIZED (R11). -/
theorem State.liftHose_authorized {a : AuthRecord} (hl : (s.fp.get d).lift h = none) (hst : s.fpState d = .authorized)
    (ha : (s.fp.get d).auth = some a) : s.liftHose d h = if meetsMask a.mask h = true
      then (s.updFp d (fun _ => (s.fp.get d).lifted h s.rtc)).openSale d h
      else (s.updFp d (fun _ => (s.fp.get d).lifted h s.rtc)).refuseHose d (some h) := by
  have hupd : s.updFp d (fun f => f.lifted h s.rtc) = s.updFp d (fun _ => (s.fp.get d).lifted h s.rtc) := rfl
  have hauth : ((s.updFp d (fun _ => (s.fp.get d).lifted h s.rtc)).fp.get d).auth = some a := by
    rw [State.updFp_fp, Sides.get_set_same, ← ha]
    cases h <;> rfl
  unfold State.liftHose
  rw [hl, if_neg (by decide), hupd, hst]
  dsimp only
  unfold State.liftAuthorized
  rw [hauth]

end hoses

/-! ## Presses (R7, R14) -/

/-- The fueling point as an accepted press is recorded (R7). -/
def FuelPoint.pressed (f : FuelPoint) (g : Grade) (now : Word32) : FuelPoint :=
  { f with button := some ⟨g, now⟩, pressTimer := some 30000, pressSelects := f.pressSelects || decide (f.state = .starting) }

/-- Whether the grade of a press fits: enabled, no motor of its set in FAULT, and in the grade mask of an authorization (R7). -/
def State.pressFits (s : State) (d : Side) (g : Grade) : Bool :=
  (match (s.fp.get d).auth with
   | some a => a.mask.get g
   | none => true) && s.gradeEnabled d g && !s.faultIn (s.gradeProducts d g)

section presses
variable {s : State} {d : Side} {g : Grade}

theorem State.pressButton_accepted (hg : g ≠ .g5) (hfits : s.pressFits d g = true)
    (hst : (s.fpState d).inSale = false ∨ (s.fpState d = .starting ∧ (s.sale d).grade = none)) :
    s.pressButton d g = (s.updFp d (fun _ => (s.fp.get d).pressed g s.rtc)).evalStarting d := by
  have hopen : s.pressAccepted d g = s.pressFits d g := by
    unfold State.pressAccepted State.pressFits
    rcases hst with hst | ⟨hst, hnone⟩
    · cases hs : s.fpState d <;> rw [hs] at hst <;> first | rfl | cases hst
    · rw [hst, hnone]
      rfl
  unfold State.pressButton
  rw [if_pos ⟨hg, hopen.trans hfits⟩]
  rfl

theorem State.pressButton_ignored (h : s.pressFits d g = false ∨ s.fpState d = .fueling ∨ s.fpState d = .paused ∨ s.fpState d = .settling
    ∨ (s.fpState d = .starting ∧ (s.sale d).grade.isSome = true)) : s.pressButton d g = s := by
  have hno : s.pressAccepted d g = false := by
    rcases h with h | h | h | h | ⟨h, hg⟩
    · obtain ⟨b, hand⟩ : ∃ b, s.pressAccepted d g = (b && s.pressFits d g) :=
        ⟨_, (congrArg (fun b : Bool => b && _) (Bool.and_assoc _ _ _)).trans (Bool.and_assoc _ _ _)⟩
      rw [hand, h, Bool.and_false]
    · unfold State.pressAccepted; rw [h]; rfl
    · unfold State.pressAccepted; rw [h]; rfl
    · unfold State.pressAccepted; rw [h]; rfl
    · obtain ⟨g', hg'⟩ := Option.isSome_iff_exists.mp hg
      unfold State.pressAccepted
      rw [h, hg']
      rfl
  unfold State.pressButton
  exact if_neg fun hc => by rw [hno] at hc; cases hc.2

end presses

end Sys2Proof.Machine
end

section
/-! PROOFS. HOSE_LIFT, HOSE_HANG, GRADE_BUTTON_PRESS and GRADE_PRESS_VALIDITY_EXPIRY. -/

namespace Sys2Proof.Machine

section publishing
variable {s t : State} {d : Side} {f : FuelPoint} {h : Hose} {a : AuthRecord}

/-- An opening stands in every state with the same fueling points, sales, drives, meters and display. -/
theorem State.SaleOpens.congr {u : State} (o : s.SaleOpens t d f h a) (hfp : u.fp = t.fp) (hret : u.ret = t.ret) (hmot : u.mot = t.mot)
    (hmet : u.met = t.met) (hvlv : u.vlv = t.vlv) (hdisp : u.disp = t.disp) : s.SaleOpens u d f h a where
  waits hno := by
    obtain ⟨h1, h2, h3, h4⟩ := o.waits hno
    exact ⟨hfp.trans h1, hret.trans h2, hmot.trans h3, fun m => by rw [← h4 m, State.meter, hmet]; rfl⟩
  fixes g p hg hp := (o.fixes g p hg hp).congr hfp hret hmot hmet
  valves := hvlv.trans o.valves
  shows := by rw [hdisp]; exact o.shows

end publishing

theorem State.lifted_opensAt {s : State} {d : Side} {h : Hose} {a : AuthRecord} (hst : s.fpState d = .authorized)
    (ha : (s.fp.get d).auth = some a) :
    s.OpensAt (s.updFp d (fun _ => (s.fp.get d).lifted h s.rtc)) d ((s.fp.get d).lifted h s.rtc) a where
  frame := rfl
  auth := by rw [← ha]; cases h <;> rfl
  state := by rw [FuelPoint.lifted_state, show (s.fp.get d).state = _ from hst]; decide
  before := by rw [hst]; decide
  press := by cases h <;> exact ⟨rfl, rfl⟩

/-! ## A press in STARTING (R7, R14) -/

section pressing
variable {s : State} {d : Side} {g : Grade} {a : AuthRecord}

/-- The state with the press recorded. -/
def State.pressing (s : State) (d : Side) (g : Grade) : State := s.updFp d (fun _ => (s.fp.get d).pressed g s.rtc)

theorem State.pressing_fp (s : State) (d : Side) (g : Grade) : (s.pressing d g).fp.get d = (s.fp.get d).pressed g s.rtc := Sides.get_set_same ..

theorem State.pressing_fpState (s : State) (d : Side) (g : Grade) : (s.pressing d g).fpState d = s.fpState d := by
  rw [State.fpState, State.pressing_fp]
  rfl

theorem State.pressing_selects (h : s.fpState d = .starting) : ((s.pressing d g).fp.get d).pressSelects = true := by
  rw [State.pressing_fp]
  have hst : (s.fp.get d).state = .starting := h
  simp [FuelPoint.pressed, hst]

theorem State.pressing_offers (h : s.fpState d = .starting) (hh : (s.sale d).hose = .h1) : (s.pressing d g).offeredGrade d = some g := by
  have hsale : ((s.pressing d g).sale d).hose = .h1 := hh
  have hbutton : ((s.pressing d g).fp.get d).button = some ⟨g, s.rtc⟩ := by rw [State.pressing_fp]; rfl
  unfold State.offeredGrade
  rw [hsale, hbutton]
  exact if_pos (State.pressing_selects h)

theorem State.pressing_fixable (ha : (s.fp.get d).auth = some a) (g' : Grade) : (s.pressing d g').gradeFixable d g = s.pressFits d g := by
  have hauth : ((s.pressing d g').fp.get d).auth = some a := by rw [State.pressing_fp]; exact ha
  unfold State.gradeFixable State.pressFits
  rw [hauth, ha]
  rfl

end pressing

/-- Settles O16: hoses, presses, and what a lift in AUTHORIZED or a press in STARTING leads to. -/
theorem hosesAndPressesAreRecorded : Obligations.HosesAndPressesAreRecorded := by
  refine ⟨fun s d h hs => ⟨fun hl ha => ?_, fun hl he => ?_, fun a hl hst hact ha => ?_⟩, fun s d g hs hg => ?_⟩
  · have hexec : exec (.hoseLift d h) s = .next (publish s (s.liftHose d h)) := event_steady (f := fun s => s.liftHose d h) hs
    rw [State.liftHose_moves hl ha] at hexec
    obtain ⟨hfp, hport, hmet, hframe⟩ := State.movedTo (s := s) (d := d) (f := (s.fp.get d).lifted h s.rtc)
      (next := if s.fpState d = .idle then .calling else s.fpState d) (FuelPoint.lifted_state ..)
      (by split; exacts [.inr rfl, .inl rfl]) rfl
    refine ⟨_, hexec, hfp, hport.trans ?_, fun m hm => hmet m (hm.imp_right (Or.imp_right fun hn => if_neg hn)), hframe⟩
    by_cases hi : s.fpState d = .idle
    · rw [if_pos hi, if_pos hi, hi]
      rfl
    · rw [if_neg hi, if_neg hi, if_pos rfl]
      exact congrArg (fun a => ({ s.port with attn := a } : Port)) BitVec.or_zero
  · have hexec : exec (.hoseHang d h) s = .next (publish s (s.hangHose d h)) := event_steady (f := fun s => s.hangHose d h) hs
    rw [State.hangHose_moves hl he] at hexec
    obtain ⟨hfp, hport, hmet, hframe⟩ := State.movedTo (s := s) (d := d) (f := (s.fp.get d).hung h)
      (next := s.afterHang d h) (FuelPoint.hung_state ..) (s.afterHang_out d h) rfl
    intro other next
    have hnext : s.afterHang d h = next := by
      dsimp only [next, other]
      unfold State.afterHang
      cases s.fpState d <;> rfl
    rw [hnext] at hexec hfp hport hmet hframe
    exact ⟨_, hexec, hfp, hport, hmet, hframe⟩
  · have hexec : exec (.hoseLift d h) s = .next (publish s (s.liftHose d h)) := event_steady (f := fun s => s.liftHose d h) hs
    rw [State.liftHose_authorized hl hst ha] at hexec
    intro lifted told
    refine ⟨fun hm => ?_, fun hm => ?_⟩
    · rw [if_pos ((meetsMask_iff _ _).mpr hm)] at hexec
      obtain ⟨hopens, htold, hframe⟩ := (State.lifted_opensAt (h := h) hst ha).openSale (h := h) hact
      have hsame : (s.updFp d (fun _ => (s.fp.get d).lifted h s.rtc)).Told s 0 := (State.Told.refl s).congr rfl rfl rfl
      have htelling := htold.trans (hsame.completeOpt (s.disp.lines.get d).order .superseded 0x10C)
      generalize (s.updFp d (fun _ => (s.fp.get d).lifted h s.rtc)).openSale d h = t at *
      refine ⟨_, hexec, hopens.congr rfl rfl rfl rfl rfl rfl, htelling.mem, htelling.port.trans ?_, ?_⟩
      · rw [flagsOf_one]
        exact congrArg (fun a => ({ told.port with attn := told.port.attn ||| a } : Port)) BitVec.zero_or
      · obtain ⟨ret, fp, met, vlv, mot, disp, mem, port, rev, rfl⟩ : ∃ ret fp met vlv mot disp mem port rev,
          t = { s.updFp d (fun _ => (s.fp.get d).lifted h s.rtc) with
            ret := ret, fp := fp, met := met, vlv := vlv, mot := mot, disp := disp, mem := mem, port := port, rev := rev } :=
              ⟨_, _, _, _, _, _, _, _, _, hframe⟩
        rfl
    · rw [if_neg fun hc => hm ((meetsMask_iff _ _).mp hc)] at hexec
      refine ⟨_, hexec, ?_, ?_, rfl⟩
      · change (s.fp.set d _).set d { (s.fp.set d _).get d with refused := some h } = _
        rw [Sides.get_set_same, Sides.set_set]
        rfl
      · rw [flagsOf_one]
        rfl
  · intro fits
    have hfits : s.pressFits d g = fits := (Bool.and_assoc _ _ _).trans (Bool.and_comm _ _)
    have hexec : exec (.gradeButtonPress d g) s = .next (publish s (s.pressButton d g)) := event_steady (f := fun s => s.pressButton d g) hs
    clear_value fits
    refine ⟨fun hf hout => ?_, fun a hf hst hact hnone h2 ha => ?_, fun hno => ?_, ?_⟩
    · rw [State.pressButton_accepted hg (hfits.trans hf) (.inl hout)] at hexec
      have hns : s.fpState d ≠ .starting := by
        intro hc
        rw [hc] at hout
        cases hout
      have hidle := State.evalStarting_idle (s := s.pressing d g) (d := d) (by rw [State.pressing_fpState]; exact hns)
      rw [show s.updFp d (fun _ => (s.fp.get d).pressed g s.rtc) = s.pressing d g from rfl, hidle] at hexec
      refine ⟨_, hexec, ?_, rfl⟩
      change s.fp.set d ((s.fp.get d).pressed g s.rtc) = _
      have hsel : ((s.fp.get d).pressSelects || decide ((s.fp.get d).state = .starting)) = (s.fp.get d).pressSelects := by
        rw [decide_eq_false (show ¬ (s.fp.get d).state = .starting from hns), Bool.or_false]
      unfold FuelPoint.pressed
      rw [hsel]
    · intro pressed
      rw [State.pressButton_accepted hg (hfits.trans hf) (.inr ⟨hst, hnone⟩),
        show s.updFp d (fun _ => (s.fp.get d).pressed g s.rtc) = s.pressing d g from rfl] at hexec
      have hpressed : (s.fp.get d).pressed g s.rtc = pressed := by
        have hsel : ((s.fp.get d).pressSelects || decide ((s.fp.get d).state = .starting)) = true := by
          rw [decide_eq_true (show (s.fp.get d).state = .starting from hst), Bool.or_true]
        unfold FuelPoint.pressed
        rw [hsel]
      have hystart : (s.pressing d g).fpState d = .starting := by rw [State.pressing_fpState, hst]
      have hygate : ((s.pressing d g).fp.get d).gate2 = false := by rw [State.pressing_fp]; exact h2
      refine ⟨fun p hh hp => ?_, fun hh hno => ?_⟩
      · rw [State.evalStarting_fixes hystart hact hygate hnone (State.pressing_offers hst hh) hp
          ((State.pressing_fixable ha g).trans (hfits.trans hf))] at hexec
        have hfixed : s.GradeFixed (((s.pressing d g).fixGrade d g p).testGate3 d) d pressed (s.sale d) g p := by
          refine State.gradeFixed (y := s.pressing d g) (by rw [← hpressed]; rfl) ?_ rfl rfl rfl rfl (fun m hm hc => ?_) rfl
          · have hsale : ({ s.ret.sides.get d with sale := s.sale d } : RetSide) = s.ret.sides.get d := rfl
            rw [hsale, Sides.set_get]
            rfl
          · have hm' : (s.meter m).attr = .unassigned := hc.resolve_right fun hne => hne hst
            rw [Channel.under_eq_attribute, Channel.attribute_unassigned hm']
            rfl
        have hasked := (s.pressing d g).fixGrade_asked d g p
        have hframe := (s.pressing d g).fixGrade_frame d g p
        refine ⟨_, hexec, hfixed.congr rfl rfl rfl rfl, hasked, ?_⟩
        clear hexec hfixed hasked
        generalize (s.pressing d g).fixGrade d g p = w at hframe ⊢
        obtain ⟨ret, fp, met, mot, disp, rev, rfl⟩ : ∃ ret fp met mot disp rev, w = { s.pressing d g with
          ret := ret, fp := fp, met := met, mot := mot, disp := disp, rev := rev } := ⟨_, _, _, _, _, _, hframe⟩
        rfl
      · have hoffer : (s.pressing d g).offeredGrade d = some .g5 := by
          have hsale : ((s.pressing d g).sale d).hose = .h2 := hh
          unfold State.offeredGrade
          rw [hsale]
        have hunfit : s.pressFits d .g5 ≠ true := fun hc => hno (by
          unfold State.pressFits at hc
          rw [ha] at hc
          simp only [Bool.and_eq_true, Bool.not_eq_true'] at hc
          exact ⟨rfl, hc.1.1, hc.1.2, hc.2⟩)
        rw [State.evalStarting_waits hystart hact hygate hnone (.inl fun g' hg' => by
          obtain ⟨ho, hf'⟩ := hg'
          obtain rfl : g' = .g5 := Option.some.inj (ho.symm.trans hoffer)
          exact hunfit ((State.pressing_fixable ha g).symm.trans hf'))] at hexec
        refine ⟨_, hexec, ?_, rfl⟩
        change (s.fp.set d ((s.fp.get d).pressed g s.rtc)).set d { (s.fp.set d ((s.fp.get d).pressed g s.rtc)).get d with gate3 := false } = _
        rw [Sides.get_set_same, Sides.set_set, hpressed]
    · rw [State.pressButton_ignored (hno.imp_left hfits.trans)] at hexec
      exact ⟨_, hexec, rfl⟩
    · exact ⟨_, event_steady (f := fun s => s.updFp d (fun f => { f with pressTimer := none })) hs, rfl, rfl⟩

end Sys2Proof.Machine
end

section
/-! PROOFS. The tests of AUTHORIZE. -/

namespace Sys2Proof.Machine

theorem State.Offers.exec_authorize {s : State} {n : Nat} {d : Side} (h : s.Offers .authorize n (sideCode d)) :
    exec .authorize s = .next (publish s ((s.takeSlot n).1.orderAuthorize (s.takeSlot n).2 d)) := h.sideEvent State.orderAuthorize

/-! ## The coded values of the body (R9) -/

theorem originOf_bad {n : Nat} (h : ¬ (n = 1 ∨ n = 2)) : originOf n = none := by
  rw [not_or] at h
  rw [originOf, if_neg h.1, if_neg h.2]

theorem levelOf_bad {n : Nat} (h : ¬ (n = 1 ∨ n = 2)) : levelOf n = none := by
  rw [not_or] at h
  rw [levelOf, if_neg h.1, if_neg h.2]

theorem presetKindOf_bad {n : Nat} (h : 2 < n) : presetKindOf n = none := by
  rw [presetKindOf, if_neg (by omega), if_neg (by omega), if_neg (by omega)]

theorem originOf_good {n : Nat} (h : n = 1 ∨ n = 2) : ∃ o, originOf n = some o := by
  rcases h with rfl | rfl
  · exact ⟨.console, rfl⟩
  · exact ⟨.reader, rfl⟩

theorem levelOf_good {n : Nat} (h : n = 1 ∨ n = 2) : ∃ l, levelOf n = some l := by
  rcases h with rfl | rfl
  · exact ⟨.level1, rfl⟩
  · exact ⟨.level2, rfl⟩

/-! ## The tests in their order (R9) -/

section tests
variable {s : State} {d : Side} {b : AuthBody}

theorem State.takeSlot_authTest (s : State) (n : Nat) (d : Side) (b : AuthBody) : (s.takeSlot n).1.authTest d b = s.authTest d b := rfl

/-- The first missing prerequisite while the device is ACTIVE (R1). -/
theorem State.firstMissing_of (ha : s.pw.state = .active) {detail : Nat}
    (h : (detail = 0x102 ∧ s.meets d .display = false)
      ∨ (detail = 0x103 ∧ s.meets d .display = true ∧ s.meets d .metrology = false)
      ∨ (detail = 0x104 ∧ s.meets d .display = true ∧ s.meets d .metrology = true ∧ s.meets d .noPrices = false)) :
    ((s.firstMissing d).map (fun p => p.reason.code)).getD 0 = detail := by
  have hact : s.meets d .active = true := decide_eq_true ha
  unfold State.firstMissing
  rcases h with ⟨rfl, h1⟩ | ⟨rfl, h1, h2⟩ | ⟨rfl, h1, h2, h3⟩
  · simp only [List.find?_cons, hact, h1, Bool.not_true, Bool.not_false]
    rfl
  · simp only [List.find?_cons, hact, h1, h2, Bool.not_true, Bool.not_false]
    rfl
  · simp only [List.find?_cons, hact, h1, h2, h3, Bool.not_true, Bool.not_false]
    rfl

/-- With every test passed the order is granted. -/
theorem State.authTest_passes (ha : s.pw.state = .active) (hst : s.fpState d = .idle ∨ s.fpState d = .calling)
    (hl : (s.ret.sides.get d).list.length < 3) (hr : b.origin = .reader → (s.rdr.get d).state = .ready)
    (hm : maskCode (s.liveMask d b.mask) ≠ 0) (hp : b.kind = .none ∨ 100 ≤ b.preset) : s.authTest d b = none := by
  unfold State.authTest
  rw [if_neg (by rw [ha]; decide), if_neg (by rcases hst with h | h <;> rw [h] <;> decide),
    if_neg (by rcases hst with h | h <;> rw [h] <;> decide), if_neg (fun hc => hst.elim hc.1 hc.2), if_neg (Nat.not_le.mpr hl),
    if_neg (fun hc => hc.2 (hr hc.1)), if_neg hm, if_neg (fun hc => hp.elim hc.1 (fun h => Nat.not_lt.mpr h hc.2))]

/-- The first test that fails, in their order. -/
theorem State.authTest_fails {code : ResultCode} {detail : Nat}
    (h : (code = .unavailable ∧ detail = 0x100 ∧ s.pw.state = .halted)
      ∨ (code = .unavailable ∧ detail = 0x101 ∧ s.pw.state = .active ∧ s.fpState d = .locked)
      ∨ (code = .unavailable ∧ s.pw.state = .active ∧ s.fpState d = .unavailable
          ∧ ((detail = 0x102 ∧ s.meets d .display = false)
            ∨ (detail = 0x103 ∧ s.meets d .display = true ∧ s.meets d .metrology = false)
            ∨ (detail = 0x104 ∧ s.meets d .display = true ∧ s.meets d .metrology = true ∧ s.meets d .noPrices = false)))
      ∨ (code = .wrongState ∧ detail = 0x100 + (s.fpState d).code ∧ s.pw.state = .active ∧ s.fpState d ≠ .locked
          ∧ s.fpState d ≠ .unavailable ∧ s.fpState d ≠ .idle ∧ s.fpState d ≠ .calling)
      ∨ (s.pw.state = .active ∧ (s.fpState d = .idle ∨ s.fpState d = .calling)
          ∧ ((code = .stackFull ∧ detail = 0 ∧ 3 ≤ (s.ret.sides.get d).list.length)
            ∨ ((s.ret.sides.get d).list.length < 3
              ∧ ((code = .readerNotReady ∧ detail = 0x600 + (s.rdr.get d).state.code ∧ b.origin = .reader ∧ (s.rdr.get d).state ≠ .ready)
                ∨ ((b.origin = .reader → (s.rdr.get d).state = .ready)
                  ∧ ((code = .badOrder ∧ detail = 0x110 ∧ maskCode (s.liveMask d b.mask) = 0)
                    ∨ (code = .badOrder ∧ detail = 0x111 ∧ maskCode (s.liveMask d b.mask) ≠ 0 ∧ b.kind ≠ .none ∧ b.preset < 100)))))))) :
    s.authTest d b = some (code, detail) := by
  unfold State.authTest
  have hactive (ha : s.pw.state = .active) : ¬ s.pw.state = .halted := by rw [ha]; decide
  rcases h with ⟨rfl, rfl, h⟩ | ⟨rfl, rfl, ha, h⟩ | ⟨rfl, ha, h, hm⟩ | ⟨rfl, rfl, ha, h1, h2, h3, h4⟩ | ⟨ha, hst, h⟩
  · rw [if_pos h]
    rfl
  · rw [if_neg (hactive ha), if_pos h]
    rfl
  · rw [if_neg (hactive ha), if_neg (by rw [h]; decide), if_pos h, State.firstMissing_of ha hm]
  · rw [if_neg (hactive ha), if_neg h1, if_neg h2, if_pos ⟨h3, h4⟩]
    rfl
  · rw [if_neg (hactive ha), if_neg (by rcases hst with h | h <;> rw [h] <;> decide),
      if_neg (by rcases hst with h | h <;> rw [h] <;> decide), if_neg (fun hc => hst.elim hc.1 hc.2)]
    rcases h with ⟨rfl, rfl, h⟩ | ⟨hl, h⟩
    · rw [if_pos h]
    · rw [if_neg (Nat.not_le.mpr hl)]
      rcases h with ⟨rfl, rfl, ho, hr⟩ | ⟨hr, h⟩
      · rw [if_pos ⟨ho, hr⟩]
        rfl
      · rw [if_neg (fun hc => hc.2 (hr hc.1))]
        rcases h with ⟨rfl, rfl, hm⟩ | ⟨rfl, rfl, hm, hk, hp⟩
        · rw [if_pos hm]
          rfl
        · rw [if_neg hm, if_pos ⟨hk, hp⟩]
          rfl

/-- The first field of the body outside its coded values. -/
theorem State.authBody_error {n field : Nat}
    (h : (field = 0 ∧ ¬ (s.bodyField n 0 1 = 1 ∨ s.bodyField n 0 1 = 2) ∧ (s.bodyField n 1 1 = 1 ∨ s.bodyField n 1 1 = 2) ∧ s.bodyField n 3 1 ≤ 2)
      ∨ (field = 1 ∧ (s.bodyField n 0 1 = 1 ∨ s.bodyField n 0 1 = 2) ∧ ¬ (s.bodyField n 1 1 = 1 ∨ s.bodyField n 1 1 = 2) ∧ s.bodyField n 3 1 ≤ 2)
      ∨ (field = 3 ∧ (s.bodyField n 0 1 = 1 ∨ s.bodyField n 0 1 = 2) ∧ (s.bodyField n 1 1 = 1 ∨ s.bodyField n 1 1 = 2) ∧ 2 < s.bodyField n 3 1)) :
    s.authBody n = .error field := by
  unfold State.authBody
  rcases h with ⟨rfl, ho, -, -⟩ | ⟨rfl, ho, hl, -⟩ | ⟨rfl, ho, hl, hk⟩
  · rw [originOf_bad ho]
  · obtain ⟨o, ho⟩ := originOf_good ho
    rw [ho, levelOf_bad hl]
  · obtain ⟨o, ho⟩ := originOf_good ho
    obtain ⟨l, hl⟩ := levelOf_good hl
    rw [ho, hl, presetKindOf_bad hk]

end tests

end Sys2Proof.Machine
end

section
/-! PROOFS. AUTHORIZE. -/

namespace Sys2Proof.Machine

section grants
variable {s : State} {d : Side} {n : Nat} {b : AuthBody}

/-- The authorization record of an order (R10). -/
theorem State.authRecord_eq (s : State) (d : Side) (b : AuthBody) (t : Word32) : s.authRecord d b t =
    { origin := b.origin, level := b.level, mask := s.liveMask d b.mask, presetKind := b.kind
      preset := if b.kind = .none then b.preset else min 999999 b.preset
      clamped := decide (b.kind ≠ .none ∧ 999999 < b.preset), takeTime := t } := by
  have hclamps : b.clamps = decide (b.kind ≠ .none ∧ 999999 < b.preset) := by
    unfold AuthBody.clamps
    exact (Bool.decide_and _ _).symm
  have hpreset : (if b.clamps then 999999 else b.preset) = if b.kind = .none then b.preset else min 999999 b.preset := by
    rw [hclamps]
    by_cases hk : b.kind = .none
    · rw [if_pos hk, if_neg (by simp [hk])]
    · rw [if_neg hk]
      by_cases hp : 999999 < b.preset
      · rw [if_pos (decide_eq_true ⟨hk, hp⟩), Nat.min_eq_left hp.le]
      · rw [if_neg (by simp [hp]), Nat.min_eq_right (Nat.not_lt.mp hp)]
  unfold State.authRecord
  rw [hpreset, hclamps]

/-- The state in which an order is granted: the record is written, and a free value was read where the preset value was not. -/
def State.granting (s : State) (d : Side) (b : AuthBody) (a : AuthRecord) : State :=
  ({ s with free := s.free + bit (decide (b.kind = PresetKind.none)) } : State).updFp d (fun f => { f with auth := some a })

theorem State.orderAuthorize_grants {o : Order} (hb : s.authBody o.ref.slot = .ok b) (ht : s.authTest d b = none) :
    s.orderAuthorize o d = ((s.granting d b (s.authRecord d b o.ref.time)).grantAuth d).complete o.ref (if b.clamps then .okClamped else .ok) 0 := by
  unfold State.orderAuthorize
  rw [hb]
  dsimp only
  rw [ht]
  rfl

theorem State.orderAuthorize_fails {o : Order} {r : ResultCode × Nat} (hb : s.authBody o.ref.slot = .ok b) (ht : s.authTest d b = some r) :
    s.orderAuthorize o d = s.complete o.ref r.1 r.2 := by
  unfold State.orderAuthorize
  rw [hb]
  dsimp only
  rw [ht]

theorem State.orderAuthorize_field {o : Order} {field : Nat} (hb : s.authBody o.ref.slot = .error field) :
    s.orderAuthorize o d = s.complete o.ref .badOrder field := by
  unfold State.orderAuthorize
  rw [hb]

variable {a : AuthRecord}

/-- An IDLE side takes the authorization (R10). -/
theorem State.grantAuth_idle (ha : (s.fp.get d).auth = some a) (hst : s.fpState d ≠ .calling) : s.grantAuth d = s.authorizeFp d := by
  unfold State.grantAuth
  dsimp only
  rw [ha]
  exact if_neg hst

/-- A CALLING side opens the sale on the first lifted hose that meets the mask (R10). -/
theorem State.grantAuth_opens {h : Hose} (ha : (s.fp.get d).auth = some a) (hst : s.fpState d = .calling)
    (hf : (s.fp.get d).liftOrder.find? (meetsMask a.mask) = some h) : s.grantAuth d = s.openSale d h := by
  unfold State.grantAuth
  dsimp only
  rw [ha]
  refine (if_pos hst).trans ?_
  rw [hf]

/-- No lifted hose meets the mask (R10). -/
theorem State.grantAuth_refuses (ha : (s.fp.get d).auth = some a) (hst : s.fpState d = .calling)
    (hf : (s.fp.get d).liftOrder.find? (meetsMask a.mask) = none) : s.grantAuth d = (s.authorizeFp d).refuseHose d (s.fp.get d).calling := by
  unfold State.grantAuth
  dsimp only
  rw [ha]
  refine (if_pos hst).trans ?_
  rw [hf]

/-- The hose on which the sale opens: the calling one where it meets the mask, and else the other where it is lifted and meets it. -/
theorem FuelPoint.firstMeeting {f : FuelPoint} {m : Five Bool} {c h : Hose} (hc : f.calling = some c)
    (hh : (h = c ∧ HoseMeets m c) ∨ (h = otherHose c ∧ ¬ HoseMeets m c ∧ (f.lift (otherHose c)).isSome = true ∧ HoseMeets m (otherHose c))) :
    f.liftOrder.find? (meetsMask m) = some h := by
  unfold FuelPoint.liftOrder
  rw [hc]
  rcases hh with ⟨rfl, hm⟩ | ⟨rfl, hn, hl, hm⟩
  · have hm' := (meetsMask_iff m h).mpr hm
    dsimp only
    split <;> simp only [List.find?_cons, hm']
  · have hn' : meetsMask m c = false := Bool.eq_false_iff.mpr fun hc => hn ((meetsMask_iff m c).mp hc)
    have hm' := (meetsMask_iff m (otherHose c)).mpr hm
    dsimp only
    rw [if_pos hl]
    simp only [List.find?_cons, hn', hm']

theorem FuelPoint.noneMeets {f : FuelPoint} {m : Five Bool} {c : Hose} (hc : f.calling = some c) (hn : ¬ HoseMeets m c)
    (ho : ¬ ((f.lift (otherHose c)).isSome = true ∧ HoseMeets m (otherHose c))) : f.liftOrder.find? (meetsMask m) = none := by
  have hn' : meetsMask m c = false := Bool.eq_false_iff.mpr fun hc => hn ((meetsMask_iff m c).mp hc)
  unfold FuelPoint.liftOrder
  rw [hc]
  dsimp only
  by_cases hl : (f.lift (otherHose c)).isSome = true
  · have ho' : meetsMask m (otherHose c) = false := Bool.eq_false_iff.mpr fun hc => ho ⟨hl, (meetsMask_iff m (otherHose c)).mp hc⟩
    rw [if_pos hl]
    simp only [List.find?_cons, hn', ho', List.find?_nil]
  · rw [if_neg hl]
    simp only [List.find?_cons, hn', List.find?_nil]

end grants

/-! ## The effect (R10) -/

section effect
variable {s : State} {d : Side} {n : Nat} {b : AuthBody} {a : AuthRecord} (h : s.Offers .authorize n (sideCode d))

/-- The owner's state as it grants the order of slot `n`. -/
def State.granted (s : State) (n : Nat) (d : Side) (b : AuthBody) (a : AuthRecord) : State := (s.takeSlot n).1.granting d b a

theorem State.granted_fp (s : State) (n : Nat) (d : Side) (b : AuthBody) (a : AuthRecord) :
    (s.granted n d b a).fp.get d = { s.fp.get d with auth := some a } := Sides.get_set_same ..

theorem State.granted_told (s : State) (n : Nat) (d : Side) (b : AuthBody) (a : AuthRecord) : (s.granted n d b a).Told (s.takeSlot n).1 0 :=
  (State.Told.refl _).congr rfl rfl rfl

theorem State.granted_opensAt (hst : s.fpState d = .calling) : s.OpensAt (s.granted n d b a) d { s.fp.get d with auth := some a } a where
  frame := rfl
  auth := rfl
  state := by rw [show (s.fp.get d).state = .calling from hst]; decide
  before := by rw [hst]; decide
  press := ⟨rfl, rfl⟩

/-- The side as it becomes AUTHORIZED, with the hose that is refused. -/
structure State.Authorized (s u : State) (n : Nat) (d : Side) (a : AuthRecord) (refused : Option Hose) : Prop where
  fp : u.fp = s.fp.set d { s.fp.get d with state := .authorized, expiry := some 120000, auth := some a, refused := refused }
  port : u.port = { (s.takeSlot n).1.port with attn := s.port.attn ||| flagsOf [fpFlag d] }
  meters : ∀ m, m.side ≠ d ∨ (s.meter m).attr = .unassigned → u.meter m = s.meter m
  frame : u = { s with free := u.free, fp := u.fp, met := u.met, mem := (s.takeSlot n).1.mem, port := u.port }

theorem State.granted_authorizes (hst : s.fpState d = .idle ∨ s.fpState d = .calling) :
    s.Authorized ((s.granted n d b a).authorizeFp d) n d a (s.fp.get d).refused := by
  obtain ⟨w, hw⟩ : ∃ w : State, w = { (s.takeSlot n).1 with free := s.free + bit (decide (b.kind = PresetKind.none)) } := ⟨_, rfl⟩
  have hstart : (s.granted n d b a).authorizeFp d =
      (w.updFp d (fun _ => { s.fp.get d with auth := some a, expiry := some 120000 })).setFpState d .authorized := by
    refine congrArg (fun y : State => y.setFpState d .authorized) ?_
    have hset : (s.fp.set d { s.fp.get d with auth := some a }).set d
        { (s.fp.set d { s.fp.get d with auth := some a }).get d with expiry := some 120000 }
        = s.fp.set d { s.fp.get d with auth := some a, expiry := some 120000 } := by
      rw [Sides.get_set_same, Sides.set_set]
    rw [hw]
    exact congrArg (fun fp => ({ s.granted n d b a with fp := fp } : State)) hset
  have hwst : w.fpState d = s.fpState d := by rw [hw]; rfl
  have hne : ¬ FpState.authorized = w.fpState d := by rw [hwst]; rcases hst with h | h <;> rw [h] <;> decide
  obtain ⟨hfp, hport, hmet, hframe⟩ := State.movedState (s := w) (d := d) (next := .authorized)
    (f := { s.fp.get d with auth := some a, expiry := some 120000 }) hwst.symm (.inr rfl) hstart
  rw [if_neg hne, if_neg (by decide)] at hport
  refine ⟨?_, ?_, fun m hm => ?_, ?_⟩
  · rw [hfp, hw]
    rfl
  · rw [hport, hw]
    rfl
  · rw [hmet m (hm.elim .inl fun hu => .inr (.inl (by rw [hw]; exact hu))), hw]
    rfl
  · generalize (s.granted n d b a).authorizeFp d = u at hframe
    rw [hw] at hframe
    obtain ⟨fp, met, port, rfl⟩ : ∃ fp met port, u = { (s.takeSlot n).1 with
      free := s.free + bit (decide (b.kind = PresetKind.none)), fp := fp, met := met, port := port } := ⟨_, _, _, hframe⟩
    rfl

theorem State.Authorized.refuses {u : State} {r : Option Hose} (hu : s.Authorized u n d a r) (c : Option Hose) :
    s.Authorized (u.refuseHose d c) n d a c where
  fp := by
    refine Eq.trans (b := u.fp.set d { u.fp.get d with refused := c }) rfl ?_
    rw [hu.fp, Sides.get_set_same, Sides.set_set]
  port := by
    refine Eq.trans (b := ({ u.port with attn := u.port.attn ||| (fpFlag d).mask } : Port)) rfl ?_
    rw [hu.port, flagsOf_one]
    exact congrArg (fun a => ({ (s.takeSlot n).1.port with attn := a } : Port)) (by rw [BitVec.or_assoc, BitVec.or_self])
  meters m hm := hu.meters m hm
  frame := by
    obtain ⟨free, fp, met, port, rfl⟩ : ∃ free fp met port, u = { s with
      free := free, fp := fp, met := met, mem := (s.takeSlot n).1.mem, port := port } := ⟨_, _, _, _, hu.frame⟩
    rfl

include h in
/-- The answer of an order that leaves its side AUTHORIZED. -/
theorem State.Offers.authorizes {u : State} {r : Option Hose} (hu : s.Authorized u n d a r) (code : ResultCode)
    (he : exec .authorize s = .next (publish s (u.complete (s.takeSlot n).2.ref code 0))) :
    ∃ t, (exec .authorize s = .next t ∧ s.Answered t n code 0 [fpFlag d])
      ∧ t.fp = s.fp.set d { s.fp.get d with state := .authorized, expiry := some 120000, auth := some a, refused := r }
      ∧ (∀ m, m.side ≠ d ∨ (s.meter m).attr = .unassigned → t.meter m = s.meter m)
      ∧ t = { s with free := t.free, fp := t.fp, met := t.met, mem := t.mem, port := t.port, rev := t.rev } := by
  have hmem : u.mem = (s.takeSlot n).1.mem := by rw [hu.frame]
  have hframe := (u.complete_onlyTold (s.takeSlot n).2.ref code 0).frame
  have hans := h.answeredNow (u := u) s code 0 [fpFlag d] hmem hu.port
  generalize u.complete (s.takeSlot n).2.ref code 0 = z at *
  obtain ⟨mem, attn, rfl⟩ : ∃ mem attn, z = { u with mem := mem, port := { u.port with attn := attn } } := ⟨_, _, hframe⟩
  refine ⟨_, ⟨he, hans⟩, hu.fp, hu.meters, ?_⟩
  have hu' := hu.frame
  clear hans hframe hmem he hu
  obtain ⟨free, fp, met, port, rfl⟩ : ∃ free fp met port, u = { s with
    free := free, fp := fp, met := met, mem := (s.takeSlot n).1.mem, port := port } := ⟨_, _, _, _, hu'⟩
  rfl

end effect

end Sys2Proof.Machine
end

section
/-! PROOFS. AUTHORIZE, its tests and what it grants. -/

namespace Sys2Proof.Machine

section opening
variable {s : State} {d : Side} {n : Nat} {b : AuthBody} {a : AuthRecord}

/-- The answer of an order that opens the sale on a hose (R10, R13). -/
theorem State.Offers.authorizeOpens (h : s.Offers .authorize n (sideCode d)) (hact : s.pw.state = .active) (hst : s.fpState d = .calling)
    (hose : Hose) (code : ResultCode)
    (he : exec .authorize s = .next (publish s (((s.granted n d b a).openSale d hose).complete (s.takeSlot n).2.ref code 0))) {told : State}
    (hto : told = ((s.takeSlot n).1.completeOpt (s.disp.lines.get d).order .superseded 0x10C).complete (s.takeSlot n).2.ref code 0) :
    ∃ t, exec .authorize s = .next t ∧ s.SaleOpens t d (s.fp.get d) hose a
      ∧ t.mem = told.mem ∧ t.port = { told.port with attn := told.port.attn ||| flagsOf [fpFlag d] }
      ∧ ((s.disp.lines.get d).order = none → s.Answered t n code 0 [fpFlag d])
      ∧ t = { s with free := t.free, fp := t.fp, ret := t.ret, met := t.met, vlv := t.vlv, mot := t.mot, disp := t.disp, mem := t.mem,
                     port := t.port, rev := t.rev } := by
  obtain ⟨hopens, htold, hframe⟩ := (s.granted_opensAt (n := n) (b := b) (a := a) hst).openSale (h := hose) hact
  have hopens' : s.SaleOpens ((s.granted n d b a).openSale d hose) d (s.fp.get d) hose a := ⟨hopens.waits, hopens.fixes, hopens.valves, hopens.shows⟩
  have hnull : (0 : Word16) ||| (fpFlag d).mask = flagsOf [fpFlag d] := by
    rw [flagsOf_one]
    exact BitVec.zero_or
  have htelling := htold.trans ((s.granted_told n d b a).completeOpt (s.disp.lines.get d).order .superseded 0x10C)
  rw [hnull] at htelling
  have hanswer (hnone : (s.disp.lines.get d).order = none) :
      s.Answered (publish s (((s.granted n d b a).openSale d hose).complete (s.takeSlot n).2.ref code 0)) n code 0 [fpFlag d] := by
    rw [hnone] at htelling
    exact h.answeredNow s code 0 [fpFlag d] htelling.mem htelling.port
  have hdone := htelling.complete (s.takeSlot n).2.ref code 0
  rw [← hto] at hdone
  have hzframe := (((s.granted n d b a).openSale d hose).complete_onlyTold (s.takeSlot n).2.ref code 0).frame
  clear htelling htold hopens hto
  generalize ((s.granted n d b a).openSale d hose).complete _ code 0 = z at *
  generalize (s.granted n d b a).openSale d hose = u at *
  obtain ⟨mem, attn, rfl⟩ : ∃ mem attn, z = { u with mem := mem, port := { u.port with attn := attn } } := ⟨_, _, hzframe⟩
  refine ⟨_, he, hopens'.congr rfl rfl rfl rfl rfl rfl, hdone.mem, hdone.port, hanswer, ?_⟩
  clear hanswer hdone hopens' he hzframe
  obtain ⟨ret, fp, met, vlv, mot, disp, mem', port, rev, rfl⟩ : ∃ ret fp met vlv mot disp mem port rev, u = { s.granted n d b a with
    ret := ret, fp := fp, met := met, vlv := vlv, mot := mot, disp := disp, mem := mem, port := port, rev := rev } :=
      ⟨_, _, _, _, _, _, _, _, _, hframe⟩
  rfl

end opening

section granting
variable {s : State} {n : Nat} {d : Side} {b : AuthBody} {a : AuthRecord} {code : ResultCode}

/-- The owner's part of an order that passes every test. -/
theorem State.Offers.authorizeGrants (h : s.Offers .authorize n (sideCode d)) (hb : s.authBody n = .ok b) (ht : s.authTest d b = none)
    (ha : (s.takeSlot n).1.authRecord d b s.rtc = a) (hcode : (if b.clamps then ResultCode.okClamped else .ok) = code) :
    exec .authorize s = .next (publish s (((s.granted n d b a).grantAuth d).complete (s.takeSlot n).2.ref code 0)) := by
  have he := h.exec_authorize
  have hbody : (s.takeSlot n).1.authBody (s.takeSlot n).2.ref.slot = .ok b := (State.takeSlot_authBody s n).trans hb
  have htest : (s.takeSlot n).1.authTest d b = none := (s.takeSlot_authTest n d b).trans ht
  rw [State.orderAuthorize_grants hbody htest, hcode] at he
  rw [← ha]
  exact he

/-- An order turned away by a test. -/
theorem State.Offers.authorizeFails {detail : Nat} (h : s.Offers .authorize n (sideCode d)) (hb : s.authBody n = .ok b)
    (ht : s.authTest d b = some (code, detail)) :
    ∃ t, exec .authorize s = .next t ∧ s.Answered t n code detail [] ∧ t = { s with mem := t.mem, port := t.port, rev := t.rev } := by
  have he := h.exec_authorize
  have hbody : (s.takeSlot n).1.authBody (s.takeSlot n).2.ref.slot = .ok b := (State.takeSlot_authBody s n).trans hb
  have htest : (s.takeSlot n).1.authTest d b = some (code, detail) := (s.takeSlot_authTest n d b).trans ht
  rw [State.orderAuthorize_fails hbody htest] at he
  exact h.turnedAway he

/-- An order turned away by its body. -/
theorem State.Offers.authorizeField {field : Nat} (h : s.Offers .authorize n (sideCode d)) (hb : s.authBody n = .error field) :
    ∃ t, exec .authorize s = .next t ∧ s.Answered t n .badOrder field [] ∧ t = { s with mem := t.mem, port := t.port, rev := t.rev } := by
  have he := h.exec_authorize
  have hbody : (s.takeSlot n).1.authBody (s.takeSlot n).2.ref.slot = .error field := (State.takeSlot_authBody s n).trans hb
  rw [State.orderAuthorize_field hbody] at he
  exact h.turnedAway he

theorem State.granted_fpState (s : State) (n : Nat) (d : Side) (b : AuthBody) (a : AuthRecord) :
    (s.granted n d b a).fpState d = s.fpState d := by
  rw [State.fpState, State.granted_fp]
  rfl

end granting

/-- Settles O9. -/
theorem authorizeTestsThenGrants : Obligations.AuthorizeTestsThenGrants := by
  refine ⟨fun s n d b h hact hl hb hr hm hp => ?_, fun s n d b code detail h hb hf => ?_, fun s n d field h => ?_⟩
  · intro mask a granted authorized
    have hrec : (s.takeSlot n).1.authRecord d b s.rtc = a := State.authRecord_eq (s.takeSlot n).1 d b s.rtc
    obtain ⟨code, hcode⟩ : ∃ code : ResultCode, code = if b.kind ≠ .none ∧ 999999 < b.preset then .okClamped else .ok := ⟨_, rfl⟩
    have hclamps : (if b.clamps then ResultCode.okClamped else .ok) = code := by
      have hd : b.clamps = decide (b.kind ≠ .none ∧ 999999 < b.preset) := (Bool.decide_and _ _).symm
      rw [hd, hcode]
      by_cases hc : b.kind ≠ .none ∧ 999999 < b.preset
      · rw [if_pos (decide_eq_true hc), if_pos hc]
      · rw [if_neg (by rw [decide_eq_false hc]; decide), if_neg hc]
    have hexec (hst : s.fpState d = .idle ∨ s.fpState d = .calling) :=
      h.authorizeGrants hb (State.authTest_passes hact hst hl hr hm hp) hrec hclamps
    have hauth : ((s.granted n d b a).fp.get d).auth = some a := by rw [State.granted_fp]
    have hstate := s.granted_fpState n d b a
    have hmask : a.mask = mask := rfl
    have hauthorized {refused : Option Hose} {u : State} (hu : s.Authorized u n d a refused)
        (he : exec .authorize s = .next (publish s (u.complete (s.takeSlot n).2.ref code 0))) : authorized refused := by
      obtain ⟨t, hg, hrest⟩ := h.authorizes hu code he
      rw [hcode] at hg
      exact ⟨t, hg, hrest⟩
    clear_value authorized
    refine ⟨fun hst => ?_, fun c hst hc => ?_⟩
    · have he := hexec (.inl hst)
      rw [State.grantAuth_idle hauth (by rw [hstate, hst]; decide)] at he
      exact hauthorized (State.granted_authorizes (.inl hst)) he
    · have he := hexec (.inr hst)
      have hcalling : ((s.granted n d b a).fp.get d).calling = some c := by rw [State.granted_fp]; exact hc
      have hlift : ((s.granted n d b a).fp.get d).lift (otherHose c) = (s.fp.get d).lift (otherHose c) := by rw [State.granted_fp]; cases c <;> rfl
      intro other code' told
      have hcode' : code' = code := hcode.symm
      have hto : told = ((s.takeSlot n).1.completeOpt (s.disp.lines.get d).order .superseded 0x10C).complete (s.takeSlot n).2.ref code' 0 := rfl
      clear_value a mask told code'
      subst hmask hcode'
      refine ⟨fun hose hh => ?_, fun hn hno => ?_⟩
      · have hfirst := FuelPoint.firstMeeting (m := a.mask) (h := hose) hcalling (by rw [hlift]; exact hh)
        rw [State.grantAuth_opens hauth (hstate.trans hst) hfirst] at he
        exact h.authorizeOpens hact hst hose _ he hto
      · rw [State.grantAuth_refuses hauth (hstate.trans hst) (FuelPoint.noneMeets hcalling hn (by rw [hlift]; exact hno)), hcalling] at he
        exact hauthorized ((State.granted_authorizes (.inr hst)).refuses (some c)) he
  · exact h.authorizeFails hb (State.authTest_fails hf)
  · intro origin level kind good hf
    exact h.authorizeField (State.authBody_error hf)

end Sys2Proof.Machine
end

section
/-! PROOFS. The finalization of a sale in the RETENTION phase (R26, R157). -/

namespace Sys2Proof.Machine

/-! ## The sale and the retained values (R24, R26, R53, R84) -/

theorem Sale.recompute_eq (x : Sale) : x.recompute = x.reckoned := by
  unfold Sale.recompute Sale.reckoned
  rfl

theorem Sale.cutOff_eq (x : Sale) : x.cutOff = { x.reckoned with endCause := some (x.endCause.getD .powerLoss) } := by
  rw [Sale.cutOff, Sale.recompute_eq]

theorem RetSide.completeSale_closing (r : RetSide) (x : Sale) (now : Word32) : ({ r with sale := x } : RetSide).completeSale now = r.closing x now := by
  unfold RetSide.completeSale RetSide.closing
  dsimp only
  split
  · rfl
  · unfold nextNumber addTotals
    cases x.grade <;> rfl

/-- The lock that a finalized sale leaves is that of its causes. -/
theorem Sale.leavesLock_eq (x : Sale) : x.leavesLock = if x.endsInLock = true ∨ x.endCause = some .halt then some x.lockCause else none := by
  unfold Sale.leavesLock Sale.endsInLock Sale.lockCause
  cases x.endCause with
  | none => rfl
  | some e =>
    dsimp only
    by_cases hl : e.isLock = true
    · rw [if_pos hl, if_pos (.inl hl)]
      cases x.firstCause <;> simp [hl]
    · rw [if_neg hl]
      by_cases hh : e = .halt
      · rw [if_pos hh, if_pos (.inr (by rw [hh]))]
        cases x.firstCause with
        | none => simp [hl]
        | some f => by_cases hf : f.isLock = true <;> simp [hl, Option.filter_some, hf]
      · rw [if_neg hh, if_neg (fun hc => hc.elim hl (fun h => hh (Option.some.inj h)))]

/-- The retained values of a side with the lock that a finalized sale leaves. -/
def RetSide.relocked (r : RetSide) : Option Cause → RetSide
  | some c => { r with locked := true, lockCause := some c }
  | none => r

theorem RetSide.finalized_cut {r : RetSide} (h : r.sale.cutShort = true) (now : Word32) :
    r.finalized now = (r.closing r.sale.cutOff now).relocked r.sale.cutOff.leavesLock := by
  unfold RetSide.finalized
  rw [if_pos h, Sale.cutOff_eq]
  dsimp only
  cases ({ r.sale.reckoned with endCause := some (r.sale.endCause.getD .powerLoss) } : Sale).leavesLock <;> rfl

theorem RetSide.finalized_whole {r : RetSide} (h : r.sale.cutShort = false) (now : Word32) : r.finalized now = r := by
  unfold RetSide.finalized
  rw [if_neg (by rw [h]; decide)]

/-! ## The fueling point as its sale is finalized -/

section finalize
variable {s : State} {d : Side}

/-- The side with its cut-off sale reckoned. -/
def State.cutTaken (s : State) (d : Side) : State := s.updSale d (s.sale d).cutParts Sale.cutOff

/-- A lock noted in the side's records, where there is one to note. -/
def State.lockNotedFor (s : State) (d : Side) : Option Cause → State
  | some c => s.lockNoted d c
  | none => s

def FuelPoint.lockNotedFor (f : FuelPoint) : Option Cause → FuelPoint
  | some c => f.lockNoted c
  | none => f

theorem FuelPoint.lockNotedFor_state (f : FuelPoint) (c : Option Cause) : (f.lockNotedFor c).state = f.state := by
  cases c with
  | none => rfl
  | some c => exact f.lockNoted_state c

/-- The side with its sale finalized, its state still standing. -/
def State.finalBase (s : State) (d : Side) : State :=
  if (s.sale d).cutShort then ((s.cutTaken d).closeOut d).lockNotedFor d (s.sale d).cutOff.leavesLock else s

theorem State.cutTaken_sale (s : State) (d : Side) : (s.cutTaken d).sale d = (s.sale d).cutOff := by
  rw [State.sale, State.cutTaken, State.updSale_ret, Sides.get_set_same]
  rfl

theorem Sale.cutShort_iff (x : Sale) : x.cutShort = true ↔ x.status = .opened ∨ x.status = .interrupted := by
  rw [Sale.cutShort, Bool.or_eq_true, decide_eq_true_eq, decide_eq_true_eq]

theorem State.finalizeFp_eq (s : State) (d : Side) : s.finalizeFp d =
    (s.finalBase d).setFpState d (if ((s.finalBase d).ret.sides.get d).locked then .locked else .unavailable) := by
  unfold State.finalizeFp State.finalBase
  dsimp only
  by_cases hc : (s.sale d).cutShort = true
  · rw [if_pos ((s.sale d).cutShort_iff.mp hc), if_pos hc]
    have hends : (((s.cutTaken d).closeOut d).sale d).endsInLock = (s.sale d).cutOff.endsInLock := by
      rw [State.closeOut_sale, State.cutTaken_sale, Sale.endsInLock, Sale.closedOut_endCause]
      rfl
    have hcause : (((s.cutTaken d).closeOut d).sale d).endCause = (s.sale d).cutOff.endCause := by
      rw [State.closeOut_sale, State.cutTaken_sale, Sale.closedOut_endCause]
    have hlock : (((s.cutTaken d).closeOut d).sale d).lockCause = (s.sale d).cutOff.lockCause := by
      rw [State.closeOut_lockCause, State.cutTaken_sale]
    rw [show s.updSale d (s.sale d).cutParts Sale.cutOff = s.cutTaken d from rfl, hends, hcause, hlock, Sale.leavesLock_eq]
    by_cases hl : (s.sale d).cutOff.endsInLock = true ∨ (s.sale d).cutOff.endCause = some .halt
    · rw [if_pos hl, if_pos hl, State.lockFp_eq]
      refine congrArg (fun st => State.setFpState _ d st) ?_
      change _ = if (((((s.cutTaken d).closeOut d).lockNoted d (s.sale d).cutOff.lockCause).ret.sides.get d).locked) = true then _ else _
      rw [State.lockNoted, Sides.get_set_same]
      rfl
    · rw [if_neg hl, if_neg hl]
      rfl
  · rw [if_neg fun h => hc ((s.sale d).cutShort_iff.mpr h), if_neg hc]

/-- The fueling point of a side with its sale finalized, its state still standing. -/
def State.finalFp (s : State) (d : Side) : FuelPoint :=
  if (s.sale d).cutShort then
    ((s.fp.get d).closedOut (((s.ret.sides.get d).finalized s.rtc).sale) s.rtc).lockNotedFor (s.sale d).cutOff.leavesLock
  else s.fp.get d

theorem RetSide.relocked_sale (r : RetSide) (c : Option Cause) : (r.relocked c).sale = r.sale := by cases c <;> rfl

/-- The closing of the cut-off sale, before a lock is noted. -/
theorem State.cutClosed_frame (s : State) (d : Side) : (s.cutTaken d).closeOut d = { s with
    ret := { s.ret with sides := s.ret.sides.set d ((s.ret.sides.get d).closing (s.sale d).cutOff s.rtc) }
    fp := s.fp.set d ((s.fp.get d).closedOut ((s.ret.sides.get d).closing (s.sale d).cutOff s.rtc).sale s.rtc)
    vlv := s.vlv.set d { s.vlv.get d with slow := false }
    disp := s.disp.requestAll (saleRole d) .sale
    port := { s.port with attn := s.port.attn ||| flagsOf (fpFlag d :: (if (s.sale d).reckoned.volume = 0 then [] else [saleFlag d])) }
    rev := ((s.cutTaken d).closeOut d).rev } := by
  have hside : (s.cutTaken d).ret.sides.get d = { s.ret.sides.get d with sale := (s.sale d).cutOff } := by
    rw [State.cutTaken, State.updSale_ret, Sides.get_set_same]
    rfl
  have hclosing : ((s.cutTaken d).ret.sides.get d).completeSale s.rtc = (s.ret.sides.get d).closing (s.sale d).cutOff s.rtc := by
    rw [hside, RetSide.completeSale_closing]
  have hsale : ((s.cutTaken d).sale d).closedOut (nextNumber ((s.cutTaken d).ret.sides.get d).counter) s.rtc =
      ((s.ret.sides.get d).closing (s.sale d).cutOff s.rtc).sale := by
    rw [← hclosing, RetSide.completeSale_sale]
    rfl
  have hvolume : ((s.cutTaken d).sale d).volume = (s.sale d).reckoned.volume := by rw [s.cutTaken_sale d, Sale.cutOff_eq]
  have hflags : flagsOf ((if ((s.cutTaken d).sale d).volume = 0 then [] else [saleFlag d]) ++ [fpFlag d]) =
      flagsOf (fpFlag d :: (if (s.sale d).reckoned.volume = 0 then [] else [saleFlag d])) := by
    rw [hvolume, flagsOf_append, flagsOf_one, flagsOf_cons, BitVec.or_comm]
  have hframe := (s.cutTaken d).closeOut_frame d
  rw [hflags, show (s.cutTaken d).rtc = s.rtc from rfl, hclosing, hsale] at hframe
  refine hframe.trans ?_
  generalize (s.cutTaken d).closeOut d = t
  have hsides : (s.cutTaken d).ret.sides.set d ((s.ret.sides.get d).closing (s.sale d).cutOff s.rtc) =
      s.ret.sides.set d ((s.ret.sides.get d).closing (s.sale d).cutOff s.rtc) := by
    rw [State.cutTaken, State.updSale_ret, Sides.set_set]
  rw [hsides]
  rfl

theorem State.finalBase_frame (s : State) (d : Side) : s.finalBase d = { s with
    ret := { s.ret with sides := s.ret.sides.set d ((s.ret.sides.get d).finalized s.rtc) }
    fp := s.fp.set d (s.finalFp d)
    vlv := s.vlv.set d { s.vlv.get d with slow := (s.vlv.get d).slow && !(s.sale d).cutShort }
    disp := if (s.sale d).cutShort then s.disp.requestAll (saleRole d) .sale else s.disp
    port := { s.port with attn := s.port.attn ||| flagsOf (finalFlags d (s.ret.sides.get d)) }
    rev := (s.finalBase d).rev } := by
  unfold State.finalBase State.finalFp finalFlags
  cases hc : (s.sale d).cutShort
  · have hw := RetSide.finalized_whole (r := s.ret.sides.get d) hc s.rtc
    have hc' : (s.ret.sides.get d).sale.cutShort = false := hc
    have hnone : s.port.attn ||| flagsOf [] = s.port.attn := BitVec.or_zero
    simp only [hw, hc', Bool.false_eq_true, ↓reduceIte, Bool.not_false, Bool.and_true, Sides.set_get, hnone]
    exact congrArg (fun v => ({ s with vlv := v } : State)) (Sides.set_get ..).symm
  · have hcut := RetSide.finalized_cut (r := s.ret.sides.get d) hc s.rtc
    have hc' : (s.ret.sides.get d).sale.cutShort = true := hc
    have hframe := s.cutClosed_frame d
    simp only [hcut, hc', ↓reduceIte, Bool.not_true, Bool.and_false, RetSide.relocked_sale]
    generalize (s.cutTaken d).closeOut d = t at hframe ⊢
    obtain ⟨rev, rfl⟩ : ∃ rev, t = { s with
        ret := { s.ret with sides := s.ret.sides.set d ((s.ret.sides.get d).closing (s.sale d).cutOff s.rtc) }
        fp := s.fp.set d ((s.fp.get d).closedOut ((s.ret.sides.get d).closing (s.sale d).cutOff s.rtc).sale s.rtc)
        vlv := s.vlv.set d { s.vlv.get d with slow := false }
        disp := s.disp.requestAll (saleRole d) .sale
        port := { s.port with attn := s.port.attn ||| flagsOf (fpFlag d :: (if (s.sale d).reckoned.volume = 0 then [] else [saleFlag d])) }
        rev := rev } := ⟨_, hframe⟩
    have hsale : (s.ret.sides.get d).sale.cutOff = (s.sale d).cutOff := rfl
    rw [hsale]
    cases (s.sale d).cutOff.leavesLock with
    | none => rfl
    | some c =>
      unfold State.lockNotedFor State.lockNoted
      simp only [Sides.get_set_same, Sides.set_set]
      rfl

end finalize

end Sys2Proof.Machine
end

section
/-! PROOFS. The load of the metrology store (R156, R157, R172). -/

namespace Sys2Proof.Machine

/-! ## Each meter rewritten in turn -/

/-- Rewriting meters from values of the store port changes the meters alone, each by itself. -/
theorem State.foldMeters {g : State → Meter → Channel → Channel} (hg : ∀ x y : State, x.store = y.store → g x = g y) (ms : List Meter)
    (hnd : ms.Nodup) (s : State) :
    ms.foldl (fun s m => s.updMeter m (g s m)) s = { s with met := (ms.foldl (fun s m => s.updMeter m (g s m)) s).met }
      ∧ ∀ m, (ms.foldl (fun s m => s.updMeter m (g s m)) s).meter m = if m ∈ ms then g s m (s.meter m) else s.meter m := by
  induction ms generalizing s with
  | nil => exact ⟨rfl, fun m => by simp⟩
  | cons x rest ih =>
    obtain ⟨hx, hrest⟩ := List.nodup_cons.mp hnd
    obtain ⟨hframe, hmeter⟩ := ih hrest (s.updMeter x (g s x))
    refine ⟨hframe.trans rfl, fun m => ?_⟩
    rw [List.foldl_cons, hmeter m, hg (s.updMeter x (g s x)) s rfl]
    by_cases hm : m = x
    · subst hm
      rw [if_neg hx, if_pos List.mem_cons_self, State.updMeter_meter]
    · rw [State.updMeter_meter_ne _ _ hm]
      simp only [List.mem_cons, hm, false_or]

theorem mem_allMeters (m : Meter) : m ∈ allMeters := by
  obtain ⟨d, p⟩ := m
  cases d <;> cases p <;> decide

section loads
variable (s : State) (image : List Host.Cell)

theorem State.copyK_store {x y : State} (h : x.store = y.store) : x.copyK = y.copyK := by
  funext m
  unfold State.copyK State.copyField
  rw [h]

theorem State.copyCal_store {x y : State} (h : x.store = y.store) : x.copyCal = y.copyCal := by
  funext m
  unfold State.copyCal
  rw [h]

theorem State.copyK_clamped {s : State} {body : Memory} (h : s.store.copy = some body) (m : Meter) :
    s.copyK m = clampNat 200000 2000000 (body.field (meterAddr m) 4) := by
  unfold State.copyK State.copyField
  rw [h]
  rfl

theorem StorePort.load_present {image : List Host.Cell} (x : StorePort) (h0 : (Memory.ofCells 1156 image).read 0 ≠ 0)
    (hff : (Memory.ofCells 1156 image).read 0 ≠ 0xFF) : x.load image = { x with
      copy := some (Memory.ofCells 1154 image), refCrc := BitVec.ofNat 16 ((Memory.ofCells 1156 image).field 1154 2), absent := false
      fault := decide ((crc16 ((Memory.ofCells 1154 image).readAll 0 1154)).toNat ≠ (Memory.ofCells 1156 image).field 1154 2)
      mirror := logEntries (Memory.ofCells 1154 image), logFull := decide (32 ≤ logCount (Memory.ofCells 1154 image)) } := by
  unfold StorePort.load
  exact if_neg (fun hc => hc.elim h0 hff)

theorem State.loadK_folds : s.loadK = { s with met := s.loadK.met } ∧
    ∀ m, s.loadK.meter m = { s.meter m with k := s.copyK m, cal := s.copyCal m } := by
  obtain ⟨hframe, hmeter⟩ := State.foldMeters (g := fun s m c => { c with k := s.copyK m, cal := s.copyCal m })
    (fun x y h => by rw [State.copyK_store h, State.copyCal_store h]) allMeters (by decide) s
  exact ⟨hframe, fun m => (hmeter m).trans (if_pos (mem_allMeters m))⟩

theorem State.flagMetrology_eq (old : StorePort) (h : s.store.switchOn = old.switchOn) :
    s.flagMetrology old = { s with port := { s.port with attn := s.port.attn ||| flagsOf (old.changeFlags s.store) } } := by
  have hcond : (decide (s.store.absent ≠ old.absent) || decide (s.store.fault ≠ old.fault) || (s.store.logFull && !old.logFull)) = true ↔
      ¬ (old.absent = s.store.absent ∧ old.fault = s.store.fault ∧ old.switchOn = s.store.switchOn
        ∧ (s.store.logFull && !old.logFull) = false) := by
    rw [h]
    cases s.store.absent <;> cases old.absent <;> cases s.store.fault <;> cases old.fault <;> simp
  unfold State.flagMetrology StorePort.changeFlags State.attnIf
  by_cases hc : (decide (s.store.absent ≠ old.absent) || decide (s.store.fault ≠ old.fault) || (s.store.logFull && !old.logFull)) = true
  · rw [if_pos hc, if_neg (hcond.mp hc), flagsOf_one]
    rfl
  · rw [if_neg hc, if_pos (not_not.mp fun hn => hc (hcond.mpr hn))]
    exact congrArg (fun a => ({ s with port := { s.port with attn := a } } : State)) BitVec.or_zero.symm

/-- The store read and judged, the calibration of the meters still standing. -/
def State.storeRead : State := ((s.updStore (fun x => x.load image)).flagMetrology s.store).updHalt (fun h => { h with reload := false })

theorem State.loadStore_eq : s.loadStore image = (s.storeRead image).loadK := rfl

variable (h0 : (Memory.ofCells 1156 image).read 0 ≠ 0) (hff : (Memory.ofCells 1156 image).read 0 ≠ 0xFF)
include h0 hff

theorem State.storeRead_frame : s.storeRead image = { s with
    store := s.store.load image, halt := { s.halt with reload := false }
    port := { s.port with attn := s.port.attn ||| flagsOf (s.store.changeFlags (s.store.load image)) } } := by
  have hswitch : (s.store.load image).switchOn = s.store.switchOn := by rw [s.store.load_present h0 hff]
  rw [State.storeRead, State.flagMetrology_eq _ _ hswitch]
  rfl

theorem State.loadStore_frame : s.loadStore image = { s with
    store := s.store.load image, halt := { s.halt with reload := false }, met := (s.loadStore image).met
    port := { s.port with attn := s.port.attn ||| flagsOf (s.store.changeFlags (s.store.load image)) } } := by
  have hk := (s.storeRead image).loadK_folds.1
  rw [s.loadStore_eq image]
  generalize (s.storeRead image).loadK = t at hk ⊢
  rw [s.storeRead_frame image h0 hff] at hk
  exact hk

theorem State.loadStore_meter (m : Meter) : (s.loadStore image).meter m = { s.meter m with
    k := clampNat 200000 2000000 ((Memory.ofCells 1154 image).field (meterAddr m) 4), cal := some (calibrationIn (Memory.ofCells 1154 image) m) } := by
  have hm := (s.storeRead image).loadK_folds.2 m
  have hmeter : (s.storeRead image).meter m = s.meter m := by rw [s.storeRead_frame image h0 hff]; rfl
  have hcopy : (s.storeRead image).store.copy = some (Memory.ofCells 1154 image) := by
    rw [s.storeRead_frame image h0 hff, s.store.load_present h0 hff]
  rw [s.loadStore_eq image, hm, hmeter, State.copyK_clamped hcopy, State.copyCal_of hcopy]

end loads

end Sys2Proof.Machine
end

section
/-! PROOFS. The RETENTION phase and the start of decoding (R31, R157). -/

namespace Sys2Proof.Machine

/-! ## What the owners' rules leave to the start of decoding -/

/-- The calibration in use of every meter stands between two states (R38, R54). -/
def State.sameCalibration (x y : State) : Prop := ∀ m, (y.meter m).k = (x.meter m).k ∧ (y.meter m).cal = (x.meter m).cal

theorem State.sameCalibration.trans {x y z : State} (h : x.sameCalibration y) (g : y.sameCalibration z) : x.sameCalibration z :=
  fun m => ⟨(g m).1.trans (h m).1, (g m).2.trans (h m).2⟩

theorem State.sameCalibration.of_met {x y : State} (h : y.met = x.met) : x.sameCalibration y :=
  fun m => by rw [State.meter, h]; exact ⟨rfl, rfl⟩

theorem Channel.under_calibration (c : Channel) (a : Attribution) : (c.under a).k = c.k ∧ (c.under a).cal = c.cal := by
  unfold Channel.under
  split <;> exact ⟨rfl, rfl⟩

theorem State.setFpState_calibration (s : State) (d : Side) (st : FpState) : s.sameCalibration (s.setFpState d st) := by
  intro m
  by_cases h : s.fpState d = st
  · rw [State.setFpState, if_pos h]
    exact ⟨rfl, rfl⟩
  · rw [State.setFpState_meter _ _ _ _ h]
    split
    · exact Channel.under_calibration ..
    · exact ⟨rfl, rfl⟩

/-- No frame is asked for where no head shows (R100, R112). -/
theorem Display.request_hidden {x : Display} (h : ∀ r, (x.heads.get r).state.shows = false) (r : Role) (k : FrameKind) : x.request r k = x := by
  unfold Display.request
  exact if_neg (by rw [h r]; decide)

theorem Display.requestAll_hidden {x : Display} (h : ∀ r, (x.heads.get r).state.shows = false) (r : Role) (k : FrameKind) :
    x.requestAll r k = x :=
  List.foldlRecOn _ _ (motive := (· = x)) rfl fun y hy q _ => by rw [hy, Display.request_hidden h]

/-- With the device not ACTIVE a side that is LOCKED or UNAVAILABLE stays so (R1, R3). -/
theorem State.reviewFp_stays {s : State} {d : Side} (ha : s.pw.state ≠ .active) (h : s.fpState d = .locked ∨ s.fpState d = .unavailable) :
    s.reviewFp d = s := by
  rcases h with h | h
  · exact State.reviewFp_locked h
  · exact State.settledBy_of_unfuelable (State.not_fuelable ha d) h

/-! ## A side in the RETENTION phase -/

/-- The state in which the RETENTION phase leaves a side (R2, R26). -/
def RetSide.wakes (r : RetSide) : FpState := if r.locked then .locked else .unavailable

/-- Between `x` and `y` the RETENTION phase ran over side `d`. -/
structure State.Finalizes (x y : State) (d : Side) : Prop where
  frame : y = { x with
    ret := { x.ret with sides := x.ret.sides.set d ((x.ret.sides.get d).finalized x.rtc) }
    fp := x.fp.set d { x.finalFp d with state := ((x.ret.sides.get d).finalized x.rtc).wakes }
    vlv := x.vlv.set d { x.vlv.get d with slow := (x.vlv.get d).slow && !(x.sale d).cutShort }
    disp := if (x.sale d).cutShort then x.disp.requestAll (saleRole d) .sale else x.disp
    met := y.met
    port := { x.port with attn := x.port.attn |||
      (flagsOf (finalFlags d (x.ret.sides.get d)) ||| flagsOf (x.stateFlags d ((x.ret.sides.get d).finalized x.rtc).wakes)) }
    rev := y.rev }
  calibration : x.sameCalibration y

theorem State.finalFp_state (s : State) (d : Side) : (s.finalFp d).state = s.fpState d := by
  unfold State.finalFp
  split
  · exact FuelPoint.lockNotedFor_state _ _
  · rfl

theorem State.finalizeFp_finalizes (x : State) (d : Side) : x.Finalizes (x.finalizeFp d) d := by
  have hbase := x.finalBase_frame d
  have hlocked : (x.finalBase d).ret.sides.get d = (x.ret.sides.get d).finalized x.rtc := by
    rw [hbase]
    exact Sides.get_set_same ..
  have heq : x.finalizeFp d = (x.finalBase d).setFpState d ((x.ret.sides.get d).finalized x.rtc).wakes := by
    rw [x.finalizeFp_eq d, hlocked]
    rfl
  have hframe := (x.finalBase d).setFpState_frame d ((x.ret.sides.get d).finalized x.rtc).wakes
  have hport := (x.finalBase d).setFpState_flags d ((x.ret.sides.get d).finalized x.rtc).wakes
  have hstate : (x.finalBase d).fpState d = x.fpState d := by
    rw [State.fpState, hbase]
    exact (congrArg FuelPoint.state (Sides.get_set_same ..)).trans (x.finalFp_state d)
  have hflags : (x.finalBase d).stateFlags d = x.stateFlags d := by
    funext st
    unfold State.stateFlags
    rw [hstate]
  have hcal := (x.finalBase d).setFpState_calibration d ((x.ret.sides.get d).finalized x.rtc).wakes
  have hbasecal : x.sameCalibration (x.finalBase d) := .of_met (by rw [hbase])
  rw [hflags] at hport
  rw [heq]
  refine ⟨?_, hbasecal.trans hcal⟩
  rw [hport] at hframe
  refine hframe.trans ?_
  have hrev : ((x.finalBase d).setFpState d ((x.ret.sides.get d).finalized x.rtc).wakes).rev = (x.finalBase d).rev := State.setFpState_rev ..
  rw [hrev]
  clear hframe hport hcal heq hrev hbasecal hflags hlocked hstate
  generalize ((x.finalBase d).setFpState d ((x.ret.sides.get d).finalized x.rtc).wakes).met = met
  generalize x.finalBase d = b at hbase ⊢
  obtain ⟨rev, rfl⟩ : ∃ rev, b = { x with
    ret := { x.ret with sides := x.ret.sides.set d ((x.ret.sides.get d).finalized x.rtc) }
    fp := x.fp.set d (x.finalFp d)
    vlv := x.vlv.set d { x.vlv.get d with slow := (x.vlv.get d).slow && !(x.sale d).cutShort }
    disp := if (x.sale d).cutShort then x.disp.requestAll (saleRole d) .sale else x.disp
    port := { x.port with attn := x.port.attn ||| flagsOf (finalFlags d (x.ret.sides.get d)) }
    rev := rev } := ⟨_, hbase⟩
  simp only [Sides.get_set_same, Sides.set_set, BitVec.or_assoc]

/-- Between `x` and `z` the RETENTION phase ran over both sides. -/
structure State.FinalizesBoth (x z : State) : Prop where
  frame : z = { x with
    ret := { x.ret with sides := ⟨x.ret.sides.a.finalized x.rtc, x.ret.sides.b.finalized x.rtc⟩ }
    fp := ⟨{ x.finalFp .a with state := (x.ret.sides.a.finalized x.rtc).wakes }, { x.finalFp .b with state := (x.ret.sides.b.finalized x.rtc).wakes }⟩
    vlv := ⟨{ x.vlv.a with slow := x.vlv.a.slow && !x.ret.sides.a.sale.cutShort }, { x.vlv.b with slow := x.vlv.b.slow && !x.ret.sides.b.sale.cutShort }⟩
    disp := z.disp, met := z.met
    port := { x.port with attn := x.port.attn |||
      (flagsOf (finalFlags .a x.ret.sides.a ++ finalFlags .b x.ret.sides.b)
        ||| (flagsOf (x.stateFlags .a (x.ret.sides.a.finalized x.rtc).wakes) ||| flagsOf (x.stateFlags .b (x.ret.sides.b.finalized x.rtc).wakes))) }
    rev := z.rev }
  disp : (∀ r, (x.head r).state.shows = false) ∨ (∀ d, (x.sale d).cutShort = false) → z.disp = x.disp
  calibration : x.sameCalibration z

theorem State.Finalizes.disp {x y : State} {d : Side} (h : x.Finalizes y d)
    (hd : (∀ r, (x.head r).state.shows = false) ∨ (x.sale d).cutShort = false) : y.disp = x.disp := by
  rw [h.frame]
  rcases hd with hd | hd
  · change (if _ then _ else _) = _
    split
    · exact Display.requestAll_hidden hd _ _
    · rfl
  · change (if _ then _ else _) = _
    rw [hd]
    rfl

theorem State.finalizeBoth (x : State) : x.FinalizesBoth ((x.finalizeFp .a).finalizeFp .b) := by
  have ha := x.finalizeFp_finalizes .a
  have hb := (x.finalizeFp .a).finalizeFp_finalizes .b
  generalize x.finalizeFp .a = y at ha hb ⊢
  generalize y.finalizeFp .b = z at hb ⊢
  have hfp : y.finalFp .b = x.finalFp .b := by rw [ha.frame]; rfl
  have hflags : y.stateFlags .b = x.stateFlags .b := by
    funext st
    rw [ha.frame]
    rfl
  have hsale : y.sale .b = x.sale .b := by rw [ha.frame]; rfl
  refine ⟨?_, fun hd => ?_, ha.calibration.trans hb.calibration⟩
  · have hframe := hb.frame
    rw [hfp, hflags, hsale] at hframe
    have hattn : x.port.attn ||| (flagsOf (finalFlags .a x.ret.sides.a) ||| flagsOf (x.stateFlags .a (x.ret.sides.a.finalized x.rtc).wakes))
        ||| (flagsOf (finalFlags .b x.ret.sides.b) ||| flagsOf (x.stateFlags .b (x.ret.sides.b.finalized x.rtc).wakes))
        = x.port.attn ||| (flagsOf (finalFlags .a x.ret.sides.a ++ finalFlags .b x.ret.sides.b)
          ||| (flagsOf (x.stateFlags .a (x.ret.sides.a.finalized x.rtc).wakes) ||| flagsOf (x.stateFlags .b (x.ret.sides.b.finalized x.rtc).wakes))) := by
      rw [flagsOf_append]
      ac_rfl
    rw [← hattn]
    have hay := ha.frame
    clear hb ha hfp hflags hsale hattn
    obtain ⟨disp, met, rev, rfl⟩ : ∃ disp met rev, y = { x with
      ret := { x.ret with sides := x.ret.sides.set .a (x.ret.sides.a.finalized x.rtc) }
      fp := x.fp.set .a { x.finalFp .a with state := (x.ret.sides.a.finalized x.rtc).wakes }
      vlv := x.vlv.set .a { x.vlv.a with slow := x.vlv.a.slow && !x.ret.sides.a.sale.cutShort }
      disp := disp, met := met
      port := { x.port with attn := x.port.attn |||
        (flagsOf (finalFlags .a x.ret.sides.a) ||| flagsOf (x.stateFlags .a (x.ret.sides.a.finalized x.rtc).wakes)) }
      rev := rev } := ⟨_, _, _, hay⟩
    clear hay
    obtain ⟨disp', met', rev', rfl⟩ : ∃ disp met rev, z = { x with
      ret := { x.ret with sides := ⟨x.ret.sides.a.finalized x.rtc, x.ret.sides.b.finalized x.rtc⟩ }
      fp := ⟨{ x.finalFp .a with state := (x.ret.sides.a.finalized x.rtc).wakes }, { x.finalFp .b with state := (x.ret.sides.b.finalized x.rtc).wakes }⟩
      vlv := ⟨{ x.vlv.a with slow := x.vlv.a.slow && !x.ret.sides.a.sale.cutShort },
        { x.vlv.b with slow := x.vlv.b.slow && !x.ret.sides.b.sale.cutShort }⟩
      disp := disp, met := met
      port := { x.port with attn :=
        x.port.attn ||| (flagsOf (finalFlags .a x.ret.sides.a) ||| flagsOf (x.stateFlags .a (x.ret.sides.a.finalized x.rtc).wakes))
          ||| (flagsOf (finalFlags .b x.ret.sides.b) ||| flagsOf (x.stateFlags .b (x.ret.sides.b.finalized x.rtc).wakes)) }
      rev := rev } := ⟨_, _, _, hframe⟩
    rfl
  · have hy := ha.disp (hd.imp_right fun h => h .a)
    rw [← hy]
    refine hb.disp (hd.imp (fun h r => ?_) fun h => by rw [hsale]; exact h .b)
    rw [State.head, hy]
    exact h r

end Sys2Proof.Machine
end

section
/-! PROOFS. A retained price set, and the start of decoding (R31, R51, R87, R157). -/

namespace Sys2Proof.Machine

/-! ## A retained price set is applied to both sides (R87) -/

section retained
variable {z : State} {p : PendingSet}

/-- The set applied to a side while no head shows and the device is not ACTIVE. -/
theorem State.applySet_hidden {d : Side} (hp : z.ret.pendingSet = some p) (hh : ∀ r, (z.head r).state.shows = false) (ha : z.pw.state ≠ .active)
    (hout : z.fpState d = .locked ∨ z.fpState d = .unavailable) : z.applySet d false = { z with
      ret := { z.ret with appliedArea := z.ret.appliedArea.set d ⟨true, p.prices⟩, marks := z.ret.marks.set d true }
      rev := (z.rev.wroteTo (setParts.map (.applied d))).wroteTo [.mark d] } := by
  have hdisp : z.disp.requestAll (priceRole d) .board = z.disp := Display.requestAll_hidden hh _ _
  unfold State.applySet
  rw [hp]
  change State.reviewFp ({ (z.setApplied d p.prices).setMark d with disp := z.disp.requestAll (priceRole d) .board }) d = _
  rw [hdisp]
  exact State.reviewFp_stays ha hout

/-- What becomes of a pending set in the RETENTION phase. -/
theorem State.applyRetained_some (hp : z.ret.pendingSet = some p) (hh : ∀ r, (z.head r).state.shows = false) (ha : z.pw.state ≠ .active)
    (hout : ∀ d, z.fpState d = .locked ∨ z.fpState d = .unavailable) : ∃ rev, z.applyRetained = State.completeOpt { z with
      ret := { z.ret with
        appliedArea := ⟨⟨true, p.prices⟩, ⟨true, p.prices⟩⟩, pendingArea := { z.ret.pendingArea with present := false }, marks := ⟨false, false⟩ }
      price := ⟨none⟩, rev := rev } z.price.order .ok p.prices.version := by
  obtain ⟨hpresent, hset, hmarks⟩ := State.pendingSet_some hp
  have h1 := State.applySet_hidden (d := .a) hp hh ha (hout .a)
  obtain ⟨y, hy⟩ : ∃ y, y = z.applySet .a false := ⟨_, rfl⟩
  rw [← hy] at h1
  have hyp : y.ret.pendingSet = some ⟨p.prices, z.ret.marks.set .a true⟩ := by
    rw [h1, Retention.pendingSet, SetArea.held]
    dsimp only
    rw [hpresent, hset]
    rfl
  have h2 := State.applySet_hidden (d := .b) hyp (by rw [h1]; exact hh) (by rw [h1]; exact ha) (by rw [h1]; exact hout .b)
  obtain ⟨w, hw⟩ : ∃ w, w = y.applySet .b false := ⟨_, rfl⟩
  rw [← hw] at h2
  have hwp : w.ret.pendingSet = some ⟨p.prices, ⟨true, true⟩⟩ := by
    rw [h2, h1, Retention.pendingSet, SetArea.held]
    dsimp only
    rw [hpresent, hset]
    rfl
  refine ⟨(w.rev.wroteTo [.pending .present, .mark .a, .mark .b]), ?_⟩
  have hfinish := State.finishPending_done hwp rfl
  have hz : z.applyRetained = w.finishPending := by rw [State.applyRetained, ← hy, ← hw]
  have hprice : w.price = z.price := by rw [h2, h1]
  rw [hz, hfinish, hprice]
  refine congrArg (fun x => State.completeOpt x z.price.order .ok p.prices.version) ?_
  rw [h2, h1]
  rfl

theorem State.applyRetained_none (hp : z.ret.pendingSet = none) : z.applyRetained = z := by
  have h (d : Side) : z.applySet d false = z := by
    unfold State.applySet
    rw [hp]
  rw [State.applyRetained, h, h, State.finishPending_none hp]

end retained

/-! ## Decoding begins (R31, R51, R157 step 4) -/

/-- The lock-flow measure of a side as decoding begins (R51). -/
def FuelPoint.watched (f : FuelPoint) (r : RetSide) : FuelPoint :=
  if f.state = .locked ∧ r.lockCause = some .unauthFlow then { f with lockFlow := some 0, lockFlowMade := false } else f

theorem State.startLockFlow_frame (s : State) (d : Side) :
    s.startLockFlow d = { s with fp := s.fp.set d ((s.fp.get d).watched (s.ret.sides.get d)) } := by
  unfold State.startLockFlow FuelPoint.watched
  by_cases h : s.fpState d = .locked ∧ (s.ret.sides.get d).lockCause = some .unauthFlow
  · have h' : (s.fp.get d).state = .locked ∧ (s.ret.sides.get d).lockCause = some .unauthFlow := h
    rw [if_pos h, if_pos h']
    rfl
  · have h' : ¬ ((s.fp.get d).state = .locked ∧ (s.ret.sides.get d).lockCause = some .unauthFlow) := h
    rw [if_neg h, if_neg h', Sides.set_get]

theorem State.rewrites_frame (rs : List RecordId) (s : State) : rs.foldl State.rewrite s = { s with rev := (rs.foldl State.rewrite s).rev } := by
  induction rs generalizing s with
  | nil => rfl
  | cons r rest ih => exact (ih (s.rewrite r)).trans rfl

theorem State.startDecoding_frame (s : State) (levels : Sides (Three LevelPair)) : s.startDecoding levels = { s with
    met := (s.startDecoding levels).met, pw := { s.pw with decoding := true }
    fp := ⟨s.fp.a.watched s.ret.sides.a, s.fp.b.watched s.ret.sides.b⟩, rev := (s.startDecoding levels).rev } := by
  unfold State.startDecoding
  dsimp only
  rw [State.rewrites_frame, State.startLockFlow_frame, State.startLockFlow_frame]
  rfl

theorem State.startDecoding_meter (s : State) (levels : Sides (Three LevelPair)) (m : Meter) : (s.startDecoding levels).meter m =
    { Channel.powerUp with phase := (levels.get m.side).get m.product, k := (s.meter m).k, cal := (s.meter m).cal } := by
  unfold State.startDecoding
  dsimp only
  rw [State.rewrites_frame, State.startLockFlow_frame, State.startLockFlow_frame]
  obtain ⟨d, p⟩ := m
  cases d <;> cases p <;> rfl

/-- The fueling point of a side that the RETENTION phase finalized, as decoding begins. -/
theorem State.finalFp_finalized (x : State) (d : Side) :
    ({ x.finalFp d with state := ((x.ret.sides.get d).finalized x.rtc).wakes } : FuelPoint).watched ((x.ret.sides.get d).finalized x.rtc) =
      (x.fp.get d).finalized (x.ret.sides.get d) ((x.ret.sides.get d).finalized x.rtc) x.rtc := by
  have hlocked (q : RetSide) : q.wakes = .locked ↔ q.locked = true := by
    unfold RetSide.wakes
    cases q.locked <;> simp
  unfold FuelPoint.watched FuelPoint.finalized State.finalFp
  cases hc : (x.sale d).cutShort
  · have hc' : (x.ret.sides.get d).sale.cutShort = false := hc
    simp only [hc', Bool.false_eq_true, ↓reduceIte, hlocked]
    rfl
  · have hc' : (x.ret.sides.get d).sale.cutShort = true := hc
    have hq := RetSide.finalized_cut hc' x.rtc
    simp only [hc', ↓reduceIte, hlocked]
    cases hl : (x.sale d).cutOff.leavesLock with
    | none => rfl
    | some c =>
      have hon : ((x.ret.sides.get d).finalized x.rtc).locked = true ∧ ((x.ret.sides.get d).finalized x.rtc).lockCause = some c := by
        rw [hq, show (x.ret.sides.get d).sale.cutOff.leavesLock = some c from hl]
        exact ⟨rfl, rfl⟩
      rw [(hlocked _).mpr hon.1, hon.1, hon.2]
      unfold FuelPoint.lockNotedFor FuelPoint.lockNoted
      by_cases hu : c = .unauthFlow
      · subst hu
        simp only [and_self, ↓reduceIte]
        rfl
      · have hne : ¬ (some c = some Cause.unauthFlow) := fun h => hu (Option.some.inj h)
        simp only [hu, hne, and_false, ↓reduceIte]
        rfl

end Sys2Proof.Machine
end

section
/-! PROOFS. STORE_LOAD_DONE (R156 to R158). -/

namespace Sys2Proof.Machine

/-! ## From the RETENTION phase to the DISPLAY phase -/

section phases
variable {y : State} (levels : Sides (Three LevelPair))

/-- Decoding begins, and the DISPLAY phase with it. -/
def State.displayed (y : State) (levels : Sides (Three LevelPair)) : State := ((y.startDecoding levels).reviewBoth).enterDisplay

theorem FuelPoint.watched_state (f : FuelPoint) (r : RetSide) : (f.watched r).state = f.state := by
  unfold FuelPoint.watched
  split <;> rfl

variable (ha : y.pw.state ≠ .active) (hout : ∀ d, y.fpState d = .locked ∨ y.fpState d = .unavailable)
include ha hout

theorem State.startDecoding_reviewed : (y.startDecoding levels).reviewBoth = y.startDecoding levels := by
  have hpw : (y.startDecoding levels).pw.state ≠ .active := by rw [y.startDecoding_frame levels]; exact ha
  have hfp (d : Side) : (y.startDecoding levels).fpState d = y.fpState d := by
    rw [y.startDecoding_frame levels]
    cases d
    · exact FuelPoint.watched_state ..
    · exact FuelPoint.watched_state ..
  rw [State.reviewBoth, State.reviewFp_stays hpw (by rw [hfp]; exact hout .a), State.reviewFp_stays hpw (by rw [hfp]; exact hout .b)]

theorem State.displayed_frame : y.displayed levels = { y with
    met := (y.displayed levels).met, pw := { y.pw with phase := .display, decoding := true }
    fp := ⟨y.fp.a.watched y.ret.sides.a, y.fp.b.watched y.ret.sides.b⟩
    disp := { y.disp with rail := true, awaitHigh := true, settle := some 100, step := .settling }
    port := { y.port with attn := y.port.attn ||| Attn.power.mask }, rev := (y.displayed levels).rev } := by
  have hframe := y.startDecoding_frame levels
  rw [State.displayed, State.startDecoding_reviewed levels ha hout]
  generalize y.startDecoding levels = z at hframe ⊢
  obtain ⟨met, rev, rfl⟩ : ∃ met rev, z = { y with
    met := met, pw := { y.pw with decoding := true }, fp := ⟨y.fp.a.watched y.ret.sides.a, y.fp.b.watched y.ret.sides.b⟩, rev := rev } :=
      ⟨_, _, hframe⟩
  rfl

theorem State.displayed_meter (m : Meter) : (y.displayed levels).meter m =
    { Channel.powerUp with phase := (levels.get m.side).get m.product, k := (y.meter m).k, cal := (y.meter m).cal } := by
  have hm := y.startDecoding_meter levels m
  rw [State.displayed, State.startDecoding_reviewed levels ha hout]
  generalize y.startDecoding levels = z at hm ⊢
  exact hm

end phases

/-! ## The RETENTION phase begins -/

section begins
variable {s : State} {image : List Host.Cell} {levels : Sides (Three LevelPair)}

/-- The store port once the STORE phase has loaded an image (R156, R172, R174). -/
def StorePort.loaded (x : StorePort) (image : List Host.Cell) : StorePort := { x.load image with check := some 10000 }

/-- The state in which the RETENTION phase begins. -/
def State.retaining (s : State) (image : List Host.Cell) : State :=
  ((s.loadStore image).updStore (fun x => { x with check := some 10000 })).setPhase .retention

theorem State.exec_storeLoadDone (hs : s.steady) (hw : s.pw.state = .waking) (hp : s.pw.phase = .store) :
    exec (.storeLoadDone image levels) s = .next (publish s (((s.retaining image).retentionPhase).displayed levels)) :=
  (event_steady hs).trans (by rw [if_pos ⟨hw, hp⟩]; rfl)

variable (h0 : (Memory.ofCells 1156 image).read 0 ≠ 0) (hff : (Memory.ofCells 1156 image).read 0 ≠ 0xFF)
include h0 hff

theorem State.retaining_frame : s.retaining image = { s with
    store := s.store.loaded image, halt := { s.halt with reload := false }, met := (s.retaining image).met
    pw := { s.pw with phase := .retention }
    port := { s.port with attn := s.port.attn ||| (flagsOf (s.store.changeFlags (s.store.loaded image)) ||| Attn.power.mask) } } := by
  have hframe := s.loadStore_frame image h0 hff
  have hflags : s.store.changeFlags (s.store.loaded image) = s.store.changeFlags (s.store.load image) := rfl
  rw [hflags, ← BitVec.or_assoc]
  unfold State.retaining StorePort.loaded
  generalize s.loadStore image = t at hframe ⊢
  obtain ⟨met, rfl⟩ : ∃ met, t = { s with
    store := s.store.load image, halt := { s.halt with reload := false }, met := met
    port := { s.port with attn := s.port.attn ||| flagsOf (s.store.changeFlags (s.store.load image)) } } := ⟨_, hframe⟩
  rfl

theorem State.retaining_meter (m : Meter) : ((s.retaining image).meter m).k =
      clampNat 200000 2000000 ((Memory.ofCells 1154 image).field (meterAddr m) 4)
    ∧ ((s.retaining image).meter m).cal = some (calibrationIn (Memory.ofCells 1154 image) m) := by
  have hload := s.loadStore_meter image h0 hff m
  unfold State.retaining
  generalize s.loadStore image = t at hload ⊢
  have hm : ((t.updStore (fun x => { x with check := some 10000 })).setPhase .retention).meter m = t.meter m := rfl
  rw [hm, hload]
  exact ⟨rfl, rfl⟩

end begins

/-! ## Retention memory that stands (R26, R87, R157) -/

/-- The RETENTION phase of a wake with retention memory intact, as it ends. -/
theorem State.retentionPhase_intact {x : State} (hi : x.ret.intact = true) : x.retentionPhase =
    (((x.updPower (fun p => { p with totalsInvalid := x.ret.totalsInvalid })).finalizeFp .a).finalizeFp .b).applyRetained := if_pos hi

/-- What the RETENTION phase made of `x`, which is in a wake. -/
structure State.Retained (x y told : State) : Prop where
  frame : y = { x with
    ret := { x.ret with
      sides := ⟨x.ret.sides.a.finalized x.rtc, x.ret.sides.b.finalized x.rtc⟩
      pendingArea := { x.ret.pendingArea with present := false }
      marks := if x.ret.pendingSet.isSome then ⟨false, false⟩ else x.ret.marks
      appliedArea := y.ret.appliedArea }
    pw := { x.pw with totalsInvalid := x.ret.totalsInvalid }
    fp := ⟨{ x.finalFp .a with state := (x.ret.sides.a.finalized x.rtc).wakes }, { x.finalFp .b with state := (x.ret.sides.b.finalized x.rtc).wakes }⟩
    vlv := ⟨{ x.vlv.a with slow := x.vlv.a.slow && !x.ret.sides.a.sale.cutShort }, { x.vlv.b with slow := x.vlv.b.slow && !x.ret.sides.b.sale.cutShort }⟩
    price := if x.ret.pendingSet.isSome then ⟨none⟩ else x.price
    met := y.met, mem := y.mem, port := y.port, rev := y.rev }
  applied : ∀ p, x.ret.pendingSet = some p → y.ret.appliedArea = ⟨⟨true, p.prices⟩, ⟨true, p.prices⟩⟩
  stands : x.ret.pendingSet = none → y.ret.appliedArea = x.ret.appliedArea
  told : y.Told told (flagsOf (finalFlags .a x.ret.sides.a ++ finalFlags .b x.ret.sides.b)
    ||| (flagsOf (x.stateFlags .a (x.ret.sides.a.finalized x.rtc).wakes) ||| flagsOf (x.stateFlags .b (x.ret.sides.b.finalized x.rtc).wakes)))
  calibration : x.sameCalibration y

theorem RetSide.wakes_out (r : RetSide) : r.wakes = .locked ∨ r.wakes = .unavailable := by
  unfold RetSide.wakes
  split
  · exact .inl rfl
  · exact .inr rfl

theorem State.pendingSet_none {s : State} (h : s.ret.pendingSet = none) : s.ret.pendingArea.present = false := by
  unfold Retention.pendingSet SetArea.held at h
  cases hp : s.ret.pendingArea.present with
  | false => rfl
  | true =>
    rw [hp] at h
    cases h

/-- The orders that the RETENTION phase completes. -/
def State.retainedTold (x : State) : State := match x.ret.pendingSet with
  | some p => x.completeOpt x.price.order .ok p.prices.version
  | none => x

theorem State.retentionPhase_retains {x : State} (hi : x.ret.intact = true) (ha : x.pw.state ≠ .active)
    (hh : (∀ r, (x.head r).state.shows = false) ∨ (∀ d, (x.sale d).cutShort = false) ∧ x.ret.pendingSet = none) :
    x.Retained x.retentionPhase x.retainedTold := by
  obtain ⟨w, hw⟩ : ∃ w, w = x.updPower (fun p => { p with totalsInvalid := x.ret.totalsInvalid }) := ⟨_, rfl⟩
  have hboth := w.finalizeBoth
  have hdisp : ((w.finalizeFp .a).finalizeFp .b).disp = w.disp := hboth.disp (by
    rw [hw]
    exact hh.imp id And.left)
  rw [State.retentionPhase_intact hi, ← hw]
  generalize (w.finalizeFp .a).finalizeFp .b = z at hboth hdisp ⊢
  have hframe := hboth.frame
  have hcal : x.sameCalibration z := by
    have := hboth.calibration
    rw [hw] at this
    exact this
  rw [hdisp] at hframe
  clear hboth hdisp
  rw [hw] at hframe
  obtain ⟨met, rev, hz⟩ : ∃ met rev, z = { x with
      ret := { x.ret with sides := ⟨x.ret.sides.a.finalized x.rtc, x.ret.sides.b.finalized x.rtc⟩ }
      pw := { x.pw with totalsInvalid := x.ret.totalsInvalid }
      fp := ⟨{ x.finalFp .a with state := (x.ret.sides.a.finalized x.rtc).wakes }, { x.finalFp .b with state := (x.ret.sides.b.finalized x.rtc).wakes }⟩
      vlv := ⟨{ x.vlv.a with slow := x.vlv.a.slow && !x.ret.sides.a.sale.cutShort },
        { x.vlv.b with slow := x.vlv.b.slow && !x.ret.sides.b.sale.cutShort }⟩
      met := met
      port := { x.port with attn := x.port.attn |||
        (flagsOf (finalFlags .a x.ret.sides.a ++ finalFlags .b x.ret.sides.b)
          ||| (flagsOf (x.stateFlags .a (x.ret.sides.a.finalized x.rtc).wakes)
            ||| flagsOf (x.stateFlags .b (x.ret.sides.b.finalized x.rtc).wakes))) }
      rev := rev } := ⟨_, _, hframe⟩
  have hpending : z.ret.pendingSet = x.ret.pendingSet := by rw [hz]; rfl
  clear hframe hw
  cases hp : x.ret.pendingSet with
  | none =>
    rw [State.applyRetained_none (hpending.trans hp)]
    have htold : x.retainedTold = x := by
      unfold State.retainedTold
      rw [hp]
    have harea : ({ x.ret.pendingArea with present := false } : SetArea) = x.ret.pendingArea := by
      rw [← State.pendingSet_none hp]
    rw [htold]
    refine ⟨?_, fun p h => (by rw [hp] at h; cases h), fun _ => by rw [hz], ⟨by rw [hz], by rw [hz], by rw [hz]⟩, hcal⟩
    rw [hp, harea]
    subst hz
    rfl
  | some p =>
    have hh' := hh.resolve_right fun hc => by rw [hp] at hc; cases hc.2
    have hout (d : Side) : z.fpState d = .locked ∨ z.fpState d = .unavailable := by
      rw [hz]
      cases d
      · exact (x.ret.sides.a.finalized x.rtc).wakes_out
      · exact (x.ret.sides.b.finalized x.rtc).wakes_out
    obtain ⟨rev', happ⟩ := State.applyRetained_some (hpending.trans hp) (by rw [hz]; exact hh') (by rw [hz]; exact ha) hout
    have htold : x.retainedTold = x.completeOpt x.price.order .ok p.prices.version := by
      unfold State.retainedTold
      rw [hp]
    have hprice : z.price = x.price := by rw [hz]
    rw [hprice] at happ
    obtain ⟨v, hv⟩ : ∃ v : State, v = { z with
      ret := { z.ret with
        appliedArea := ⟨⟨true, p.prices⟩, ⟨true, p.prices⟩⟩, pendingArea := { z.ret.pendingArea with present := false }, marks := ⟨false, false⟩ }
      price := ⟨none⟩, rev := rev' } := ⟨_, rfl⟩
    rw [← hv] at happ
    have hvt : v.Told x (flagsOf (finalFlags .a x.ret.sides.a ++ finalFlags .b x.ret.sides.b)
        ||| (flagsOf (x.stateFlags .a (x.ret.sides.a.finalized x.rtc).wakes)
          ||| flagsOf (x.stateFlags .b (x.ret.sides.b.finalized x.rtc).wakes))) := by
      rw [hv, hz]
      exact ⟨rfl, rfl, rfl⟩
    have htelling := hvt.completeOpt x.price.order .ok p.prices.version
    have hframe := (v.completeOpt_onlyTold x.price.order .ok p.prices.version).frame
    rw [← happ] at htelling hframe
    rw [htold]
    generalize z.applyRetained = y at htelling hframe ⊢
    have hret : y.ret.appliedArea = ⟨⟨true, p.prices⟩, ⟨true, p.prices⟩⟩ := by rw [hframe, hv]
    refine ⟨?_, fun q hq => ?_, fun hn => (by rw [hp] at hn; cases hn), htelling, hcal.trans (.of_met (by rw [hframe, hv]))⟩
    · rw [hret, hp]
      obtain ⟨mem, attn, rfl⟩ : ∃ mem attn, y = { v with mem := mem, port := { v.port with attn := attn } } := ⟨_, _, hframe⟩
      rw [hv, hz]
      rfl
    · obtain rfl : q = p := Option.some.inj (hq.symm.trans hp)
      exact hret

end Sys2Proof.Machine
end

section
/-! PROOFS. STORE_LOAD_DONE with retention memory intact. -/

namespace Sys2Proof.Machine

/-- What the load of the STORE phase leads to with retention memory intact (R26, R31, R87, R156 to R158, R172). -/
structure State.LoadsIntact (s t told : State) (image : List Host.Cell) (levels : Sides (Three LevelPair)) : Prop where
  store : t.store = s.store.loaded image
  halt : t.halt = { s.halt with reload := false }
  disp : t.disp = { s.disp with rail := true, awaitHigh := true, settle := some 100, step := .settling }
  meters : ∀ m, t.meter m = { Channel.powerUp with
    phase := (levels.get m.side).get m.product, k := clampNat 200000 2000000 ((Memory.ofCells 1154 image).field (meterAddr m) 4)
    cal := some (calibrationIn (Memory.ofCells 1154 image) m) }
  pw : t.pw = { s.pw with phase := .display, decoding := true, totalsInvalid := s.ret.totalsInvalid }
  ret : t.ret = { s.ret with
    sides := ⟨s.ret.sides.a.finalized s.rtc, s.ret.sides.b.finalized s.rtc⟩
    pendingArea := { s.ret.pendingArea with present := false }
    marks := if s.ret.pendingSet.isSome then ⟨false, false⟩ else s.ret.marks
    appliedArea := t.ret.appliedArea }
  applied : ∀ p, s.ret.pendingSet = some p → t.ret.appliedArea = ⟨⟨true, p.prices⟩, ⟨true, p.prices⟩⟩
  stands : s.ret.pendingSet = none → t.ret.appliedArea = s.ret.appliedArea
  fp : ∀ d, t.fp.get d = (s.fp.get d).finalized (s.ret.sides.get d) ((s.ret.sides.get d).finalized s.rtc) s.rtc
  vlv : ∀ d, t.vlv.get d = { s.vlv.get d with slow := (s.vlv.get d).slow && !(s.sale d).cutShort }
  price : t.price = if s.ret.pendingSet.isSome then ⟨none⟩ else s.price
  mem : t.mem = told.mem
  port : t.port = { s.port with
    attn := told.port.attn ||| flagsOf (.power :: (finalFlags .a s.ret.sides.a ++ finalFlags .b s.ret.sides.b ++ s.changeFlags t)) }
  frame : t = { s with store := t.store, halt := t.halt, pw := t.pw, disp := t.disp, ret := t.ret, met := t.met, fp := t.fp, vlv := t.vlv
                       price := t.price, mem := t.mem, port := t.port, rev := t.rev }

theorem State.Told.retained {x y : State} {w : Word16} (h : x.Told y w) (hr : x.ret = y.ret) (hp : x.price = y.price) :
    x.retainedTold.Told y.retainedTold w := by
  unfold State.retainedTold
  rw [hr, hp]
  cases y.ret.pendingSet with
  | none => exact h
  | some p => exact h.completeOpt _ _ _

theorem State.retainedTold_onlyTold (s : State) : s.OnlyTold s.retainedTold := by
  unfold State.retainedTold
  cases s.ret.pendingSet with
  | none => exact .refl s
  | some p => exact s.completeOpt_onlyTold _ _ _

/-- The flags of the load, of the finalizations and of the phases in one word. -/
theorem flags_gathered (T M P F A B : Word16) : T ||| (M ||| P ||| (F ||| (A ||| B))) ||| P = T ||| (P ||| (F ||| (A ||| B ||| M))) := by
  have h : T ||| (M ||| P ||| (F ||| (A ||| B))) ||| P = T ||| ((P ||| P) ||| (F ||| (A ||| B ||| M))) := by ac_rfl
  rw [h, BitVec.or_self]

theorem FuelPoint.finalized_state (f : FuelPoint) (r q : RetSide) (now : Word32) : (f.finalized r q now).state = q.wakes := by
  unfold FuelPoint.finalized RetSide.wakes
  dsimp only
  split <;> rfl

theorem State.stateFlags_congr {x s : State} (h : x.fp = s.fp) (d : Side) (st : FpState) : x.stateFlags d st = s.stateFlags d st := by
  rw [State.stateFlags, State.fpState, h]
  rfl

section loading
variable {s : State} {image : List Host.Cell} {levels : Sides (Three LevelPair)} (hw : s.pw.state = .waking)
  (h0 : (Memory.ofCells 1156 image).read 0 ≠ 0) (hff : (Memory.ofCells 1156 image).read 0 ≠ 0xFF)
include hw h0 hff

theorem State.loadsIntact (hi : s.ret.intact = true)
    (hh : (∀ r, (s.head r).state.shows = false) ∨ (∀ d, (s.sale d).cutShort = false) ∧ s.ret.pendingSet = none) :
    s.LoadsIntact (publish s (((s.retaining image).retentionPhase).displayed levels)) s.retainedTold image levels := by
  have hxframe := s.retaining_frame (image := image) h0 hff
  have hxcal := State.retaining_meter (s := s) h0 hff
  obtain ⟨x, hx⟩ : ∃ x, x = s.retaining image := ⟨_, rfl⟩
  rw [← hx] at hxframe hxcal ⊢
  have hret : x.ret = s.ret := by rw [hxframe]
  have hrtc : x.rtc = s.rtc := by rw [hxframe]
  have hfpx : x.fp = s.fp := by rw [hxframe]
  have hpricex : x.price = s.price := by rw [hxframe]
  have hdispx : x.disp = s.disp := by rw [hxframe]
  have hsale (d : Side) : x.sale d = s.sale d := by rw [State.sale, hret]; rfl
  have hpwx : x.pw.state ≠ .active := by rw [hxframe]; exact fun hc => by rw [hw] at hc; cases hc
  have htold : x.Told s (flagsOf (s.store.changeFlags (s.store.loaded image)) ||| Attn.power.mask) := by
    rw [hxframe]
    exact ⟨rfl, rfl, rfl⟩
  have hy := State.retentionPhase_retains (x := x) (by rw [hret]; exact hi) hpwx (by
    rcases hh with hh | ⟨hh, hp⟩
    · exact .inl fun r => by rw [State.head, hdispx]; exact hh r
    · exact .inr ⟨fun d => by rw [hsale]; exact hh d, by rw [hret]; exact hp⟩)
  have htelling := hy.told.trans (htold.retained hret hpricex)
  obtain ⟨hframe, happlied, hstands, -, hcal⟩ := hy
  have hfinal (d : Side) := x.finalFp_finalized d
  generalize x.retentionPhase = y at hframe happlied hstands htelling hcal ⊢
  have hypw : y.pw.state ≠ .active := by rw [hframe]; exact hpwx
  have hyout (d : Side) : y.fpState d = .locked ∨ y.fpState d = .unavailable := by
    rw [hframe]
    cases d
    · exact (x.ret.sides.a.finalized x.rtc).wakes_out
    · exact (x.ret.sides.b.finalized x.rtc).wakes_out
  have hshow := y.displayed_frame levels hypw hyout
  have hmeter := y.displayed_meter levels hypw hyout
  generalize y.displayed levels = t at hshow hmeter ⊢
  have hrettime : y.ret = { s.ret with
      sides := ⟨s.ret.sides.a.finalized s.rtc, s.ret.sides.b.finalized s.rtc⟩
      pendingArea := { s.ret.pendingArea with present := false }
      marks := if s.ret.pendingSet.isSome then ⟨false, false⟩ else s.ret.marks
      appliedArea := y.ret.appliedArea } := by
    rw [← hret, ← hrtc]
    exact congrArg State.ret hframe
  have hfps (d : Side) : t.fp.get d = (s.fp.get d).finalized (s.ret.sides.get d) ((s.ret.sides.get d).finalized s.rtc) s.rtc := by
    have hd := hfinal d
    rw [hret, hrtc, hfpx] at hd
    refine Eq.trans ?_ hd
    rw [hshow, hframe]
    cases d <;> rw [← hret, ← hrtc] <;> rfl
  have hchange : flagsOf (s.changeFlags t) = flagsOf (s.stateFlags .a (s.ret.sides.a.finalized s.rtc).wakes)
      ||| flagsOf (s.stateFlags .b (s.ret.sides.b.finalized s.rtc).wakes) ||| flagsOf (s.store.changeFlags (s.store.loaded image)) := by
    have hstate (d : Side) : t.fpState d = ((s.ret.sides.get d).finalized s.rtc).wakes := by
      rw [State.fpState, hfps, FuelPoint.finalized_state]
    have hrdr : t.rdr = s.rdr := by rw [hshow, hframe, hxframe]
    have hheads (r : Role) : t.head r = s.head r := by
      rw [hshow, hframe, hxframe]
      rfl
    have hstore : t.store = s.store.loaded image := by rw [hshow, hframe, hxframe]
    have hc := State.changeFlags_fpsStore (s := s) (t := t) (fun d => by rw [hrdr]) (fun r => by rw [hheads])
    rw [hstate, hstate, hstore] at hc
    exact hc
  have hports : t.port = { s.port with
      attn := s.retainedTold.port.attn ||| flagsOf (.power :: (finalFlags .a s.ret.sides.a ++ finalFlags .b s.ret.sides.b ++ s.changeFlags t)) } := by
    have hport : s.retainedTold.port = { s.port with attn := s.retainedTold.port.attn } := by rw [s.retainedTold_onlyTold.frame]
    have hgather := htelling.port
    rw [hret, hrtc, State.stateFlags_congr hfpx, State.stateFlags_congr hfpx] at hgather
    have hlast : t.port = { y.port with attn := y.port.attn ||| Attn.power.mask } := by rw [hshow]
    rw [flagsOf_cons, flagsOf_append, hchange, ← flags_gathered, hlast, hgather, hport]
  have hmem : t.mem = s.retainedTold.mem := by rw [hshow, ← htelling.mem]
  have hvlv (d : Side) : t.vlv.get d = { s.vlv.get d with slow := (s.vlv.get d).slow && !(s.sale d).cutShort } := by
    rw [hshow, hframe, hret, hxframe]
    cases d <;> rfl
  have hdisp : t.disp = { s.disp with rail := true, awaitHigh := true, settle := some 100, step := .settling } := by
    rw [hshow, hframe, ← hdispx]
  have hpw : t.pw = { s.pw with phase := .display, decoding := true, totalsInvalid := s.ret.totalsInvalid } := by
    rw [hshow, hframe, hret, hxframe]
  have hmet (m : Meter) := (hmeter m).trans (by rw [(hcal m).1, (hcal m).2, (hxcal m).1, (hxcal m).2])
  have hprice : t.price = if s.ret.pendingSet.isSome then ⟨none⟩ else s.price := by rw [hshow, hframe, hret, hpricex]
  have hwhole : t = { s with store := t.store, halt := t.halt, pw := t.pw, disp := t.disp, ret := t.ret, met := t.met, fp := t.fp, vlv := t.vlv
                             price := t.price, mem := t.mem, port := t.port, rev := t.rev } := by
    rw [hshow, hframe, hxframe]
  have htret : t.ret = y.ret := by rw [hshow]
  rw [← htret] at hrettime happlied hstands
  rw [hret] at happlied hstands
  exact ⟨by rw [publish_store, hshow, hframe, hxframe], by rw [publish_halt, hshow, hframe, hxframe], hdisp, hmet, hpw, hrettime, happlied, hstands,
    hfps, hvlv, hprice, hmem, hports, congrArg (fun z : State => ({ z with rev := nextRevisions s t } : State)) hwhole⟩

end loading

end Sys2Proof.Machine
end

section
/-! PROOFS. The load of the STORE phase, and what was interrupted (O51). -/

namespace Sys2Proof.Machine

/-! ## Retention memory initialized (R88, R169) -/

/-- The state in which every side is made UNAVAILABLE as retention memory is initialized. -/
def State.emptied (x : State) : State := { x with
  ret := x.ret.initialized, rtc := 0, rev := x.rev.wroteTo initParts, pw := { x.pw with totalsInvalid := true }, price := ⟨none⟩ }

theorem State.initRetention_eq (x : State) :
    x.initRetention = retainedRecords.foldl State.rewrite ((x.emptied.setFpState .a .unavailable).setFpState .b .unavailable) := by
  unfold State.initRetention
  generalize retainedRecords = rs
  rfl

theorem State.initRetention_calibration (x : State) : x.sameCalibration x.initRetention := by
  have hmet (rs : List RecordId) (z : State) : z.sameCalibration (rs.foldl State.rewrite z) := .of_met (by rw [State.rewrites_frame])
  rw [State.initRetention_eq]
  refine .trans ?_ (hmet _ _)
  exact (x.emptied.setFpState_calibration .a .unavailable).trans ((x.emptied.setFpState .a .unavailable).setFpState_calibration .b .unavailable)

theorem State.initRetention_frame (x : State) : x.initRetention = { x with
    ret := x.ret.initialized, rtc := 0, pw := { x.pw with totalsInvalid := true }, price := ⟨none⟩
    fp := ⟨{ x.fp.a with state := .unavailable }, { x.fp.b with state := .unavailable }⟩, met := x.initRetention.met
    port := { x.port with attn := x.port.attn ||| flagsOf (x.stateFlags .a .unavailable) ||| flagsOf (x.stateFlags .b .unavailable) }
    rev := x.initRetention.rev } := by
  rw [State.initRetention_eq, State.rewrites_frame]
  have hemptied : ∀ st, x.emptied.stateFlags .a st = x.stateFlags .a st := fun _ => rfl
  have ha := x.emptied.setFpState_frame .a .unavailable
  rw [x.emptied.setFpState_flags .a, hemptied] at ha
  generalize x.emptied.setFpState .a .unavailable = y at ha ⊢
  have hy : ∀ st, y.stateFlags .b st = x.stateFlags .b st := fun st => by
    unfold State.stateFlags
    rw [State.fpState, ha]
    rfl
  have hb := y.setFpState_frame .b .unavailable
  rw [y.setFpState_flags .b, hy] at hb
  generalize y.setFpState .b .unavailable = z at hb ⊢
  generalize (retainedRecords.foldl State.rewrite z).rev = rev
  generalize z.met = met at hb ⊢
  subst hb
  generalize y.met = met' at ha
  subst ha
  rfl

section loading
variable {s : State} {image : List Host.Cell} {levels : Sides (Three LevelPair)} (hw : s.pw.state = .waking)
  (h0 : (Memory.ofCells 1156 image).read 0 ≠ 0) (hff : (Memory.ofCells 1156 image).read 0 ≠ 0xFF)
include hw h0 hff

/-- What the load of the STORE phase leads to with retention memory not intact (R88, R156, R169, R172). -/
structure State.LoadsEmptied (s t : State) (image : List Host.Cell) (levels : Sides (Three LevelPair)) : Prop where
  meters : ∀ m, t.meter m = { Channel.powerUp with
    phase := (levels.get m.side).get m.product, k := clampNat 200000 2000000 ((Memory.ofCells 1154 image).field (meterAddr m) 4)
    cal := some (calibrationIn (Memory.ofCells 1154 image) m) }
  fp : ∀ d, t.fpState d = .unavailable
  port : t.port = { s.port with attn := s.port.attn ||| flagsOf (.power :: s.changeFlags t) }
  frame : t = { s with
    store := s.store.loaded image, halt := { s.halt with reload := false }
    pw := { s.pw with phase := .display, decoding := true, totalsInvalid := true }
    disp := { s.disp with rail := true, awaitHigh := true, settle := some 100, step := .settling }
    ret := s.ret.initialized, rtc := 0, met := t.met, fp := t.fp, price := ⟨none⟩, port := t.port, rev := t.rev }

theorem State.loadsEmptied (hi : s.ret.intact = false) :
    s.LoadsEmptied (publish s (((s.retaining image).retentionPhase).displayed levels)) image levels := by
  have hxframe := s.retaining_frame (image := image) h0 hff
  have hxcal := State.retaining_meter (s := s) h0 hff
  generalize s.retaining image = x at hxframe hxcal ⊢
  have hret : x.ret = s.ret := by rw [hxframe]
  have hfpx : x.fp = s.fp := by rw [hxframe]
  have hphase : x.retentionPhase = x.initRetention := if_neg (by rw [hret, hi]; decide)
  have hframe := x.initRetention_frame
  have hcal := x.initRetention_calibration
  rw [hphase]
  generalize x.initRetention = y at hframe hcal ⊢
  have hypw : y.pw.state ≠ .active := by
    rw [hframe, hxframe]
    exact fun hc => by rw [hw] at hc; cases hc
  have hyfp (d : Side) : y.fpState d = .unavailable := by
    rw [hframe]
    cases d <;> rfl
  have hshow := y.displayed_frame levels hypw fun d => .inr (hyfp d)
  have hmeter := y.displayed_meter levels hypw fun d => .inr (hyfp d)
  generalize y.displayed levels = t at hshow hmeter ⊢
  have hfp (d : Side) : t.fpState d = .unavailable := by
    rw [hshow, ← hyfp d]
    cases d
    · exact FuelPoint.watched_state ..
    · exact FuelPoint.watched_state ..
  have hchange : flagsOf (s.changeFlags t) = flagsOf (s.stateFlags .a .unavailable) ||| flagsOf (s.stateFlags .b .unavailable)
      ||| flagsOf (s.store.changeFlags (s.store.loaded image)) := by
    have hrdr : t.rdr = s.rdr := by rw [hshow, hframe, hxframe]
    have hheads (r : Role) : t.head r = s.head r := by
      rw [hshow, hframe, hxframe]
      rfl
    have hstore : t.store = s.store.loaded image := by rw [hshow, hframe, hxframe]
    have hc := State.changeFlags_fpsStore (s := s) (t := t) (fun d => by rw [hrdr]) (fun r => by rw [hheads])
    rw [hfp, hfp, hstore] at hc
    exact hc
  have hport : t.port = { s.port with attn := s.port.attn ||| flagsOf (.power :: s.changeFlags t) } := by
    have hlast : t.port = { y.port with attn := y.port.attn ||| Attn.power.mask } := by rw [hshow]
    have hy : y.port = { x.port with attn := x.port.attn ||| flagsOf (x.stateFlags .a .unavailable) ||| flagsOf (x.stateFlags .b .unavailable) } := by
      rw [hframe]
    have hx : x.port = { s.port with attn := s.port.attn ||| (flagsOf (s.store.changeFlags (s.store.loaded image)) ||| Attn.power.mask) } := by
      rw [hxframe]
    have hgather (P M A B L : Word16) : P ||| (L ||| M) ||| A ||| B ||| M = P ||| (M ||| (A ||| B ||| L)) := by
      have h : P ||| (L ||| M) ||| A ||| B ||| M = P ||| ((M ||| M) ||| (A ||| B ||| L)) := by ac_rfl
      rw [h, BitVec.or_self]
    rw [flagsOf_cons, hchange, ← hgather, hlast, hy, hx, State.stateFlags_congr hfpx, State.stateFlags_congr hfpx]
  have hmet (m : Meter) := (hmeter m).trans (by rw [(hcal m).1, (hcal m).2, (hxcal m).1, (hxcal m).2])
  refine ⟨hmet, hfp, hport, ?_⟩
  have hwhole : t = { s with
      store := s.store.loaded image, halt := { s.halt with reload := false }
      pw := { s.pw with phase := .display, decoding := true, totalsInvalid := true }
      disp := { s.disp with rail := true, awaitHigh := true, settle := some 100, step := .settling }
      ret := s.ret.initialized, rtc := 0, met := t.met, fp := t.fp, price := ⟨none⟩, port := t.port, rev := t.rev } := by
    rw [hshow, hframe, hxframe]
  exact congrArg (fun z : State => ({ z with rev := nextRevisions s t } : State)) hwhole

end loading

theorem StorePort.loaded_present {image : List Host.Cell} (x : StorePort) (h0 : (Memory.ofCells 1156 image).read 0 ≠ 0)
    (hff : (Memory.ofCells 1156 image).read 0 ≠ 0xFF) : x.loaded image = { x with
      copy := some (Memory.ofCells 1154 image), refCrc := BitVec.ofNat 16 ((Memory.ofCells 1156 image).field 1154 2), absent := false
      fault := decide ((crc16 ((Memory.ofCells 1154 image).readAll 0 1154)).toNat ≠ (Memory.ofCells 1156 image).field 1154 2)
      mirror := logEntries (Memory.ofCells 1154 image), logFull := decide (32 ≤ logCount (Memory.ofCells 1154 image)), check := some 10000 } := by
  rw [StorePort.loaded, x.load_present h0 hff]

/-- With nothing to finalize and no set pending retention memory stands (R26, R87). -/
theorem State.LoadsIntact.whole {s t : State} {image : List Host.Cell} {levels : Sides (Three LevelPair)} (h : s.LoadsIntact t s image levels)
    (hp : s.ret.pendingSet = none) (hc : ∀ d, (s.sale d).cutShort = false) :
    t.ret = s.ret ∧ (∀ d, t.fpState d = (s.ret.sides.get d).wakes)
      ∧ t.port = { s.port with attn := s.port.attn ||| flagsOf (.power :: s.changeFlags t) }
      ∧ t = { s with store := t.store, halt := t.halt, pw := t.pw, disp := t.disp, ret := t.ret, met := t.met, fp := t.fp
                     price := t.price, port := t.port, rev := t.rev } := by
  have hstands (d : Side) := RetSide.finalized_whole (r := s.ret.sides.get d) (hc d) s.rtc
  have hflags (d : Side) : finalFlags d (s.ret.sides.get d) = [] := if_neg fun h => by
    have := hc d
    rw [State.sale, h] at this
    cases this
  have harea : ({ s.ret.pendingArea with present := false } : SetArea) = s.ret.pendingArea := by rw [← State.pendingSet_none hp]
  have hvlv : t.vlv = s.vlv := by
    have hside (d : Side) : t.vlv.get d = s.vlv.get d := by
      rw [h.vlv d, hc d, Bool.not_false, Bool.and_true]
    exact congrArg₂ Sides.mk (hside .a) (hside .b)
  refine ⟨?_, fun d => ?_, ?_, ?_⟩
  · rw [h.ret, h.stands hp, hp, harea, show s.ret.sides.a.finalized s.rtc = _ from hstands .a, show s.ret.sides.b.finalized s.rtc = _ from hstands .b]
    rfl
  · rw [State.fpState, h.fp d, FuelPoint.finalized_state, hstands d]
  · have := h.port
    rw [show finalFlags .a s.ret.sides.a = [] from hflags .a, show finalFlags .b s.ret.sides.b = [] from hflags .b] at this
    exact this
  · have := h.frame
    rw [hvlv, h.mem] at this
    exact this

/-- Settles O51. -/
theorem theStorePhaseLoadsAndDecodes : Obligations.TheStorePhaseLoadsAndDecodes := by
  unfold Obligations.TheStorePhaseLoadsAndDecodes
  intro s image levels hs hw hp whole body intact loaded counting railOn h0 hff
  have he := s.exec_storeLoadDone (image := image) (levels := levels) hs hw hp
  have hstill {d : Side} (h : (s.sale d).status ≠ .opened ∧ (s.sale d).status ≠ .interrupted) : (s.sale d).cutShort = false :=
    Bool.eq_false_iff.mpr fun hc => ((s.sale d).cutShort_iff.mp hc).elim h.1 h.2
  have hloaded : s.store.loaded image = loaded := s.store.loaded_present h0 hff
  refine ⟨fun _ hwhole => ?_, fun hi hh => ?_⟩
  · refine ⟨_, he, ?_⟩
    cases hi : s.ret.intact
    · have hl := State.loadsEmptied (levels := levels) hw h0 hff hi
      generalize publish s (((s.retaining image).retentionPhase).displayed levels) = t at hl ⊢
      obtain ⟨hmeters, hfp, hport, hframe⟩ := hl
      have hstore : t.store = s.store.loaded image := by rw [hframe]
      refine ⟨hstore.trans hloaded, by rw [hframe], ?_, by rw [hframe], ?_, ?_, hmeters, fun d => ?_, hport, ?_⟩
      · simp only [intact, hi]
        rw [hframe]
        rfl
      · simp only [intact, hi]
        rw [hframe]
        rfl
      · simp only [intact, hi]
        rw [hframe]
        rfl
      · simp only [intact, hi]
        exact hfp d
      · rw [hframe]
    · obtain ⟨hpend, hstatus⟩ := hwhole hi
      have hl := State.loadsIntact (levels := levels) hw h0 hff hi (.inr ⟨fun d => hstill (hstatus d), hpend⟩)
      have htold : s.retainedTold = s := by
        unfold State.retainedTold
        rw [hpend]
      rw [htold] at hl
      generalize publish s (((s.retaining image).retentionPhase).displayed levels) = t at hl ⊢
      obtain ⟨hret, hfp, hport, hframe⟩ := hl.whole hpend fun d => hstill (hstatus d)
      have hrtc : t.rtc = s.rtc := by rw [hl.frame]
      have hlast : t = { s with store := t.store, halt := t.halt, pw := t.pw, disp := t.disp, ret := t.ret, rtc := t.rtc, met := t.met, fp := t.fp
                                price := t.price, port := t.port, rev := t.rev } := by
        rw [hrtc, hret]
        rw [hret] at hframe
        exact hframe
      have hpw := hl.pw
      simp only [intact, hi]
      exact ⟨hl.store.trans hloaded, hl.halt, hpw, hl.disp, hret, hrtc, hl.meters, hfp, hport, hlast⟩
  · intro told
    have htold : told = s.retainedTold := by
      unfold State.retainedTold
      simp only [told]
      cases s.ret.pendingSet <;> cases s.price.order <;> rfl
    have hl := State.loadsIntact (levels := levels) hw h0 hff hi (.inl hh)
    refine ⟨_, he, ?_⟩
    generalize publish s (((s.retaining image).retentionPhase).displayed levels) = t at hl ⊢
    have hsides (d : Side) : t.ret.sides.get d = (s.ret.sides.get d).finalized s.rtc := by
      rw [hl.ret]
      cases d <;> rfl
    have hfp (d : Side) := hl.fp d
    simp only [← hsides] at hfp
    have hret : t.ret = _ := hl.ret
    refine ⟨hl.store.trans hloaded, hl.halt, hl.disp, hl.meters, hl.pw, ?_, hfp, hl.vlv, hl.price, htold ▸ hl.mem, htold ▸ hl.port, hl.frame⟩
    cases hp : s.ret.pendingSet with
    | none => rw [hret, hl.stands hp, hp]
    | some p => rw [hret, hl.applied p hp, hp]

end Sys2Proof.Machine
end

section
/-! PROOFS. Attention flags over several changes in turn (R2, R102, R117). -/

namespace Sys2Proof.Machine

/-- The flag of a reader's state between two states (R117). -/
def State.readerFlags (s t : State) (d : Side) : List Attn := if (s.rdr.get d).state = (t.rdr.get d).state then [] else [readerFlag d]

/-- DISPLAY, where a head's state differs between two states (R102). -/
def State.headFlags (s t : State) : List Attn :=
  if allRoles.all (fun r => decide ((s.head r).state = (t.head r).state)) then [] else [.display]

section split
variable {s t u : State}

theorem State.changeFlags_split : flagsOf (s.changeFlags t) = flagsOf (s.stateFlags .a (t.fpState .a)) ||| flagsOf (s.stateFlags .b (t.fpState .b))
    ||| flagsOf (s.readerFlags t .a) ||| flagsOf (s.readerFlags t .b) ||| flagsOf (s.headFlags t) ||| flagsOf (s.store.changeFlags t.store) := by
  unfold State.changeFlags State.stateFlags State.readerFlags State.headFlags StorePort.changeFlags
  simp only [flagsOf_append]
  rw [flagsOf_or]
  ac_rfl

theorem flagsOf_nil_or (w : Word16) : flagsOf [] ||| w = w := BitVec.zero_or

theorem State.stateFlags_same (s : State) (d : Side) : s.stateFlags d (s.fpState d) = [] := by
  rw [State.stateFlags, if_pos rfl, if_neg fun h => h.2 h.1]
  rfl

theorem State.stateFlags_compose {d : Side} (h : t.fpState d = s.fpState d ∨ u.fpState d = t.fpState d) :
    flagsOf (s.stateFlags d (t.fpState d)) ||| flagsOf (t.stateFlags d (u.fpState d)) = flagsOf (s.stateFlags d (u.fpState d)) := by
  rcases h with h | h
  · rw [h, State.stateFlags_same, flagsOf_nil_or, State.stateFlags, h]
    rfl
  · rw [h, State.stateFlags_same, or_flagsOf_nil]

theorem State.readerFlags_compose {d : Side} (h : (t.rdr.get d).state = (s.rdr.get d).state ∨ (u.rdr.get d).state = (t.rdr.get d).state) :
    flagsOf (s.readerFlags t d) ||| flagsOf (t.readerFlags u d) = flagsOf (s.readerFlags u d) := by
  unfold State.readerFlags
  rcases h with h | h
  · rw [h, if_pos rfl, flagsOf_nil_or]
  · rw [h, if_pos rfl, or_flagsOf_nil]

theorem State.headFlags_eq_nil : s.headFlags t = [] ↔ ∀ r, (s.head r).state = (t.head r).state := by
  have hmem (r : Role) : r ∈ allRoles := by cases r <;> decide
  unfold State.headFlags
  by_cases h : allRoles.all (fun r => decide ((s.head r).state = (t.head r).state)) = true
  · rw [if_pos h]
    exact ⟨fun _ r => of_decide_eq_true (List.all_eq_true.mp h r (hmem r)), fun _ => rfl⟩
  · rw [if_neg h]
    exact ⟨nofun, fun hc => absurd (List.all_eq_true.mpr fun r _ => decide_eq_true (hc r)) h⟩

theorem State.headFlags_cases (s t : State) : s.headFlags t = [] ∨ s.headFlags t = [.display] := by
  unfold State.headFlags
  split
  · exact .inl rfl
  · exact .inr rfl

theorem State.headFlags_compose (h : ∀ r, (t.head r).state = (s.head r).state ∨ (u.head r).state = (t.head r).state) :
    flagsOf (s.headFlags t) ||| flagsOf (t.headFlags u) = flagsOf (s.headFlags u) := by
  have hiff : s.headFlags u = [] ↔ s.headFlags t = [] ∧ t.headFlags u = [] := by
    simp only [State.headFlags_eq_nil]
    refine ⟨fun hsu => ⟨fun r => ?_, fun r => ?_⟩, fun hst r => (hst.1 r).trans (hst.2 r)⟩
    · exact (h r).elim Eq.symm fun hr => (hsu r).trans hr
    · exact (h r).elim (fun hr => hr.trans (hsu r)) Eq.symm
  rcases s.headFlags_cases t with ha | ha <;> rcases t.headFlags_cases u with hb | hb <;> rcases s.headFlags_cases u with hc | hc <;>
    simp [ha, hb, hc] at hiff ⊢

/-- Changes in turn, each component moving at most once, leave the flags of the change as a whole. -/
theorem State.changeFlags_compose (hfp : ∀ d, t.fpState d = s.fpState d ∨ u.fpState d = t.fpState d)
    (hr : ∀ d, (t.rdr.get d).state = (s.rdr.get d).state ∨ (u.rdr.get d).state = (t.rdr.get d).state)
    (hh : ∀ r, (t.head r).state = (s.head r).state ∨ (u.head r).state = (t.head r).state) (hst : t.store = s.store ∨ u.store = t.store) :
    flagsOf (s.changeFlags t) ||| flagsOf (t.changeFlags u) = flagsOf (s.changeFlags u) := by
  have hstore : flagsOf (s.store.changeFlags t.store) ||| flagsOf (t.store.changeFlags u.store) = flagsOf (s.store.changeFlags u.store) := by
    have hsame (x : StorePort) : x.changeFlags x = [] := if_pos (by simp)
    rcases hst with h | h
    · rw [h, hsame, flagsOf_nil_or]
    · rw [h, hsame, or_flagsOf_nil]
  rw [State.changeFlags_split, State.changeFlags_split, State.changeFlags_split, ← State.stateFlags_compose (hfp .a),
    ← State.stateFlags_compose (hfp .b), ← State.readerFlags_compose (hr .a), ← State.readerFlags_compose (hr .b), ← State.headFlags_compose hh,
    ← hstore]
  ac_rfl

/-- The flags set between `s` and `t` are those of what changed. -/
def State.Flagged (s t : State) : Prop := t.port.attn = s.port.attn ||| flagsOf (s.changeFlags t)

theorem State.Flagged.trans (h : s.Flagged t) (g : t.Flagged u) (hfp : ∀ d, t.fpState d = s.fpState d ∨ u.fpState d = t.fpState d)
    (hr : ∀ d, (t.rdr.get d).state = (s.rdr.get d).state ∨ (u.rdr.get d).state = (t.rdr.get d).state)
    (hh : ∀ r, (t.head r).state = (s.head r).state ∨ (u.head r).state = (t.head r).state) (hst : t.store = s.store ∨ u.store = t.store) :
    s.Flagged u := by
  rw [State.Flagged, g, h, BitVec.or_assoc, State.changeFlags_compose hfp hr hh hst]

/-- Nothing that a flag stands for changes. -/
theorem State.Flagged.still (hfp : ∀ d, t.fpState d = s.fpState d) (hr : ∀ d, (t.rdr.get d).state = (s.rdr.get d).state)
    (hh : ∀ r, (t.head r).state = (s.head r).state) (hst : t.store = s.store) (hp : t.port.attn = s.port.attn) : s.Flagged t := by
  rw [State.Flagged, hp, State.changeFlags_fps (fun d => (hr d).symm) (fun r => (hh r).symm) hst, hfp, hfp, State.stateFlags_same,
    State.stateFlags_same, flagsOf_nil_or, or_flagsOf_nil]

end split

end Sys2Proof.Machine
end

section
/-! PROOFS. The address map read anew (R91, R102, R106, R116). -/

namespace Sys2Proof.Machine

theorem FpState.inSale_of_endable {st : FpState} (h : st.endable = true) : st.inSale = true := by
  cases st <;> first | rfl | cases h

theorem State.Reviews.flagged {s t : State} {d : Side} (h : s.Reviews t d) : s.Flagged t := by
  obtain ⟨hframe, hport, hother⟩ := h
  have hflags : flagsOf (s.stateFlags .a (t.fpState .a)) ||| flagsOf (s.stateFlags .b (t.fpState .b)) = flagsOf (s.stateFlags d (t.fpState d)) := by
    have hsame : s.stateFlags d.other (t.fpState d.other) = [] := by
      rw [show t.fpState d.other = s.fpState d.other from congrArg FuelPoint.state hother, State.stateFlags_same]
    cases d
    · exact (congrArg (fun l => _ ||| flagsOf l) hsame).trans (or_flagsOf_nil _)
    · exact (congrArg (fun l => flagsOf l ||| _) hsame).trans (flagsOf_nil_or _)
  rw [State.Flagged, State.changeFlags_fps (fun _ => by rw [hframe]) (fun _ => by rw [hframe]; rfl) (by rw [hframe]), hflags, hport]

/-- Without its display a side stays as it is or becomes UNAVAILABLE (R1, R3, R4). -/
theorem State.reviewFp_dark {s : State} {d : Side} (h : (s.head (saleRole d)).state ≠ .ready) :
    (s.reviewFp d).fp.get d = s.fp.get d ∨ (s.reviewFp d).fpState d = .unavailable := by
  have hf : s.fuelable d = false := by simp [State.fuelable, State.meets, h]
  have hset (x : State) : (x.setFpState d .unavailable).fpState d = .unavailable := by
    rw [State.fpState, State.setFpState_frame, Sides.get_set_same]
  unfold State.reviewFp
  rw [hf]
  cases s.fpState d with
  | idle | calling | finished | authorized => exact .inr (hset _)
  | _ => exact .inl rfl

/-- Between `x` and `y` heads of the roles `rs` changed, which the sides heard of; no side is lit that was not. -/
structure State.HeadsMoved (x y : State) (rs : Role → Prop) : Prop where
  frame : y = { x with fp := y.fp, met := y.met, disp := y.disp, port := { x.port with attn := y.port.attn } }
  flagged : x.Flagged y
  heads : ∀ q, ¬ rs q → y.head q = x.head q
  lines : y.disp.lines = x.disp.lines
  fp : ∀ d, y.fp.get d = x.fp.get d ∨ rs (saleRole d) ∧ y.fpState d = .unavailable ∧ (y.head (saleRole d)).state ≠ .ready

section moved
variable {x y z u : State} {rs qs : Role → Prop} {r : Role}

theorem State.HeadsMoved.refl (x : State) : x.HeadsMoved x rs :=
  ⟨rfl, .still (fun _ => rfl) (fun _ => rfl) (fun _ => rfl) rfl rfl, fun _ _ => rfl, rfl, fun _ => .inl rfl⟩

theorem State.HeadsMoved.unsold (h : x.HeadsMoved y rs) (hn : ∀ d, x.inSale d = false) (d : Side) : y.inSale d = false := by
  rcases h.fp d with hd | ⟨-, hd, -⟩
  · exact (congrArg (fun f : FuelPoint => f.state.inSale) hd).trans (hn d)
  · rw [State.inSale, hd]
    rfl

/-- Heads of other roles, in turn. -/
theorem State.HeadsMoved.trans (h : x.HeadsMoved y rs) (g : y.HeadsMoved z qs) (hdis : ∀ q, rs q → ¬ qs q) :
    x.HeadsMoved z (fun q => rs q ∨ qs q) := by
  have hfp (d : Side) : y.fp.get d = x.fp.get d ∨ z.fp.get d = y.fp.get d := by
    rcases h.fp d with hd | ⟨hrs, -⟩
    · exact .inl hd
    · exact (g.fp d).elim .inr fun hq => absurd hq.1 (hdis _ hrs)
  refine ⟨?_, h.flagged.trans g.flagged (fun d => ?_) (fun _ => .inl (by rw [h.frame])) (fun q => ?_) (.inl (by rw [h.frame])), fun q hq => ?_,
    g.lines.trans h.lines, fun d => ?_⟩
  · have hz := g.frame
    have hy := h.frame
    generalize z.fp = fp, z.met = met, z.disp = disp, z.port.attn = attn at hz ⊢
    generalize y.fp = fp', y.met = met', y.disp = disp', y.port.attn = attn' at hy
    rw [hz, hy]
  · exact (hfp d).imp (congrArg FuelPoint.state) (congrArg FuelPoint.state)
  · by_cases hq : rs q
    · exact .inr (congrArg Head.state (g.heads q (hdis q hq)))
    · exact .inl (congrArg Head.state (h.heads q hq))
  · exact (g.heads q fun hc => hq (.inr hc)).trans (h.heads q fun hc => hq (.inl hc))
  · rcases g.fp d with hd | ⟨hqs, hd⟩
    · rcases h.fp d with hd' | ⟨hrs, hst, hdark⟩
      · exact .inl (hd.trans hd')
      · refine .inr ⟨.inl hrs, (congrArg FuelPoint.state hd).trans hst, ?_⟩
        rw [g.heads _ (hdis _ hrs)]
        exact hdark
    · exact .inr ⟨.inr hqs, hd⟩

/-- The report of a head that is not READY now, no sale being in progress and no message in flight. -/
theorem State.headChanged_moved (hu : u = { x with disp := u.disp }) (hheads : ∀ q, q ≠ r → u.head q = x.head q)
    (hlines : u.disp.lines = x.disp.lines) (hdark : (u.head r).state ≠ .ready) (ho : ∀ d, (x.disp.lines.get d).order = none)
    (hn : ∀ d, x.inSale d = false) : x.HeadsMoved (u.headChanged r (x.head r).state) (fun q => q = r) := by
  have hfps : u.fp = x.fp := by rw [hu]
  by_cases hst : (u.head r).state = (x.head r).state
  · have hall (q : Role) : (u.head q).state = (x.head q).state := by
      by_cases hq : q = r
      · rw [hq, hst]
      · rw [hheads q hq]
    rw [State.headChanged, if_pos hst]
    refine ⟨?_, .still (fun _ => by rw [hu]; rfl) (fun _ => by rw [hu]) hall (by rw [hu]) (by rw [hu]), hheads, hlines, fun d => .inl (by rw [hfps])⟩
    rw [hu]
  · obtain ⟨t, ht⟩ : ∃ t, t = u.attn .display := ⟨_, rfl⟩
    have htframe : t = { x with disp := u.disp, port := { x.port with attn := x.port.attn ||| Attn.display.mask } } := by
      rw [ht, hu]
      rfl
    have hthead (q : Role) : t.head q = u.head q := by rw [htframe]; rfl
    have hmoved : x.HeadsMoved t (fun q => q = r) := by
      have hflags : flagsOf (x.changeFlags t) = Attn.display.mask := by
        have hd : x.headFlags t = [.display] := (x.headFlags_cases t).resolve_left fun hc => hst (by
          rw [← hthead]
          exact (State.headFlags_eq_nil.mp hc r).symm)
        have hsame (d : Side) : x.stateFlags d (t.fpState d) = [] := by
          rw [show t.fpState d = x.fpState d by rw [htframe]; rfl, State.stateFlags_same]
        have hrdr (d : Side) : x.readerFlags t d = [] := if_pos (by rw [htframe])
        have hstore : x.store.changeFlags t.store = [] := if_pos (by rw [htframe]; simp)
        rw [State.changeFlags_split, hsame, hsame, hrdr, hrdr, hd, hstore]
        decide
      refine ⟨?_, ?_, fun q hq => (hthead q).trans (hheads q hq), by rw [htframe, hlines], fun d => .inl (by rw [htframe])⟩
      · rw [htframe]
      · rw [State.Flagged, hflags, htframe]
    rw [State.headChanged, if_neg hst, ← ht]
    cases hside : sideOfSale r with
    | none => exact hmoved
    | some d =>
      have hr : r = saleRole d := by
        cases r <;> cases hside <;> rfl
      have hdown : (if (x.head r).state = .ready then t.messageDown d r else t) = t := by
        split
        · exact State.messageDown_none (by rw [htframe, hlines]; exact ho d) r
        · rfl
      have hend : ¬ (t.fpState d).endable = true := fun hc => by
        have hsale := FpState.inSale_of_endable hc
        rw [show (t.fpState d).inSale = false from hmoved.unsold hn d] at hsale
        cases hsale
      have hdown' : t.headReport d = t.reviewFp d := by rw [State.headReport, if_neg hend]
      dsimp only
      rw [hdown, hdown']
      have hrev := t.reviewFp_reviews d
      have hdark' : (t.head (saleRole d)).state ≠ .ready := by rw [← hr, hthead]; exact hdark
      have hlit := State.reviewFp_dark hdark'
      generalize t.reviewFp d = v at hrev hlit ⊢
      have hvhead (q : Role) : v.head q = t.head q := by rw [hrev.frame]; rfl
      have hflag := hrev.flagged
      obtain ⟨hframe, hport, hother⟩ := hrev
      have hvframe : v = { t with fp := v.fp, met := v.met, port := { t.port with attn := v.port.attn } } := hframe.trans (by rw [hport])
      refine ⟨?_, hmoved.flagged.trans hflag (fun _ => .inl (by rw [htframe]; rfl)) (fun _ => .inl (by rw [htframe]))
        (fun q => .inr (by rw [hvhead])) (.inl (by rw [htframe])), fun q hq => ?_, ?_, fun e => ?_⟩
      · generalize v.fp = fp, v.met = met, v.port.attn = attn at hvframe
        rw [hvframe, htframe]
      · rw [hvhead, hthead, hheads q hq]
      · rw [hframe, htframe, hlines]
      · by_cases he : e = d
        · rw [he]
          refine hlit.imp (fun hd => hd.trans (by rw [htframe])) fun hd => ⟨hr.symm, hd, ?_⟩
          rw [hvhead]
          exact hdark'
        · have heo : e = d.other := by cases e <;> cases d <;> first | rfl | exact absurd rfl he
          rw [heo, hother, htframe]
          exact .inl rfl

end moved

end Sys2Proof.Machine
end

section
/-! PROOFS. The settings read anew by the display controller and the readers (R116, R118). -/

namespace Sys2Proof.Machine

/-! ## The map -/

theorem Display.enqueue_frame (x : Display) (r : Role) (k : FrameKind) :
    x.enqueue r k = { x with queue := (x.enqueue r k).queue, nextAge := (x.enqueue r k).nextAge } := by
  unfold Display.enqueue
  split <;> rfl

theorem Display.purge_heads (x : Display) (r : Role) (gone : FrameKind → Bool) : (x.purge r gone).heads = x.heads := by rw [Display.purge_frame]

theorem Display.purge_lines (x : Display) (r : Role) (gone : FrameKind → Bool) : (x.purge r gone).lines = x.lines := by rw [Display.purge_frame]

section map
variable {x y : State} {r : Role} (ho : ∀ d, (x.disp.lines.get d).order = none) (hn : ∀ d, x.inSale d = false)
include ho hn

theorem State.configureHead_moved : x.HeadsMoved (x.configureHead r) (fun q => q = r) := by
  obtain ⟨u, hu⟩ : ∃ u, u = ((x.updHead r (fun h => { Head.unconfigured h.lastDone with
    addr := (x.mapEntry r).1, source := (x.mapEntry r).2, state := .probing })).updDisp
      (fun x => (x.purge r FrameKind.content).enqueue r .probe)) := ⟨_, rfl⟩
  have hheads (q : Role) : u.head q = (x.updHead r (fun h => { Head.unconfigured h.lastDone with
      addr := (x.mapEntry r).1, source := (x.mapEntry r).2, state := .probing })).head q := by
    rw [hu, State.head, State.updDisp, Display.enqueue_frame]
    exact congrArg (fun h => h.get q) (Display.purge_heads ..)
  have heq : x.configureHead r = u.headChanged r (x.head r).state := by rw [hu]; rfl
  rw [heq]
  refine State.headChanged_moved (by rw [hu]; rfl) (fun q hq => by rw [hheads, State.updHead_head_ne _ _ hq]) ?_ ?_ ho hn
  · rw [hu, State.updDisp, Display.enqueue_frame]
    exact Display.purge_lines ..
  · rw [hheads, State.updHead_head]
    nofun

theorem State.removeHead_moved : x.HeadsMoved (x.removeHead r) (fun q => q = r) := by
  obtain ⟨u, hu⟩ : ∃ u, u = (x.updHead r (fun h => Head.unconfigured h.lastDone)).updDisp (fun x => x.purge r (fun _ => true)) := ⟨_, rfl⟩
  have hheads (q : Role) : u.head q = (x.updHead r (fun h => Head.unconfigured h.lastDone)).head q := by
    rw [hu, State.head, State.updDisp]
    exact congrArg (fun h => h.get q) (Display.purge_heads ..)
  have heq : x.removeHead r = u.headChanged r (x.head r).state := by rw [hu]; rfl
  rw [heq]
  refine State.headChanged_moved (by rw [hu]; rfl) (fun q hq => by rw [hheads, State.updHead_head_ne _ _ hq]) ?_ ?_ ho hn
  · rw [hu]
    exact Display.purge_lines ..
  · rw [hheads, State.updHead_head]
    nofun

theorem State.mapHead_moved (r : Role) : x.HeadsMoved (x.mapHead r) (fun q => q = r) := by
  unfold State.mapHead
  dsimp only
  split
  · split
    · exact .refl x
    · exact State.configureHead_moved ho hn
  · split
    · exact .refl x
    · exact State.removeHead_moved ho hn

end map

theorem State.mapHeads_moved (rs : List Role) (hnd : rs.Nodup) {x : State} (ho : ∀ d, (x.disp.lines.get d).order = none)
    (hn : ∀ d, x.inSale d = false) : x.HeadsMoved (rs.foldl State.mapHead x) (fun q => q ∈ rs) := by
  induction rs generalizing x with
  | nil => exact .refl x
  | cons r rest ih =>
    obtain ⟨hr, hrest⟩ := List.nodup_cons.mp hnd
    have hone := State.mapHead_moved ho hn r
    have hmore := ih hrest (x := x.mapHead r) (fun d => by rw [hone.lines]; exact ho d) (hone.unsold hn)
    have hboth := hone.trans hmore fun q hq => hq ▸ hr
    simp only [← List.mem_cons] at hboth
    exact hboth

theorem Display.askCall_frame (x : Display) (c : Option GeneralCall) : ({ x with call := c } : Display).tryCall = { x with
    call := ({ x with call := c } : Display).tryCall.call, bus := ({ x with call := c } : Display).tryCall.bus
    wire := ({ x with call := c } : Display).tryCall.wire } := Display.tryCall_frame _

theorem State.checkProbing_disp (x : State) : x.checkProbing = { x with disp := x.checkProbing.disp }
    ∧ x.checkProbing.disp.heads = x.disp.heads ∧ x.checkProbing.disp.lines = x.disp.lines := by
  unfold State.checkProbing
  split
  · unfold State.askCall State.updDisp
    refine ⟨rfl, ?_, ?_⟩ <;> dsimp only <;> rw [Display.askCall_frame]
  · exact ⟨rfl, rfl, rfl⟩

/-- A change of the display that leaves heads and lines. -/
theorem State.HeadsMoved.redisplayed {x y z : State} {rs : Role → Prop} (h : x.HeadsMoved y rs) (hz : z = { y with disp := z.disp })
    (hh : z.disp.heads = y.disp.heads) (hl : z.disp.lines = y.disp.lines) : x.HeadsMoved z rs := by
  have hhead (r : Role) : z.head r = y.head r := congrArg (fun hs : Eight Head => hs.get r) hh
  have hstill : y.Flagged z := .still (fun _ => by rw [hz]; rfl) (fun _ => by rw [hz]) (fun r => by rw [hhead]) (by rw [hz]) (by rw [hz])
  refine ⟨?_, h.flagged.trans hstill (fun _ => .inr (by rw [hz]; rfl)) (fun _ => .inr (by rw [hz])) (fun r => .inr (by rw [hhead]))
    (.inr (by rw [hz])), fun q hq => (hhead q).trans (h.heads q hq), hl.trans h.lines, fun d => ?_⟩
  · have hy := h.frame
    generalize z.disp = disp at hz
    generalize y.fp = fp, y.met = met, y.port.attn = attn, y.disp = disp' at hy
    rw [hz, hy]
  · rw [hhead, show z.fp = y.fp by rw [hz], show z.fpState d = y.fpState d by rw [hz]; rfl]
    exact h.fp d

theorem State.rereadMap_moved {x : State} (ho : ∀ d, (x.disp.lines.get d).order = none) (hn : ∀ d, x.inSale d = false) :
    x.HeadsMoved x.rereadMap (fun _ => True) := by
  unfold State.rereadMap
  split
  · have hmap := State.mapHeads_moved allRoles (by decide) ho hn
    obtain ⟨hframe, hheads, hlines⟩ := (allRoles.foldl State.mapHead x).checkProbing_disp
    have hall := hmap.redisplayed hframe hheads hlines
    simp only [mem_allRoles] at hall
    exact hall
  · exact .refl x

/-- The price boards are asked for (R90). -/
theorem State.boards_disp (x : State) : (x.requestBoard .a).requestBoard .b = { x with disp := ((x.requestBoard .a).requestBoard .b).disp }
    ∧ ((x.requestBoard .a).requestBoard .b).disp.heads = x.disp.heads := by
  refine ⟨rfl, ?_⟩
  rw [State.requestBoard, State.updDisp, (Display.requestAll_asked ..).heads]
  exact (Display.requestAll_asked ..).heads

end Sys2Proof.Machine
end

section
/-! PROOFS. The reader fitted flags read anew (R118 to R120). -/

namespace Sys2Proof.Machine

/-- Between `y` and `z` the reader of side `d` was set anew, its fitted flag being `b`; an authorization it stood for may be withdrawn. -/
structure State.ReaderSet (y z : State) (d : Side) (b : Bool) : Prop where
  frame : z = { y with fp := z.fp, met := z.met, rdr := z.rdr, port := { y.port with attn := z.port.attn } }
  other : z.rdr.get d.other = y.rdr.get d.other
  fitted : (z.rdr.get d).fitted = b
  fp : z.fp = y.fp ∨ y.readerHolds d = true ∧ z.fp = y.fp.set d ((y.fp.get d).withdrawn y.rtc)
  flagged : y.readerHolds d = false → y.Flagged z

section readerSet
variable {y z : State} {d : Side} {b : Bool}

/-- A mark of the reader changes, its state standing. -/
theorem State.Flagged.updReader (y : State) (d : Side) {g : Reader → Reader} (hg : (g (y.rdr.get d)).state = (y.rdr.get d).state) :
    y.Flagged (y.updReader d g) := by
  refine .still (fun _ => rfl) (fun e => ?_) (fun _ => rfl) rfl rfl
  rcases Side.eq_or_other d e with rfl | rfl
  · rw [State.updReader_get, hg]
  · rw [State.updReader, Sides.get_set_other]

theorem State.readerHolds_updReader {g : Reader → Reader} (hg : (g (y.rdr.get d)).state = (y.rdr.get d).state) :
    (y.updReader d g).readerHolds d = y.readerHolds d := by
  rw [State.readerHolds, State.updReader_get, hg]
  rfl

theorem State.ReaderSet.after {g : Reader → Reader} (hg : (g (y.rdr.get d)).state = (y.rdr.get d).state) (h : (y.updReader d g).ReaderSet z d b) :
    y.ReaderSet z d b := by
  have hholds := State.readerHolds_updReader (y := y) (d := d) hg
  refine ⟨h.frame, h.other.trans (Sides.get_set_other ..), h.fitted, ?_, fun hn => ?_⟩
  · exact h.fp.imp id (And.imp_left hholds.symm.trans)
  · refine (State.Flagged.updReader y d hg).trans (h.flagged (hholds.trans hn)) (fun _ => .inl rfl) (fun e => ?_) (fun _ => .inl rfl) (.inl rfl)
    rcases Side.eq_or_other d e with rfl | rfl
    · exact .inl (by rw [State.updReader_get, hg])
    · exact .inl (by rw [State.updReader, Sides.get_set_other])

theorem State.ReaderSet.upd (h : y.ReaderSet z d b) {g : Reader → Reader} (hg : (g (z.rdr.get d)).state = (z.rdr.get d).state)
    (hb : (g (z.rdr.get d)).fitted = (z.rdr.get d).fitted) : y.ReaderSet (z.updReader d g) d b := by
  refine ⟨?_, (Sides.get_set_other ..).trans h.other, by rw [State.updReader_get, hb, h.fitted], h.fp, fun hn => ?_⟩
  · have hframe := h.frame
    generalize z.fp = fp, z.met = met, z.port.attn = attn at hframe
    rw [State.updReader, hframe]
  · refine (h.flagged hn).trans (State.Flagged.updReader z d hg) (fun _ => .inr rfl) (fun e => .inr ?_) (fun _ => .inr rfl) (.inr rfl)
    rcases Side.eq_or_other d e with rfl | rfl
    · rw [State.updReader_get, hg]
    · rw [State.updReader, Sides.get_set_other]

theorem State.ReaderSet.refl (y : State) (d : Side) : y.ReaderSet y d (y.rdr.get d).fitted :=
  ⟨rfl, rfl, rfl, .inl rfl, fun _ => .still (fun _ => rfl) (fun _ => rfl) (fun _ => rfl) rfl rfl⟩

/-- The state of a reader changes, no sale being in progress on its side (R117, R137). -/
theorem State.setReaderState_set (hn : y.inSale d = false) (st : ReaderState) : y.ReaderSet (y.setReaderState d st) d (y.rdr.get d).fitted := by
  by_cases hst : (y.rdr.get d).state = st
  · rw [State.setReaderState, if_pos hst]
    exact .refl y d
  have hend : ¬ (y.fpState d).endable = true := fun hc => by
    have hsale := FpState.inSale_of_endable hc
    rw [show (y.fpState d).inSale = false from hn] at hsale
    cases hsale
  obtain ⟨hrdr, ⟨hfp, -, -⟩, hport, hframe⟩ := State.setReaderState_moves hst fun hc => hend hc.2.1
  generalize y.setReaderState d st = z at hrdr hfp hport hframe
  have hother : z.rdr.get d.other = y.rdr.get d.other := by rw [hrdr, Sides.get_set_other]
  refine ⟨hframe.trans (by rw [hport]), hother, by rw [hrdr, Sides.get_set_same], ?_, fun hh => ?_⟩
  · rw [hfp]
    split
    · exact .inr ⟨‹_›, rfl⟩
    · exact .inl rfl
  · have hsame (e : Side) : y.stateFlags e (z.fpState e) = [] := by
      rw [State.fpState, hfp, hh]
      exact y.stateFlags_same e
    have hhead : y.headFlags z = [] := State.headFlags_eq_nil.mpr fun r => by rw [hframe]; rfl
    have hstore : y.store.changeFlags z.store = [] := if_pos (by rw [hframe]; simp)
    have hreader : y.readerFlags z d = [readerFlag d] := if_neg (by rw [hrdr, Sides.get_set_same]; exact hst)
    have hnone : y.readerFlags z d.other = [] := if_pos (by rw [hother])
    have hflags : flagsOf (y.changeFlags z) = (readerFlag d).mask := by
      rw [State.changeFlags_split, hsame, hsame, hhead, hstore]
      cases d
      · rw [hreader, show y.readerFlags z .b = [] from hnone]
        decide
      · rw [hreader, show y.readerFlags z .a = [] from hnone]
        decide
    rw [State.Flagged, hflags, hport, State.leaveFlags, hh]
    exact congrArg (y.port.attn ||| ·) (flagsOf_one _)

/-- The same with a mark of the reader written before. -/
theorem State.markReader_set (hn : y.inSale d = false) {g : Reader → Reader} (hg : (g (y.rdr.get d)).state = (y.rdr.get d).state)
    (hb : (g (y.rdr.get d)).fitted = (y.rdr.get d).fitted) (st : ReaderState) :
    y.ReaderSet ((y.updReader d g).setReaderState d st) d (y.rdr.get d).fitted := by
  have h := State.setReaderState_set (y := y.updReader d g) (d := d) hn st
  rw [State.updReader_get, hb] at h
  exact h.after hg

theorem State.powerReader_set (hn : y.inSale d = false) : y.ReaderSet (y.powerReader d) d (y.rdr.get d).fitted := by
  unfold State.powerReader
  dsimp only
  split
  · exact .refl y d
  · split
    · exact State.markReader_set hn rfl rfl .tampered
    · exact State.markReader_set hn rfl rfl .warming

theorem State.readerOffFor_set (hn : y.inSale d = false) (hs : (y.rdr.get d).sends = []) (c : OffCause) :
    y.ReaderSet (y.readerOffFor d c) d (y.rdr.get d).fitted := by
  unfold State.readerOffFor
  split
  · exact .refl y d
  · refine State.ReaderSet.upd ?_ rfl rfl
    unfold State.readerOff
    split
    · unfold State.cutReader
      rw [hs]
      exact State.markReader_set hn rfl rfl .off
    · exact State.markReader_set hn rfl rfl .off

theorem State.rereadFitted_set (hn : y.inSale d = false) (hs : (y.rdr.get d).sends = []) :
    y.ReaderSet (y.rereadFitted d) d (y.readerFitted d) := by
  have hget : (y.readFitted d).rdr.get d = { y.rdr.get d with fitted := y.readerFitted d } := State.updReader_get ..
  have hb : ((y.readFitted d).rdr.get d).fitted = y.readerFitted d := by rw [hget]
  have hread {z : State} (h : (y.readFitted d).ReaderSet z d ((y.readFitted d).rdr.get d).fitted) : y.ReaderSet z d (y.readerFitted d) := by
    rw [hb] at h
    exact h.after rfl
  unfold State.rereadFitted
  dsimp only
  split
  · exact hread (.refl _ d)
  · split
    · split
      · refine hread ?_
        have h := State.powerReader_set (y := (y.readFitted d).updReader d (fun r => { r with cycles := 0 })) (d := d) hn
        rw [State.updReader_get] at h
        exact h.after rfl
      · exact hread (.refl _ d)
    · exact hread (State.readerOffFor_set (y := y.readFitted d) hn (by rw [hget]; exact hs) _)

end readerSet

end Sys2Proof.Machine
end

section
/-! PROOFS. The users of the settings told (R116, R118, R173, R178). -/

namespace Sys2Proof.Machine

/-- Between `y` and `z` the blocks that use the settings read them anew. -/
structure State.UsersTold (y z : State) : Prop where
  frame : z = { y with fp := z.fp, met := z.met, disp := z.disp, rdr := z.rdr, port := { y.port with attn := z.port.attn } }
  fitted : ∀ d, (z.rdr.get d).fitted = y.readerFitted d
  unsold : ∀ d, z.inSale d = false
  flagged : (∀ d, y.readerHolds d = false) → y.Flagged z
  fp : (∀ d, y.readerHolds d = false) →
    ∀ d, z.fp.get d = y.fp.get d ∨ z.fpState d = .unavailable ∧ (z.head (saleRole d)).state ≠ .ready

section told
variable {x y z : State} {d : Side} {b : Bool}

theorem State.ReaderSet.unsold (h : y.ReaderSet z d b) (hn : ∀ e, y.inSale e = false) (e : Side) : z.inSale e = false := by
  rcases h.fp with hf | ⟨-, hf⟩
  · rw [State.inSale, State.fpState, hf]
    exact hn e
  · rw [State.inSale, State.fpState, hf]
    rcases Side.eq_or_other d e with rfl | rfl
    · rw [Sides.get_set_same, FuelPoint.withdrawn]
      dsimp only
      split <;> rfl
    · rw [Sides.get_set_other]
      exact hn d.other

theorem State.HeadsMoved.readerHolds {rs : Role → Prop} (h : x.HeadsMoved y rs) (hh : x.readerHolds d = false) : y.readerHolds d = false := by
  refine Bool.eq_false_iff.mpr fun hc => ?_
  obtain ⟨hr, hd, ha⟩ := State.readerHolds_iff.mp hc
  rcases h.fp d with hf | ⟨-, hf, -⟩
  · have hx : x.readerHolds d = true := State.readerHolds_iff.mpr
      ⟨by rw [h.frame] at hr; exact hr, (congrArg FuelPoint.state hf).symm.trans hd, by rw [← hf]; exact ha⟩
    rw [hh] at hx
    cases hx
  · rw [hf] at hd
    cases hd

theorem State.tellUsers_told (ho : ∀ d, (y.disp.lines.get d).order = none) (hs : ∀ d, (y.rdr.get d).sends = [])
    (hn : ∀ d, y.inSale d = false) : y.UsersTold y.tellUsers := by
  have hmap := State.rereadMap_moved ho hn
  unfold State.tellUsers
  generalize y.rereadMap = p at hmap ⊢
  have hprdr : p.rdr = y.rdr := by rw [hmap.frame]
  have hpfit (d : Side) : p.readerFitted d = y.readerFitted d := by rw [hmap.frame]; rfl
  have ha := State.rereadFitted_set (hmap.unsold hn .a) (by rw [hprdr]; exact hs .a)
  have hna := ha.unsold (hmap.unsold hn)
  generalize p.rereadFitted .a = q at ha hna ⊢
  have hb := State.rereadFitted_set (hna .b) (show (q.rdr.get .b).sends = [] by rw [show q.rdr.get .b = p.rdr.get .b from ha.other, hprdr]; exact hs .b)
  have hnb := hb.unsold hna
  generalize q.rereadFitted .b = r at hb hnb ⊢
  have hqfit (d : Side) : q.readerFitted d = p.readerFitted d := by rw [ha.frame]; rfl
  obtain ⟨hz, hheads⟩ := r.boards_disp
  generalize (r.requestBoard .a).requestBoard .b = z at hz hheads ⊢
  have hzhead (e : Role) : z.head e = p.head e := by
    rw [State.head, hheads, hb.frame, ha.frame]
    rfl
  have hqb : q.rdr.get .b = y.rdr.get .b := (show q.rdr.get .b = p.rdr.get .b from ha.other).trans (by rw [hprdr])
  have hholds (hq : q.fp = p.fp) : q.readerHolds .b = p.readerHolds .b := by
    rw [State.readerHolds, State.fpState, hq, hqb, ← hprdr]
    rfl
  have hstays (hh : ∀ d, y.readerHolds d = false) : q.fp = p.fp ∧ r.fp = q.fp := by
    have hph (d : Side) := hmap.readerHolds (hh d)
    have hq : q.fp = p.fp := ha.fp.resolve_right fun hc => by rw [hph .a] at hc; cases hc.1
    refine ⟨hq, hb.fp.resolve_right fun hc => ?_⟩
    rw [hholds hq, hph .b] at hc
    cases hc.1
  refine ⟨?_, fun d => ?_, fun d => ?_, fun hh => ?_, fun hh d => ?_⟩
  · have hr := hb.frame
    have hq := ha.frame
    have hp := hmap.frame
    generalize z.disp = disp at hz
    generalize r.fp = fp, r.met = met, r.rdr = rdr, r.port.attn = attn at hr
    generalize q.fp = fp', q.met = met', q.rdr = rdr', q.port.attn = attn' at hq
    generalize p.fp = fp'', p.met = met'', p.disp = disp', p.port.attn = attn'' at hp
    rw [hz, hr, hq, hp]
  · rw [show z.rdr = r.rdr by rw [hz]]
    cases d
    · rw [show r.rdr.get .a = q.rdr.get .a from hb.other, ha.fitted, hpfit]
    · rw [hb.fitted, hqfit, hpfit]
  · rw [hz]
    exact hnb d
  · obtain ⟨hq, hr⟩ := hstays hh
    have hph (d : Side) := hmap.readerHolds (hh d)
    have hyq : y.Flagged q := hmap.flagged.trans (ha.flagged (hph .a)) (fun _ => .inr (by rw [State.fpState, hq]; rfl))
      (fun _ => .inl (by rw [hprdr])) (fun _ => .inr (by rw [ha.frame]; rfl)) (.inl (by rw [hmap.frame]))
    have hyr : y.Flagged r := hyq.trans (hb.flagged ((hholds hq).trans (hph .b))) (fun _ => .inr (by rw [State.fpState, hr]; rfl)) (fun d => ?_)
      (fun _ => .inr (by rw [hb.frame]; rfl)) (.inl (by rw [ha.frame, hmap.frame]))
    · have hrz : r.Flagged z := .still (fun _ => by rw [hz]; rfl) (fun _ => by rw [hz]) (fun e => by rw [State.head, hheads]; rfl)
        (by rw [hz]) (by rw [hz])
      exact hyr.trans hrz (fun _ => .inr (by rw [hz]; rfl)) (fun _ => .inr (by rw [hz])) (fun e => .inr (by rw [State.head, hheads]; rfl))
        (.inr (by rw [hz]))
    · cases d
      · exact .inr (congrArg Reader.state (show r.rdr.get .a = q.rdr.get .a from hb.other))
      · exact .inl (congrArg Reader.state hqb)
  · obtain ⟨hq, hr⟩ := hstays hh
    have hfp : z.fp = p.fp := by rw [hz, hr, hq]
    rw [hzhead, State.fpState, hfp]
    exact (hmap.fp d).imp id And.right

end told

end Sys2Proof.Machine
end

section
/-! PROOFS. A reload that ends (R173). -/

namespace Sys2Proof.Machine

/-! ## A review of the sides -/

section review
variable {x : State} {d : Side}

/-- A review keeps what the attribution of a meter leaves alone. -/
theorem State.reviewFp_channel {P : Channel → Prop} (hP : ∀ c a, P c → P (c.under a)) {m : Meter} (h : P (x.meter m)) (d : Side) :
    P ((x.reviewFp d).meter m) := by
  have hset {y : State} (hy : P (y.meter m)) (st : FpState) : P ((y.setFpState d st).meter m) := by
    by_cases hst : y.fpState d = st
    · rw [State.setFpState, if_pos hst]
      exact hy
    · rw [State.setFpState_meter _ _ _ _ hst]
      split
      · exact hP _ _ hy
      · exact hy
  unfold State.reviewFp
  split
  case h_6 => exact h
  case h_5 => split <;> [exact h; exact hset (y := x.endAuth d .authWithdrawn) h _]
  case h_1 => split <;> [exact hset h _; exact h]
  all_goals split <;> [exact h; exact hset h _]

theorem State.reviewFp_unsold (h : x.inSale d = false) : (x.reviewFp d).inSale d = false := by
  have hset {y : State} {st : FpState} (hst : st.inSale = false) : (y.setFpState d st).inSale d = false := by
    rw [State.inSale, State.fpState, State.setFpState_frame, Sides.get_set_same]
    exact hst
  have hready : (x.fp.get d).readyState.inSale = false := by
    unfold FuelPoint.readyState
    split <;> rfl
  unfold State.reviewFp
  split
  case h_6 => exact h
  case h_1 => split <;> [exact hset hready; exact h]
  all_goals split <;> [exact h; exact hset rfl]

/-- A side that is UNAVAILABLE without its display stays so. -/
theorem State.reviewFp_stays_dark (h : x.fpState d = .unavailable) (hd : (x.head (saleRole d)).state ≠ .ready) : x.reviewFp d = x := by
  have hf : x.fuelable d = false := by simp [State.fuelable, State.meets, hd]
  unfold State.reviewFp
  rw [h, hf]
  rfl

/-- A review of both sides, as the flags see it. -/
theorem State.reviewBoth_flagged (x : State) : x.Flagged x.reviewBoth := by
  have ha := x.reviewFp_reviews .a
  have hb := (x.reviewFp .a).reviewFp_reviews .b
  have hfb := hb.flagged
  have hfa := ha.flagged
  rw [State.reviewBoth]
  generalize x.reviewFp .a = y at ha hb hfb hfa ⊢
  generalize y.reviewFp .b = z at hb hfb ⊢
  refine hfa.trans hfb (fun d => ?_) (fun _ => .inl (by rw [ha.frame])) (fun _ => .inl (by rw [ha.frame]; rfl)) (.inl (by rw [ha.frame]))
  cases d
  · exact .inr (congrArg FuelPoint.state (show z.fp.get .a = y.fp.get .a from hb.other))
  · exact .inl (congrArg FuelPoint.state (show y.fp.get .b = x.fp.get .b from ha.other))

theorem State.reviewBoth_stays_dark (h : x.fpState d = .unavailable) (hd : (x.head (saleRole d)).state ≠ .ready) :
    x.reviewBoth.fpState d = x.fpState d := by
  have ha := x.reviewFp_reviews .a
  have hb := (x.reviewFp .a).reviewFp_reviews .b
  cases d
  · rw [State.reviewBoth, State.reviewFp_stays_dark h hd]
    exact congrArg FuelPoint.state (x.reviewFp_reviews .b).other
  · have hsame : (x.reviewFp .a).fpState .b = x.fpState .b := congrArg FuelPoint.state ha.other
    rw [State.reviewBoth, State.reviewFp_stays_dark (x := x.reviewFp .a) (hsame.trans h) (by rw [ha.frame]; exact hd), hsame]

theorem State.reviewBoth_unsold (h : ∀ d, x.inSale d = false) (d : Side) : x.reviewBoth.inSale d = false := by
  have ha := x.reviewFp_reviews .a
  have hb := (x.reviewFp .a).reviewFp_reviews .b
  have hsame : (x.reviewFp .a).inSale .b = x.inSale .b := congrArg (fun f : FuelPoint => f.state.inSale) ha.other
  cases d
  · exact (congrArg (fun f : FuelPoint => f.state.inSale) hb.other).trans (State.reviewFp_unsold (h .a))
  · exact State.reviewFp_unsold (hsame.trans (h .b))

theorem State.evalBoth_unsold (h : ∀ d, x.inSale d = false) : x.evalBoth = x :=
  State.evalBoth_idle fun d hc => by
    have := h d
    rw [State.inSale, hc] at this
    cases this

end review

/-! ## The reload -/

section reload
variable {s : State} {image : List Host.Cell}

/-- The state in which the users of the settings are told of a reload. -/
def State.reloaded (s : State) (image : List Host.Cell) : State := (s.loadStore image).updStore (fun x => { x with reloading := false })

theorem State.takeCalibration_folds (x : State) : allMeters.foldl State.takeCalibration x = { x with met :=
    (allMeters.foldl State.takeCalibration x).met } ∧
    ∀ m, (allMeters.foldl State.takeCalibration x).meter m = { x.meter m with k := x.copyK m, cal := x.copyCal m, unAcc := 0, unV := 0 } := by
  obtain ⟨hframe, hmeter⟩ := State.foldMeters (g := fun s m c => { c with k := s.copyK m, cal := s.copyCal m, unAcc := 0, unV := 0 })
    (fun x y h => by rw [State.copyK_store h, State.copyCal_store h]) allMeters (by decide) x
  exact ⟨hframe, fun m => (hmeter m).trans (if_pos (mem_allMeters m))⟩

variable (h0 : (Memory.ofCells 1156 image).read 0 ≠ 0) (hff : (Memory.ofCells 1156 image).read 0 ≠ 0xFF)
include h0 hff

theorem State.reloaded_frame : s.reloaded image = { s with
    store := { s.store.load image with reloading := false }, halt := { s.halt with reload := false }, met := (s.reloaded image).met
    port := { s.port with attn := s.port.attn ||| flagsOf (s.store.changeFlags (s.store.load image)) } } := by
  have hframe := s.loadStore_frame image h0 hff
  unfold State.reloaded
  generalize s.loadStore image = t at hframe ⊢
  generalize t.met = met at hframe
  subst hframe
  rfl

theorem State.reloaded_flagged : s.Flagged (s.reloaded image) := by
  have hframe := s.reloaded_frame h0 hff
  generalize s.reloaded image = t at hframe
  have hsame (d : Side) : s.stateFlags d (t.fpState d) = [] := by
    rw [show t.fpState d = s.fpState d by rw [hframe]; rfl, State.stateFlags_same]
  have hstore : s.store.changeFlags t.store = s.store.changeFlags (s.store.load image) := by rw [hframe]; rfl
  rw [State.Flagged, State.changeFlags_fpsStore (fun _ => by rw [hframe]) (fun _ => by rw [hframe]; rfl), hsame, hsame, hstore, flagsOf_nil_or,
    flagsOf_nil_or, hframe]

end reload

end Sys2Proof.Machine
end

section
/-! PROOFS. The metrology switch, the periodic check and the reload (O48). -/

namespace Sys2Proof.Machine

/-! ## The end of a reload -/

/-- What a reload of a store that is present leads to, no sale being in progress, no reader holding an order and no message in flight. -/
structure State.Reloads (s t : State) (image : List Host.Cell) : Prop where
  store : t.store = { s.store.load image with reloading := false }
  halt : t.halt = { s.halt with reload := false }
  meters : ∀ m, (t.meter m).k = clampNat 200000 2000000 ((Memory.ofCells 1154 image).field (meterAddr m) 4)
    ∧ (t.meter m).cal = some (calibrationIn (Memory.ofCells 1154 image) m) ∧ (t.meter m).unAcc = 0 ∧ (t.meter m).unV = 0
  flagged : (∀ d, s.readerHolds d = false) → s.Flagged t
  frame : t = { s with
    store := t.store, halt := t.halt, fp := t.fp, met := t.met, disp := t.disp, rdr := t.rdr
    port := { s.port with attn := t.port.attn }, rev := t.rev }

section reload
variable {s : State} {image : List Host.Cell}

theorem Channel.under_takes (c : Channel) (a : Attribution) (k : Nat) (cal : Option Calibration)
    (h : c.k = k ∧ c.cal = cal ∧ c.unAcc = 0 ∧ c.unV = 0) :
    (c.under a).k = k ∧ (c.under a).cal = cal ∧ (c.under a).unAcc = 0 ∧ (c.under a).unV = 0 := by
  unfold Channel.under
  split <;> exact h

theorem State.reloadDone_reloads (h0 : (Memory.ofCells 1156 image).read 0 ≠ 0) (hff : (Memory.ofCells 1156 image).read 0 ≠ 0xFF)
    (ho : ∀ d, (s.disp.lines.get d).order = none) (hr : ∀ d, (s.rdr.get d).sends = []) (hn : ∀ d, s.inSale d = false) :
    s.Reloads (s.reloadDone image) image := by
  have hload := s.reloaded_frame h0 hff
  have hloadflag := s.reloaded_flagged h0 hff
  have heq : s.reloadDone image = ((allMeters.foldl State.takeCalibration (s.reloaded image).tellUsers).reviewBoth).evalBoth := rfl
  rw [heq]
  generalize s.reloaded image = y at hload hloadflag ⊢
  have hholds (d : Side) : y.readerHolds d = s.readerHolds d := by rw [hload]; rfl
  have hyfp (d : Side) : y.fpState d = s.fpState d := by rw [hload]; rfl
  have htold := State.tellUsers_told (y := y) (fun d => by rw [hload]; exact ho d) (fun d => by rw [hload]; exact hr d)
    (fun d => by rw [hload]; exact hn d)
  generalize y.tellUsers = u at htold ⊢
  obtain ⟨hcal, hmeter⟩ := u.takeCalibration_folds
  generalize allMeters.foldl State.takeCalibration u = v at hcal hmeter ⊢
  have hvsold (d : Side) : v.inSale d = false := by rw [hcal]; exact htold.unsold d
  have hrev := v.reviewBoth_reviews
  have hrevflag := v.reviewBoth_flagged
  have hdark {d : Side} := State.reviewBoth_stays_dark (x := v) (d := d)
  have hcopy : u.store.copy = some (Memory.ofCells 1154 image) := by rw [htold.frame, hload, s.store.load_present h0 hff]
  have htakes (m : Meter) : (v.meter m).k = clampNat 200000 2000000 ((Memory.ofCells 1154 image).field (meterAddr m) 4)
      ∧ (v.meter m).cal = some (calibrationIn (Memory.ofCells 1154 image) m) ∧ (v.meter m).unAcc = 0 ∧ (v.meter m).unV = 0 := by
    rw [hmeter, State.copyK_clamped hcopy, State.copyCal_of hcopy]
    exact ⟨rfl, rfl, rfl, rfl⟩
  have hkeep (m : Meter) := State.reviewFp_channel (fun c a => c.under_takes a _ _) (State.reviewFp_channel (fun c a => c.under_takes a _ _)
    (htakes m) .a) .b
  rw [State.evalBoth_unsold (State.reviewBoth_unsold hvsold)]
  rw [← State.reviewBoth] at hkeep
  generalize v.reviewBoth = t at hrev hrevflag hdark hkeep ⊢
  have hthead (r : Role) : t.head r = u.head r := by rw [hrev.frame, hcal]; rfl
  have htrdr : t.rdr = u.rdr := by rw [hrev.frame, hcal]
  refine ⟨by rw [hrev.frame, hcal, htold.frame, hload], by rw [hrev.frame, hcal, htold.frame, hload], hkeep, fun hh => ?_, ?_⟩
  · have hy : ∀ d, y.readerHolds d = false := fun d => (hholds d).trans (hh d)
    have huv : u.Flagged v := .still (fun _ => by rw [hcal]; rfl) (fun _ => by rw [hcal]) (fun _ => by rw [hcal]; rfl) (by rw [hcal]) (by rw [hcal])
    have hyv : y.Flagged v := (htold.flagged hy).trans huv (fun _ => .inr (by rw [hcal]; rfl)) (fun _ => .inr (by rw [hcal]))
      (fun _ => .inr (by rw [hcal]; rfl)) (.inr (by rw [hcal]))
    have hyt : y.Flagged t := hyv.trans hrevflag (fun d => ?_) (fun _ => .inr (by rw [hrev.frame])) (fun _ => .inr (by rw [hrev.frame]; rfl))
      (.inr (by rw [hrev.frame]))
    · exact hloadflag.trans hyt (fun d => .inl (hyfp d)) (fun _ => .inl (by rw [hload])) (fun _ => .inl (by rw [hload]; rfl))
        (.inr (by rw [hrev.frame, hcal, htold.frame]))
    · have hvfp : v.fp = u.fp := by rw [hcal]
      rcases htold.fp hy d with hd | ⟨hd, hoff⟩
      · refine .inl ?_
        rw [State.fpState, hvfp, hd]
        rfl
      · exact .inr (hdark (by rw [State.fpState, hvfp]; exact hd) (by rw [hcal]; exact hoff))
  · have htf := hrev.frame
    have hport : t.port = { v.port with attn := t.port.attn } := by rw [hrev.port]
    rw [hport] at htf
    have huf := htold.frame
    generalize t.fp = fp, t.met = met, t.port.attn = attn at htf
    generalize v.met = met' at hcal
    generalize u.fp = fp', u.met = met', u.disp = disp', u.rdr = rdr', u.port.attn = attn' at huf
    generalize y.met = met'' at hload
    rw [htf, hcal, huf, hload]

end reload

end Sys2Proof.Machine
end

section
/-! PROOFS. The metrology switch, the periodic check and the reload (R142 to R144, R172 to R175; O48). -/

namespace Sys2Proof.Machine

section switch
variable {s : State}

theorem exec_metrologySwitchChange (hs : s.steady) (on : Bool) : exec (.metrologySwitchChange on) s = .next (publish s
    (if s.store.switchOn = on then s else (s.updStore (fun x => { x with switchOn := on })).attn .metrology)) :=
  event_steady (f := fun s => if s.store.switchOn = on then s else (s.updStore (fun x => { x with switchOn := on })).attn .metrology) hs

theorem exec_checkTimerExpiry (hs : s.steady) (stored : Word16) :
    exec (.checkTimerExpiry stored) s = .next (publish s (s.checkExpiry stored)) := event_steady (f := fun s => s.checkExpiry stored) hs

theorem exec_reloadStart (hs : s.steady) : exec .reloadStart s = .next (publish s
    (if s.store.reloadDue = true ∧ s.store.list = [] ∧ s.anySale = false ∧ s.storeAwake = true then
      s.updStore (fun x => { x with reloadDue := false, reloading := true }) else s)) := event_steady hs

theorem exec_reloadDone (hs : s.steady) {image : List Host.Cell} (h : s.store.reloading = true) :
    exec (.reloadDone image) s = .next (publish s (s.reloadDone image)) :=
  (event_steady (f := fun s => if s.store.reloading then s.reloadDone image else s) hs).trans (by rw [if_pos h])

theorem StorePort.checks_iff (x : StorePort) : x.checks = true ↔
    x.absent = false ∧ x.fault = false ∧ x.list = [] ∧ x.write = none ∧ x.reloadDue = false ∧ x.reloading = false := by
  simp [StorePort.checks, and_assoc]

theorem State.checkExpiry_agrees {stored : Word16} (h : s.store.check.isSome = true)
    (hn : ¬ (s.store.checks = true ∧ (imageCrc s.store.image ≠ s.store.refCrc ∨ stored ≠ s.store.refCrc))) :
    s.checkExpiry stored = s.updStore (fun x => { x with check := some 10000 }) := by
  rw [State.checkExpiry, if_pos h, if_neg hn]

/-- A mismatch halts a device that is ACTIVE (R142, R143, R173). -/
theorem State.checkExpiry_differs {stored : Word16} (h : s.store.check.isSome = true) (hx : s.store.checks = true)
    (hn : imageCrc s.store.image ≠ s.store.refCrc ∨ stored ≠ s.store.refCrc) (ha : s.pw.state = .active) : s.checkExpiry stored =
      ({ s with store := { s.store with check := some 10000, reloadDue := true } } : State).enterHalt ⟨.calibrationMismatch, none, none, 0⟩ := by
  have hfree := s.store.checks_iff.mp hx
  have hmark : ({ s.store with check := some 10000 } : StorePort).markReload = { s.store with check := some 10000, reloadDue := true } :=
    if_neg (by rw [hfree.2.2.2.2.2]; decide)
  rw [State.checkExpiry, if_pos h, if_pos ⟨hx, hn⟩, State.mismatch, State.updStore, State.updStore, hmark, State.reportHalt]
  dsimp only
  rw [ha]

end switch

theorem State.storeAwake_iff {s : State} : s.storeAwake = true ↔
    s.pw.state = .waking ∨ s.pw.state = .active ∨ s.pw.state = .halted ∨ s.pw.state = .shuttingDown := by
  unfold State.storeAwake
  cases s.pw.state <;> decide

theorem State.anySale_none {s : State} (h : ∀ d, s.inSale d = false) : s.anySale = false := by rw [State.anySale, h, h]; rfl

/-- The motors and the fueling points after a halt (R144). -/
theorem State.Halts.stopped {s t : State} {r : HaltReport} (h : s.Halts t r) :
    (∀ v, t.valve v = ⟨.closed, 0, 0, 0⟩) ∧ (∀ m, (t.motor m).state = .off ∨ (t.motor m).state = .fault)
      ∧ ∀ d, t.fpState d = if s.inSale d then .settling else .locked := by
  refine ⟨fun v => ?_, fun m => ?_, fun d => ?_⟩
  · obtain ⟨d, p⟩ := v
    have hv := h.valves d
    rw [State.valve, hv]
    cases p <;> rfl
  · rw [h.motors m]
    by_cases hf : (s.motor m).state = .fault
    · rw [if_pos hf]
      exact .inr hf
    · rw [if_neg hf]
      exact .inl rfl
  · rw [State.fpState, h.fp d, State.inSale]
    cases hst : s.fpState d with
    | settling => exact hst
    | locked => exact hst
    | _ => rfl

theorem StorePort.reloaded_present {image : List Host.Cell} (x : StorePort) (h0 : (Memory.ofCells 1156 image).read 0 ≠ 0)
    (hff : (Memory.ofCells 1156 image).read 0 ≠ 0xFF) : ({ x.load image with reloading := false } : StorePort) = { x with
      copy := some (Memory.ofCells 1154 image), refCrc := BitVec.ofNat 16 ((Memory.ofCells 1156 image).field 1154 2), absent := false
      fault := decide ((crc16 ((Memory.ofCells 1154 image).readAll 0 1154)).toNat ≠ (Memory.ofCells 1156 image).field 1154 2)
      mirror := logEntries (Memory.ofCells 1154 image), logFull := decide (32 ≤ logCount (Memory.ofCells 1154 image)), reloading := false } := by
  rw [x.load_present h0 hff]

/-- Settles O48. -/
theorem switchChecksAndReloads : Obligations.SwitchChecksAndReloads := by
  unfold Obligations.SwitchChecksAndReloads
  refine ⟨fun s on hs => ⟨fun hon => ?_, fun hon => ?_⟩, fun s hs => ?_⟩
  · have he := exec_metrologySwitchChange hs on
    rw [if_neg hon] at he
    refine ⟨_, he, ?_⟩
    rw [flagsOf_one]
    rfl
  · have he := exec_metrologySwitchChange hs on
    rw [if_pos hon] at he
    exact ⟨_, he, rfl⟩
  · intro x free
    have hfree : s.store.checks = true ↔ free := s.store.checks_iff
    refine ⟨fun stored hc hn => ?_, fun stored hc hf hn ha => ?_, fun hdue hlist hsale hpw => ?_, fun image hr hsale hquiet h0 hff => ?_⟩
    · have he := exec_checkTimerExpiry hs stored
      rw [State.checkExpiry_agrees hc fun h => hn.elim (fun hf => hf (hfree.mp h.1)) fun ⟨h1, h2⟩ => h.2.elim (fun g => g h1) fun g => g h2] at he
      exact ⟨_, he, rfl⟩
    · have he := exec_checkTimerExpiry hs stored
      rw [State.checkExpiry_differs hc (hfree.mpr hf) hn ha] at he
      obtain ⟨y, hy⟩ : ∃ y : State, y = { s with store := { s.store with check := some 10000, reloadDue := true } } := ⟨_, rfl⟩
      have hhalts := (State.enterHalt_halts (s := y) (r := ⟨.calibrationMismatch, none, none, 0⟩) (.inr (.inr (by rw [hy])))).publish s
      rw [← hy] at he
      generalize publish s (y.enterHalt ⟨.calibrationMismatch, none, none, 0⟩) = t at he hhalts
      obtain ⟨hvalves, hmotors, hfp⟩ := hhalts.stopped
      subst hy
      refine ⟨_, he, hhalts, by rw [hhalts.others], hhalts.pw, ?_, hvalves, hmotors, hfp, ?_⟩
      · rw [hhalts.halt]
        exact congrArg (fun b => ({ s.halt with code := some .calibrationMismatch, time := s.rtc, first := none, second := none, flow := 0
                                                reload := b, halted := true } : HaltUnit)) (Bool.or_true _)
      · have hothers := hhalts.others
        generalize t.pw = pw, t.halt = halt, t.vlv = vlv, t.mot = mot, t.fp = fp, t.ret.sides = sides, t.met = met, t.port = port, t.rev = rev at hothers
        rw [hothers]
    · have he := exec_reloadStart hs
      rw [if_pos ⟨hdue, hlist, State.anySale_none hsale, State.storeAwake_iff.mpr hpw⟩] at he
      exact ⟨_, he, rfl⟩
    · have he := exec_reloadDone hs (image := image) hr
      have hl := State.reloadDone_reloads h0 hff (fun d => (hquiet d).2) (fun d => (hquiet d).1) hsale
      generalize s.reloadDone image = t at he hl
      refine ⟨_, he, hl.store.trans (s.store.reloaded_present h0 hff), hl.halt, hl.meters, congrArg State.port hl.frame, hl.flagged, ?_⟩
      have hframe := hl.frame
      generalize t.store = store, t.halt = halt, t.fp = fp, t.met = met, t.disp = disp, t.rdr = rdr, t.port.attn = attn, t.rev = rev at hframe
      rw [hframe]
      rfl

end Sys2Proof.Machine
end

section
/-! PROOFS. SET_SETTINGS (R178). -/

namespace Sys2Proof.Machine

theorem outside_in {v lo hi : Nat} (hl : lo ≤ v) (hh : v ≤ hi) : outside v lo hi = false := by
  rw [outside, decide_eq_false (Nat.not_lt.mpr hl), decide_eq_false (Nat.not_lt.mpr hh)]
  rfl

section body
variable {s : State} {n : Nat}

/-- The settings of a body in range (R178). -/
structure State.SettingsFit (s : State) (n : Nat) : Prop where
  slowMargin : 10 ≤ s.bodyField n 0 2 ∧ s.bodyField n 0 2 ≤ 200
  overrunLimit : 5 ≤ s.bodyField n 2 2 ∧ s.bodyField n 2 2 ≤ 50
  startTime : 200 ≤ s.bodyField n 4 2 ∧ s.bodyField n 4 2 ≤ 3000
  runOn : s.bodyField n 6 2 ≤ 10
  grades : ∀ i, i < 10 → s.bodyField n (8 + 4 * i) 1 ≤ 1 ∧ s.bodyField n (9 + 4 * i) 1 = (if i % 5 = 4 then 2 else 1)
    ∧ s.bodyField n (10 + 4 * i) 2 ≤ 1000
  addrs : ∀ i, i < 8 → s.bodyField n (48 + i) 1 = 0 ∨ 0x08 ≤ s.bodyField n (48 + i) 1 ∧ s.bodyField n (48 + i) 1 ≤ 0x77
  sources : ∀ i, i < 4 → 1 ≤ s.bodyField n (56 + i) 1 ∧ s.bodyField n (56 + i) 1 ≤ 4

theorem State.settingsField_none (h : s.SettingsFit n) : s.settingsField n = none := by
  unfold State.settingsField
  dsimp only
  rw [Option.map_eq_none_iff, List.find?_eq_none]
  intro x hx
  rw [Bool.not_eq_true]
  rw [List.mem_append, List.mem_append, List.mem_append] at hx
  rcases hx with ((hx | hx) | hx) | hx
  · simp only [List.mem_cons, List.not_mem_nil, or_false] at hx
    rcases hx with rfl | rfl | rfl | rfl
    · exact outside_in h.slowMargin.1 h.slowMargin.2
    · exact outside_in h.overrunLimit.1 h.overrunLimit.2
    · exact outside_in h.startTime.1 h.startTime.2
    · exact outside_in (Nat.zero_le _) h.runOn
  · obtain ⟨l, hl, hx⟩ := List.mem_flatten.mp hx
    obtain ⟨i, hi, rfl⟩ := List.mem_map.mp hl
    obtain ⟨hflag, hhose, hshare⟩ := h.grades i (List.mem_range.mp hi)
    simp only [List.mem_cons, List.not_mem_nil, or_false] at hx
    rcases hx with rfl | rfl | rfl
    · exact outside_in (Nat.zero_le _) hflag
    · refine decide_eq_false (not_not.mpr ?_)
      rw [show 8 + 4 * i + 1 = 9 + 4 * i by omega, hhose]
    · refine outside_in (Nat.zero_le _) ?_
      rw [show 8 + 4 * i + 2 = 10 + 4 * i by omega]
      exact hshare
  · obtain ⟨i, hi, rfl⟩ := List.mem_map.mp hx
    rcases h.addrs i (List.mem_range.mp hi) with h0 | ⟨hl, hh⟩
    · rw [decide_eq_false (not_not.mpr h0)]
      rfl
    · rw [outside_in hl hh, Bool.and_false]
  · obtain ⟨i, hi, rfl⟩ := List.mem_map.mp hx
    obtain ⟨hl, hh⟩ := h.sources i (List.mem_range.mp hi)
    exact outside_in hl hh

end body

/-! ## The new image -/

/-- The image with the settings of a body (R178). -/
def State.settled (s : State) (n : Nat) (image : Memory) : Memory :=
  ((image.writeAll 2 (s.bodyBytes n 8 40)).writeAll 162 (s.bodyBytes n 0 8)).writeAll 170 (s.bodyBytes n 48 13 ++ [0])

section image
variable {s : State} {n : Nat} {image : Memory}

theorem State.length_bodyBytes (s : State) (n off len : Nat) : (s.bodyBytes n off len).length = len := by rw [State.bodyBytes, Memory.length_readAll]

/-- The settings lie apart from the log (file 11, the image's layout). -/
theorem State.settled_next (s : State) (n : Nat) (image : Memory) : nextEvent (s.settled n image) = nextEvent image := by
  have hr : (s.settled n image).readAll 186 8 = image.readAll 186 8 := by
    unfold State.settled
    rw [Memory.readAll_writeAll_out _ _ _ _ _ (.inr (by rw [List.length_append, State.length_bodyBytes]; decide)),
      Memory.readAll_writeAll_out _ _ _ _ _ (.inr (by rw [State.length_bodyBytes]; decide)),
      Memory.readAll_writeAll_out _ _ _ _ _ (.inr (by rw [State.length_bodyBytes]; decide))]
  rw [nextEvent, nextEvent, Memory.field, Memory.field, hr]

/-- The fitted flags of the body stand in the image once the entry is added (R118, R178). -/
theorem State.settled_fitted (hwf : image.wf = true) (e : LogEntry) : (addEntry (s.settled n image) e).field 182 1 = s.bodyField n 60 1 := by
  have hw := Memory.writeAll_wf (Memory.writeAll_wf hwf 2 (s.bodyBytes n 8 40)) 162 (s.bodyBytes n 0 8)
  have hlen : (s.bodyBytes n 48 13 ++ [0]).length = 14 := by rw [List.length_append, State.length_bodyBytes]; rfl
  have hnew := Memory.readAll_writeAll hw 170 (s.bodyBytes n 48 13 ++ [0])
  rw [hlen] at hnew
  have hbody : (s.settled n image).readAll 170 13 = s.mem.readAll (slotAddr n + 16 + 48) 13 :=
    (Memory.readAll_split (n := 13) (k := 1) hnew (State.length_bodyBytes ..)).1
  have hkept : (addEntry (s.settled n image) e).readAll 182 1 = (s.settled n image).readAll 182 1 :=
    Memory.readAll_congr fun i hi => addEntry_others _ _ (.inl (by omega)) (.inl (by omega))
  exact congrArg natBE (hkept.trans (Memory.readAll_sub hbody (off := 12) (len := 1) (by decide)))

end image

/-! ## The event -/

section accepted
variable {s : State} {n : Nat}

theorem State.Offers.exec_setSettings (h : s.Offers .setSettings n 0) (hf : s.settingsField n = none) (ho : s.storeOpen false)
    (hn : ∀ d, s.inSale d = false) : exec .setSettings s = .next (publish s ((s.takeSlot n).1.setSettings (s.takeSlot n).2)) := by
  have he : exec .setSettings s = .next (publish s ((s.takeSlot n).1.orderSetSettings (s.takeSlot n).2)) := h.plainEvent State.orderSetSettings
  have hfield : (s.takeSlot n).1.settingsField (s.takeSlot n).2.ref.slot = none := (State.takeSlot_settingsField s n).trans hf
  have hside : (s.takeSlot n).1.saleSide = none := by
    have hno (d : Side) : (s.takeSlot n).1.inSale d = false := hn d
    simp [State.saleSide, hno]
  rw [he, State.orderSetSettings, hfield]
  simp only [hside, Option.map_none, State.storeTest_open (s := (s.takeSlot n).1) ho]

end accepted

/-- METROLOGY goes with a store-writing order that fills the log (R180). -/
theorem StorePort.changeFlags_full {x y : StorePort} (h : x.absent = y.absent ∧ x.fault = y.fault ∧ x.switchOn = y.switchOn) :
    (if y.logFull && !x.logFull then [Attn.metrology] else []) = x.changeFlags y := by
  rw [StorePort.changeFlags]
  simp only [h, true_and]
  cases (y.logFull && !x.logFull) <;> rfl

/-- Settles O46. -/
theorem setSettingsReplacesTheBlock : Obligations.SetSettingsReplacesTheBlock := by
  intro s n h ho hwf hn hquiet image f hmargin hmargin' hover hover' hstart hstart' hrun hgrades haddrs hsources new
  have he := h.exec_setSettings (State.settingsField_none
    ⟨⟨hmargin, hmargin'⟩, ⟨hover, hover'⟩, ⟨hstart, hstart'⟩, hrun, hgrades, haddrs, hsources⟩) ho hn
  have hnew : new = s.settled n s.store.image := rfl
  clear_value new
  obtain ⟨e, hentry⟩ : ∃ e : LogEntry, e =
    { event := nextEvent image, kind := 2, param := 0x80, old := 0, new := settingsDiffer image new
      oldCheck := blockCheck image .settings, newCheck := blockCheck new .settings, time := s.rtc.toNat } := ⟨_, rfl⟩
  have hnext : nextEvent new = nextEvent image := hnew ▸ State.settled_next ..
  obtain ⟨store, heq, htakes, hcopy, -⟩ := h.storeTakes (e := e) .settings false new
    { kind := .setting, param := 0x80, old := 0, new := settingsDiffer image new
      oldCheck := blockCheck image .settings, newCheck := blockCheck new .settings } (by rw [LogChange.entry, hnext, hentry]; rfl)
  obtain ⟨y, hy⟩ : ∃ y : State, y = { (s.takeSlot n).1 with
      store := store
      port := { (s.takeSlot n).1.port with
        attn := s.port.attn ||| flagsOf (if store.logFull && !s.store.logFull then [.metrology] else []) } } := ⟨_, rfl⟩
  have hset : (s.takeSlot n).1.setSettings (s.takeSlot n).2 = y.tellUsers.evalBoth := by
    have himage : (s.takeSlot n).1.settingsImage (s.takeSlot n).2.ref.slot (s.takeSlot n).1.store.image = new := by
      rw [hnew, State.settingsImage, State.takeSlot_ref, State.takeSlot_bodyBytes, State.takeSlot_bodyBytes, State.takeSlot_bodyBytes]
      rfl
    rw [State.setSettings, himage, State.takeSlot_store, heq, hy]
  have htold := State.tellUsers_told (y := y) (fun d => by rw [hy]; exact (hquiet d).2) (fun d => by rw [hy]; exact (hquiet d).1)
    (fun d => by rw [hy]; exact hn d)
  rw [hset, State.evalBoth_unsold htold.unsold] at he
  generalize y.tellUsers = t at he htold
  have hstore : t.store = store := by rw [htold.frame, hy]
  have hsame := (htakes t hstore).others
  refine ⟨_, he, ?_, hentry ▸ htakes _ hstore, fun d => ?_, ?_, fun hh => ?_, ?_⟩
  · rw [publish_mem, htold.frame, hy]
  · have hfit : y.readerFitted d = (s.bodyField n 60 1).testBit (sideIndex d) := by
      have hfield : y.copyField (settingsAddr + 20) 1 = some (s.bodyField n 60 1) := by
        rw [State.copyField, hy]
        dsimp only
        rw [hcopy, hnew]
        exact congrArg some (State.settled_fitted hwf e)
      rw [State.readerFitted, hfield]
    rw [publish_rdr, htold.fitted, hfit]
    cases d <;> rfl
  · have hport := congrArg State.port htold.frame
    rw [show y.port = { (s.takeSlot n).1.port with attn := y.port.attn } by rw [hy]] at hport
    exact hport
  · have hholds (d : Side) : y.readerHolds d = false := by
      rw [hy]
      exact hh d
    have hkeep : s.store.absent = store.absent ∧ s.store.fault = store.fault ∧ s.store.switchOn = store.switchOn := by
      rw [hstore] at hsame
      exact ⟨(congrArg StorePort.absent hsame).symm, (congrArg StorePort.fault hsame).symm, (congrArg StorePort.switchOn hsame).symm⟩
    have hfirst : s.Flagged y := by
      have hstill (d : Side) : s.stateFlags d (y.fpState d) = [] := by
        rw [show y.fpState d = s.fpState d by rw [hy]; rfl, State.stateFlags_same]
      have hport : y.port.attn = s.port.attn ||| flagsOf (s.store.changeFlags y.store) := by rw [hy, StorePort.changeFlags_full hkeep]
      rw [State.Flagged, State.changeFlags_fpsStore (fun _ => by rw [hy]; rfl) (fun _ => by rw [hy]; rfl), hstill, hstill, flagsOf_nil_or,
        flagsOf_nil_or, hport]
    exact hfirst.trans (htold.flagged hholds) (fun _ => .inl (by rw [hy]; rfl)) (fun _ => .inl (by rw [hy]; rfl)) (fun _ => .inl (by rw [hy]; rfl))
      (.inr (show t.store = y.store by rw [htold.frame]))
  · have hframe := htold.frame
    generalize t.fp = fp, t.met = met, t.disp = disp, t.rdr = rdr, t.port.attn = attn at hframe
    rw [hframe, hy]
    rfl

end Sys2Proof.Machine
end
